-- ==== Sys2Proof/Word.lean ====
section
/-! DEFINITION. The word types of the NU-SH6400, the names of its agents (dies, cores, slots, holdings)
and the sorted finite maps in which the model keeps sparse state. -/

namespace Sys2Proof

/-- A 64-bit scalar word (06 R123). -/
abbrev Word := BitVec 64
/-- A byte; multi-byte values are little-endian (00 R2). -/
abbrev Byte := BitVec 8
/-- A 32-bit word: an instruction word (03 R49) or a lane (08 R169). -/
abbrev W32 := BitVec 32
/-- A 256-bit vector register (08 R168). -/
abbrev VReg := BitVec 256
/-- A register number of an instruction field (03 R51). -/
abbrev Reg := BitVec 5

/-- A physical compute die, by its die number (01 R8). -/
abbrev DieId := Fin 32
/-- A core of a die: 20 · row + column in the die's logical grid (01 R14). -/
abbrev CoreIdx := Fin 480
/-- A thread slot (05 R90). -/
abbrev SlotId := Fin 4

/-- A physical core: the die on which it stands and its place in the die's grid. -/
structure CoreRef where
  die : DieId
  idx : CoreIdx
deriving DecidableEq, Repr, Inhabited

/-- A thread slot of a physical core. -/
structure SlotRef where
  core : CoreRef
  slot : SlotId
deriving DecidableEq, Repr, Inhabited

/-- A holding index of an estate (19 R393). -/
structure HoldRef where
  est : Fin 4
  ix : Fin 8
deriving DecidableEq, Repr, Inhabited

/-- Holding coordinates of a core (00 R5). -/
structure Coord where
  hx : Nat
  hy : Nat
deriving DecidableEq, Repr, Inhabited

/-- A finite map with natural keys, as a list sorted by rising key. -/
abbrev FMap (α : Type) := List (Nat × α)

/-- The value at key `k`, or `d` where the map lists none. -/
def FMap.get {α : Type} (d : α) : FMap α → Nat → α
  | [], _ => d
  | (j, v) :: m, k => if j = k then v else FMap.get d m k

/-- Writes `v` at key `k`, keeping the keys sorted. -/
def FMap.set {α : Type} : FMap α → Nat → α → FMap α
  | [], k, v => [(k, v)]
  | (j, w) :: m, k, v =>
    if j = k then (k, v) :: m
    else if k < j then (k, v) :: (j, w) :: m
    else (j, w) :: FMap.set m k v

/-- Removes key `k`. -/
def FMap.erase {α : Type} : FMap α → Nat → FMap α
  | [], _ => []
  | (j, w) :: m, k => if j = k then m else (j, w) :: FMap.erase m k

/-- A finite set of natural numbers, as a list sorted by rising value. -/
abbrev NSet := List Nat

/-- Adds `k` to a sorted set. -/
def NSet.insert : NSet → Nat → NSet
  | [], k => [k]
  | j :: m, k => if j = k then k :: m else if k < j then k :: j :: m else j :: NSet.insert m k

/-- Removes `k` from a set. -/
def NSet.erase : NSet → Nat → NSet
  | [], _ => []
  | j :: m, k => if j = k then m else j :: NSet.erase m k

end Sys2Proof
end

