-- ==== Sys2Proof/Syntax.lean ====
section
/-! DEFINITION. The syntax of the NU-SH6400: one constructor of `Instr` for every row of the opcode table, the
258 instruction words (03 R58 to R67) and the 75 whole steps of the device (95), and the turns by which plain data
says which agent moves next. -/

namespace Sys2Proof

/-- A 64-byte line in which an uncorrectable error is detected (10 R226). -/
inductive LineRef where
  /-- Line `line` of the pool of a core. -/
  | pool (core : CoreRef) (line : Nat)
  /-- Line `line` of the panel's stacks and slices. -/
  | mem (line : Nat)
deriving DecidableEq, Repr

/-- The rings with a control register of the layout of 18 R368. -/
inductive RingId where
  | request
  | completion
  | launch (q : Fin 16)
  | collective
deriving DecidableEq, Repr

/-- A claim of stewardship as a port writes it, and what the other port writes to claim in the same device cycle (20 R414). -/
structure ClaimWrites where
  v : Word
  other : Option Word := none
deriving DecidableEq, Repr

/-- The command that a port writes to an engine with a table in host memory, and whether the host translates the table's
addresses (20 R425, R426). -/
structure TableCommand where
  v : Word
  reach : Bool
deriving DecidableEq, Repr

/-- Whether the host translates the place of a STOP's report, and whether this is the command's later turn, which ends it (19 R405). -/
structure StopWork where
  reach : Bool
  again : Bool
deriving DecidableEq, Repr

/-- The estate whose harvest is cut, and whether the host translates the table's addresses (20 R425). -/
structure CutOrder where
  est : Fin 4
  reach : Bool
deriving DecidableEq, Repr

/-- How far a collective that is cut short has come: the bytes that are finished, and the buffers of the peers (20 R422). -/
structure PartDone where
  count : Nat
  bufs : List (BitVec 48 × List Byte)
deriving DecidableEq, Repr

/-- The port through which a Mask bit is cleared, and the vector, or none for the function's bit (18 R374). -/
structure MaskClear where
  port : BitVec 1
  vec : Option (Fin 3)
deriving DecidableEq, Repr

/-- What a span link reports when its state changes (20 R419). -/
structure LinkReport where
  state : BitVec 2
  lanes : BitVec 4
  retries : BitVec 32
  peer : BitVec 48
  peerLink : BitVec 4
deriving DecidableEq, Repr

/-- What bring-up finds (21 R439): whether the firmware image verifies, the stage at which it stops otherwise (0: none),
the cores that fail their self-test, the pseudo-channels and lanes that are mapped out (by wear entry, 32 to 79), the
transplant secret that the random source yields (20 R423), and, for the clocks (14 R303), the panel time at the end of
stage 2 with the offset that the first beacon of each region measures (by region, 2 · die + half). -/
structure BootReport where
  firmwareOk : Bool
  stopAt : Nat
  failing : List CoreRef
  failed : List (Nat × BitVec 8)
  secret : BitVec 256
  panelNs : Nat
  offsets : List (Nat × Int)
deriving DecidableEq, Repr

/-- The host registers whose writes have no row of their own in the opcode table. Estate registers name their estate; the
registers of a virtual function belong to the function that is written. -/
inductive HostReg where
  /-- HM.CMD with an op value that names no command (19 R396). -/
  | hmCmdOther (e : Fin 4)
  | hmArg (e : Fin 4)
  | hmTime (e : Fin 4)
  | hmDpr (e : Fin 4)
  | hmDprLen (e : Fin 4)
  | partner (e : Fin 4)
  | lseed (e : Fin 4) (h : Fin 8)
  | pw (e : Fin 4) (h : Fin 8) (i : Fin 16)
  | ringBase (ring : RingId)
  /-- A control write that does not take en from 0 to 1. -/
  | ringCtl (ring : RingId)
  | rqTail
  | lqTail (q : Fin 16)
  | kvBase
  | crTaddr
  /-- HC.CMD with an op value that names no command (20 R416). -/
  | hcCmdOther
  | hcArg
  | hcAddr
  | hcLen
  | hostEvt
  | hostMask
  | slCtl (k : Fin 16)
  | collTmo
  | trTicket (i : Fin 4)
  /-- TR.CMD with an op value that names no command (20 R423). -/
  | trCmdOther
  | hvTab
  | hvN
  | hvStep
  /-- HV.CMD with an op value that names no command (20 R424). -/
  | hvCmdOther
  | secNonce (i : Fin 4)
  | secAddr
  | stwLease
  | pwrEnv
  | pwrStat
  | wearWarn
  | wearEvt (high : Bool)
  /-- The outstanding page-request allocation of the function's Page Request capability (10 R222). -/
  | priAlloc
  /-- The per-vector mask bit of an MSI-X vector, set (18 R374). -/
  | msixMask (vec : Fin 3)
  /-- NumVFs of the SR-IOV capability (20 R411). -/
  | numVfs
  /-- The function mask of the MSI-X capability, set. -/
  | msixFnMask
  /-- Any register that is read only (00 R3): `early` where the block is served before stage 7 of bring-up (21 R439). -/
  | readOnly (early : Bool)
deriving DecidableEq, Repr

/-- The instructions and steps of the device: one constructor per row of spec/opcode_table.json. -/
inductive Instr where
  /-- `add` (R137). -/
  | add (d a b : Reg) (h : BitVec 1)
  /-- `sub` (R137). -/
  | sub (d a b : Reg) (h : BitVec 1)
  /-- `and` (R137). -/
  | and (d a b : Reg) (h : BitVec 1)
  /-- `or` (R137). -/
  | or (d a b : Reg) (h : BitVec 1)
  /-- `xor` (R137). -/
  | xor (d a b : Reg) (h : BitVec 1)
  /-- `andn` (R137). -/
  | andn (d a b : Reg) (h : BitVec 1)
  /-- `sll` (R137). -/
  | sll (d a b : Reg) (h : BitVec 1)
  /-- `srl` (R137). -/
  | srl (d a b : Reg) (h : BitVec 1)
  /-- `sra` (R137). -/
  | sra (d a b : Reg) (h : BitVec 1)
  /-- `rotl` (R137). -/
  | rotl (d a b : Reg) (h : BitVec 1)
  /-- `slt` (R137). -/
  | slt (d a b : Reg) (h : BitVec 1)
  /-- `sltn` (R137). -/
  | sltn (d a b : Reg) (h : BitVec 1)
  /-- `min` (R137). -/
  | min (d a b : Reg) (h : BitVec 1)
  /-- `max` (R137). -/
  | max (d a b : Reg) (h : BitVec 1)
  /-- `minn` (R137). -/
  | minn (d a b : Reg) (h : BitVec 1)
  /-- `maxn` (R137). -/
  | maxn (d a b : Reg) (h : BitVec 1)
  /-- `mul` (R137). -/
  | mul (d a b : Reg) (h : BitVec 1)
  /-- `mulh` (R137). -/
  | mulh (d a b : Reg) (h : BitVec 1)
  /-- `mulhn` (R137). -/
  | mulhn (d a b : Reg) (h : BitVec 1)
  /-- `div` (R138). -/
  | div (d a b : Reg) (h : BitVec 1)
  /-- `divn` (R138). -/
  | divn (d a b : Reg) (h : BitVec 1)
  /-- `rem` (R138). -/
  | rem (d a b : Reg) (h : BitVec 1)
  /-- `remn` (R138). -/
  | remn (d a b : Reg) (h : BitVec 1)
  /-- `clz` (R137). -/
  | clz (d a : Reg) (h : BitVec 1)
  /-- `ctz` (R137). -/
  | ctz (d a : Reg) (h : BitVec 1)
  /-- `popc` (R137). -/
  | popc (d a : Reg) (h : BitVec 1)
  /-- `bext` (R139). -/
  | bext (d a b : Reg) (h : BitVec 1)
  /-- `bins` (R139). -/
  | bins (d a b : Reg) (h : BitVec 1)
  /-- `sext` (R139). -/
  | sext (d a b : Reg) (h : BitVec 1)
  /-- `zext` (R139). -/
  | zext (d a b : Reg) (h : BitVec 1)
  /-- `csel` (R137). -/
  | csel (d a b : Reg) (h : BitVec 1)
  /-- `add.w` (R140). -/
  | addW (d a b : Reg) (h : BitVec 1)
  /-- `sub.w` (R140). -/
  | subW (d a b : Reg) (h : BitVec 1)
  /-- `sll.w` (R140). -/
  | sllW (d a b : Reg) (h : BitVec 1)
  /-- `srl.w` (R140). -/
  | srlW (d a b : Reg) (h : BitVec 1)
  /-- `sra.w` (R140). -/
  | sraW (d a b : Reg) (h : BitVec 1)
  /-- `mul.w` (R140). -/
  | mulW (d a b : Reg) (h : BitVec 1)
  /-- `div.w` (R140). -/
  | divW (d a b : Reg) (h : BitVec 1)
  /-- `divn.w` (R140). -/
  | divnW (d a b : Reg) (h : BitVec 1)
  /-- `rem.w` (R140). -/
  | remW (d a b : Reg) (h : BitVec 1)
  /-- `remn.w` (R140). -/
  | remnW (d a b : Reg) (h : BitVec 1)
  /-- `srd` (R136). -/
  | srd (d : Reg) (s : BitVec 12)
  /-- `swr` (R136). -/
  | swr (a : Reg) (s : BitVec 12)
  /-- `sxch` (R136). -/
  | sxch (d a : Reg) (s : BitVec 12)
  /-- `ldbit` (R158). -/
  | ldbit (d a b : Reg) (h : BitVec 1)
  /-- `stbit` (R158). -/
  | stbit (d a b : Reg) (h : BitVec 1)
  /-- `cb.init` (R164). -/
  | cbInit (a b : Reg) (h : BitVec 1) (k : BitVec 4)
  /-- `cb.need` (R165). -/
  | cbNeed (a : Reg) (h : BitVec 1) (k : BitVec 4)
  /-- `cb.room` (R165). -/
  | cbRoom (a : Reg) (h : BitVec 1) (k : BitVec 4)
  /-- `cb.adv.h` (R166). -/
  | cbAdvH (a : Reg) (h : BitVec 1) (k : BitVec 4)
  /-- `cb.adv.t` (R166). -/
  | cbAdvT (a : Reg) (h : BitVec 1) (k : BitVec 4)
  /-- `cb.stat` (R167). -/
  | cbStat (d : Reg) (h : BitVec 1) (k : BitVec 4)
  /-- `addi` (R141). -/
  | addi (d a : Reg) (i : BitVec 16)
  /-- `andi` (R141). -/
  | andi (d a : Reg) (i : BitVec 16)
  /-- `ori` (R141). -/
  | ori (d a : Reg) (i : BitVec 16)
  /-- `xori` (R141). -/
  | xori (d a : Reg) (i : BitVec 16)
  /-- `slli` (R142). -/
  | slli (d a : Reg) (n : BitVec 6)
  /-- `srli` (R142). -/
  | srli (d a : Reg) (n : BitVec 6)
  /-- `srai` (R142). -/
  | srai (d a : Reg) (n : BitVec 6)
  /-- `slli.w` (R142). -/
  | slliW (d a : Reg) (n : BitVec 6)
  /-- `srli.w` (R142). -/
  | srliW (d a : Reg) (n : BitVec 6)
  /-- `srai.w` (R142). -/
  | sraiW (d a : Reg) (n : BitVec 6)
  /-- `slti` (R141). -/
  | slti (d a : Reg) (i : BitVec 16)
  /-- `sltni` (R141). -/
  | sltni (d a : Reg) (i : BitVec 16)
  /-- `lhi` (R141). -/
  | lhi (d : Reg) (i : BitVec 16)
  /-- `addpc` (R141). -/
  | addpc (d : Reg) (i : BitVec 16)
  /-- `addi.w` (R141). -/
  | addiW (d a : Reg) (i : BitVec 16)
  /-- `trap` (R273). -/
  | trap (i : BitVec 16)
  /-- `ld.s8` (R157). -/
  | ldS8 (d a : Reg) (i : BitVec 16)
  /-- `ld.n8` (R157). -/
  | ldN8 (d a : Reg) (i : BitVec 16)
  /-- `ld.s16` (R157). -/
  | ldS16 (d a : Reg) (i : BitVec 16)
  /-- `ld.n16` (R157). -/
  | ldN16 (d a : Reg) (i : BitVec 16)
  /-- `ld.s32` (R157). -/
  | ldS32 (d a : Reg) (i : BitVec 16)
  /-- `ld.n32` (R157). -/
  | ldN32 (d a : Reg) (i : BitVec 16)
  /-- `ld.64` (R157). -/
  | ld64 (d a : Reg) (i : BitVec 16)
  /-- `ld.v` (R175). -/
  | ldV (d a : Reg) (i : BitVec 16)
  /-- `st.8` (R157). -/
  | st8 (d a : Reg) (i : BitVec 16)
  /-- `st.16` (R157). -/
  | st16 (d a : Reg) (i : BitVec 16)
  /-- `st.32` (R157). -/
  | st32 (d a : Reg) (i : BitVec 16)
  /-- `st.64` (R157). -/
  | st64 (d a : Reg) (i : BitVec 16)
  /-- `st.v` (R175). -/
  | stV (d a : Reg) (i : BitVec 16)
  /-- `beq` (R143). -/
  | beq (a b : Reg) (o : BitVec 16)
  /-- `bne` (R143). -/
  | bne (a b : Reg) (o : BitVec 16)
  /-- `blt` (R143). -/
  | blt (a b : Reg) (o : BitVec 16)
  /-- `bge` (R143). -/
  | bge (a b : Reg) (o : BitVec 16)
  /-- `bltn` (R143). -/
  | bltn (a b : Reg) (o : BitVec 16)
  /-- `bgen` (R143). -/
  | bgen (a b : Reg) (o : BitVec 16)
  /-- `j` (R144). -/
  | j (o : BitVec 26)
  /-- `jal` (R144). -/
  | jal (o : BitVec 26)
  /-- `reyoke` (R122). -/
  | reyoke (o : BitVec 26)
  /-- `jr` (R144). -/
  | jr (a : Reg) (i : BitVec 16)
  /-- `jalr` (R144). -/
  | jalr (d a : Reg) (i : BitVec 16)
  /-- `am.add` (R240). -/
  | amAdd (d a b : Reg) (h z : BitVec 1)
  /-- `am.and` (R240). -/
  | amAnd (d a b : Reg) (h z : BitVec 1)
  /-- `am.or` (R240). -/
  | amOr (d a b : Reg) (h z : BitVec 1)
  /-- `am.xor` (R240). -/
  | amXor (d a b : Reg) (h z : BitVec 1)
  /-- `am.min` (R240). -/
  | amMin (d a b : Reg) (h z : BitVec 1)
  /-- `am.max` (R240). -/
  | amMax (d a b : Reg) (h z : BitVec 1)
  /-- `am.minn` (R240). -/
  | amMinn (d a b : Reg) (h z : BitVec 1)
  /-- `am.maxn` (R240). -/
  | amMaxn (d a b : Reg) (h z : BitVec 1)
  /-- `am.swap` (R240). -/
  | amSwap (d a b : Reg) (h z : BitVec 1)
  /-- `am.cas` (R240). -/
  | amCas (d a b : Reg) (h z : BitVec 1)
  /-- `am.add.ps` (R240). -/
  | amAddPs (a b : Reg) (h z : BitVec 1)
  /-- `am.and.ps` (R240). -/
  | amAndPs (a b : Reg) (h z : BitVec 1)
  /-- `am.or.ps` (R240). -/
  | amOrPs (a b : Reg) (h z : BitVec 1)
  /-- `am.xor.ps` (R240). -/
  | amXorPs (a b : Reg) (h z : BitVec 1)
  /-- `am.min.ps` (R240). -/
  | amMinPs (a b : Reg) (h z : BitVec 1)
  /-- `am.max.ps` (R240). -/
  | amMaxPs (a b : Reg) (h z : BitVec 1)
  /-- `am.minn.ps` (R240). -/
  | amMinnPs (a b : Reg) (h z : BitVec 1)
  /-- `am.maxn.ps` (R240). -/
  | amMaxnPs (a b : Reg) (h z : BitVec 1)
  /-- `fence` (R257). -/
  | fence (h : BitVec 1) (s : BitVec 3)
  /-- `ld.acq` (R259). -/
  | ldAcq (d a : Reg) (h : BitVec 1) (s : BitVec 3)
  /-- `st.rel` (R259). -/
  | stRel (d a : Reg) (h : BitVec 1) (s : BitVec 3)
  /-- `fence.eng.dr` (R258). -/
  | fenceEngDr (h : BitVec 1)
  /-- `fence.eng.pl` (R258). -/
  | fenceEngPl (h : BitVec 1)
  /-- `fence.eng` (R258). -/
  | fenceEng (h : BitVec 1)
  /-- `sow` (R116). -/
  | sow (a : Reg) (h : BitVec 1)
  /-- `sow.at` (R116). -/
  | sowAt (a b : Reg) (h : BitVec 1)
  /-- `sow.cap` (R116). -/
  | sowCap (a b : Reg) (h : BitVec 1)
  /-- `end` (R108). -/
  | endTask (a : Reg) (h : BitVec 1)
  /-- `yield` (R118). -/
  | yield (h : BitVec 1)
  /-- `wfe` (R118). -/
  | wfe (h : BitVec 1)
  /-- `sev` (R119). -/
  | sev (a : Reg) (h : BitVec 1)
  /-- `trig.arm` (R120). -/
  | trigArm (a b : Reg) (h : BitVec 1)
  /-- `trig.dec` (R120). -/
  | trigDec (a b : Reg) (h : BitVec 1)
  /-- `trig.rd` (R120). -/
  | trigRd (d a : Reg) (h : BitVec 1)
  /-- `hmask` (R121). -/
  | hmask (a : Reg) (h : BitVec 1)
  /-- `yoke` (R122). -/
  | yoke (a : Reg) (h : BitVec 1)
  /-- `unyoke` (R122). -/
  | unyoke (h : BitVec 1)
  /-- `msg.h` (R296). -/
  | msgH (a : Reg) (h : BitVec 1)
  /-- `msg.d` (R297). -/
  | msgD (a : Reg) (h : BitVec 1) (k : BitVec 4)
  /-- `msg.go` (R298). -/
  | msgGo (h : BitVec 1)
  /-- `msg.to` (R296). -/
  | msgTo (a b : Reg) (h : BitVec 1)
  /-- `mq.rd` (R300). -/
  | mqRd (d : Reg) (h : BitVec 1) (k : BitVec 4)
  /-- `mq.pop` (R301). -/
  | mqPop (h : BitVec 1)
  /-- `mq.peek` (R299). -/
  | mqPeek (d : Reg) (h : BitVec 1)
  /-- `mb.post` (R360). -/
  | mbPost (a b : Reg) (h : BitVec 1)
  /-- `mb.take` (R361). -/
  | mbTake (a b : Reg) (h : BitVec 1)
  /-- `gbp.acc` (R362). -/
  | gbpAcc (a b : Reg) (h : BitVec 1)
  /-- `gbp.sub` (R363). -/
  | gbpSub (a b : Reg) (h : BitVec 1)
  /-- `gbp.elim` (R364). -/
  | gbpElim (a b : Reg) (h : BitVec 1)
  /-- `gbp.damp` (R365). -/
  | gbpDamp (d a b : Reg) (h : BitVec 1)
  /-- `gbp.res` (R366). -/
  | gbpRes (d a b : Reg) (h : BitVec 1)
  /-- `rdtime` (R311). -/
  | rdtime (d : Reg) (h : BitVec 1)
  /-- `rdtime.loc` (R311). -/
  | rdtimeLoc (d : Reg) (h : BitVec 1)
  /-- `rdband` (R312). -/
  | rdband (d a : Reg) (h : BitVec 1)
  /-- `rdpos` (R313). -/
  | rdpos (d : Reg) (h : BitVec 1)
  /-- `bar.arrive` (R327). -/
  | barArrive (h : BitVec 1) (k : BitVec 4)
  /-- `bar.wait` (R327). -/
  | barWait (h : BitVec 1) (k : BitVec 4)
  /-- `bar.mask` (R328). -/
  | barMask (a : Reg) (h : BitVec 1) (k : BitVec 4)
  /-- `bar.stat` (R329). -/
  | barStat (d : Reg) (h : BitVec 1) (k : BitVec 4)
  /-- `hl.stat` (R347). -/
  | hlStat (d : Reg) (h : BitVec 1)
  /-- `hl.defer` (R348). -/
  | hlDefer (h : BitVec 1)
  /-- `resume` (R274). -/
  | resume (a : Reg) (h : BitVec 1)
  /-- `park` (R275). -/
  | park (h : BitVec 1)
  /-- `fault.post` (R276). -/
  | faultPost (a b : Reg) (h : BitVec 1)
  /-- `sq.take` (R386). -/
  | sqTake (d a : Reg) (h : BitVec 1)
  /-- `sq.admit` (R387). -/
  | sqAdmit (d a : Reg) (h : BitVec 1)
  /-- `sq.retire` (R389). -/
  | sqRetire (a : Reg) (h : BitVec 1)
  /-- `kv.get` (R390). -/
  | kvGet (d a : Reg) (h : BitVec 1)
  /-- `kv.put` (R391). -/
  | kvPut (a b : Reg) (h : BitVec 1)
  /-- `stop.test` (R388). -/
  | stopTest (d a b : Reg) (h : BitVec 1)
  /-- `pl.geo` (R214). -/
  | plGeo (a : Reg) (s : BitVec 2)
  /-- `pl.mma` (R215). -/
  | plMma (a b : Reg) (z : BitVec 1)
  /-- `pl.mmt` (R215). -/
  | plMmt (a b : Reg) (z : BitVec 1)
  /-- `pl.zacc` (R217). -/
  | plZacc (a b : Reg)
  /-- `pl.ldacc` (R217). -/
  | plLdacc (a : Reg)
  /-- `pl.stacc` (R217). -/
  | plStacc (a : Reg) (o : BitVec 2)
  /-- `pl.wait` (R218). -/
  | plWait (a : Reg)
  /-- `pl.tile` (R216). -/
  | plTile (a b : Reg) (z : BitVec 1)
  /-- `pl.flush` (R218). -/
  | plFlush
  /-- `pl.mma.blk` (R215). -/
  | plMmaBlk (a b : Reg) (z : BitVec 1)
  /-- `pl.mmt.blk` (R215). -/
  | plMmtBlk (a b : Reg) (z : BitVec 1)
  /-- `pl.tile.blk` (R216). -/
  | plTileBlk (a b : Reg) (z : BitVec 1)
  /-- `dr.copy.gp` (R234). -/
  | drCopyGp (a b : Reg)
  /-- `dr.copy.pg` (R234). -/
  | drCopyPg (a b : Reg)
  /-- `dr.copy.pp` (R234). -/
  | drCopyPp (a b : Reg)
  /-- `dr.copy.gg` (R234). -/
  | drCopyGg (a b : Reg)
  /-- `dr.gath.g` (R234). -/
  | drGathG (a b : Reg)
  /-- `dr.gath.p` (R234). -/
  | drGathP (a b : Reg)
  /-- `dr.scat.g` (R234). -/
  | drScatG (a b : Reg)
  /-- `dr.scat.p` (R234). -/
  | drScatP (a b : Reg)
  /-- `dr.fill.g` (R234). -/
  | drFillG (a b : Reg)
  /-- `dr.fill.p` (R234). -/
  | drFillP (a b : Reg)
  /-- `dr.wait` (R239). -/
  | drWait (a : Reg)
  /-- `vadd.f32` (R178). -/
  | vaddF32 (d a b : Reg)
  /-- `vadd.s32` (R179). -/
  | vaddS32 (d a b : Reg)
  /-- `vsub.f32` (R178). -/
  | vsubF32 (d a b : Reg)
  /-- `vsub.s32` (R179). -/
  | vsubS32 (d a b : Reg)
  /-- `vmul.f32` (R178). -/
  | vmulF32 (d a b : Reg)
  /-- `vmul.s32` (R179). -/
  | vmulS32 (d a b : Reg)
  /-- `vfma.f32` (R178). -/
  | vfmaF32 (d a b c : Reg)
  /-- `vfnm.f32` (R178). -/
  | vfnmF32 (d a b c : Reg)
  /-- `vmin.f32` (R180). -/
  | vminF32 (d a b : Reg)
  /-- `vmin.s32` (R179). -/
  | vminS32 (d a b : Reg)
  /-- `vmin.n32` (R179). -/
  | vminN32 (d a b : Reg)
  /-- `vmax.f32` (R180). -/
  | vmaxF32 (d a b : Reg)
  /-- `vmax.s32` (R179). -/
  | vmaxS32 (d a b : Reg)
  /-- `vmax.n32` (R179). -/
  | vmaxN32 (d a b : Reg)
  /-- `vabs.f32` (R178). -/
  | vabsF32 (d a : Reg)
  /-- `vabs.s32` (R179). -/
  | vabsS32 (d a : Reg)
  /-- `vneg.f32` (R178). -/
  | vnegF32 (d a : Reg)
  /-- `vneg.s32` (R179). -/
  | vnegS32 (d a : Reg)
  /-- `vrcp.f32` (R178). -/
  | vrcpF32 (d a : Reg)
  /-- `vrsq.f32` (R178). -/
  | vrsqF32 (d a : Reg)
  /-- `vand` (R179). -/
  | vand (d a b : Reg)
  /-- `vor` (R179). -/
  | vor (d a b : Reg)
  /-- `vxor` (R179). -/
  | vxor (d a b : Reg)
  /-- `vsll` (R179). -/
  | vsll (d a b : Reg)
  /-- `vsrl` (R179). -/
  | vsrl (d a b : Reg)
  /-- `vsra` (R179). -/
  | vsra (d a b : Reg)
  /-- `vsel` (R181). -/
  | vsel (d a b c : Reg)
  /-- `vdot.f32` (R182). -/
  | vdotF32 (d a b : Reg)
  /-- `vscl.f32` (R178). -/
  | vsclF32 (d a b : Reg)
  /-- `vcmp.eq.f32` (R183). -/
  | vcmpEqF32 (d a b : Reg)
  /-- `vcmp.ne.f32` (R183). -/
  | vcmpNeF32 (d a b : Reg)
  /-- `vcmp.lt.f32` (R183). -/
  | vcmpLtF32 (d a b : Reg)
  /-- `vcmp.le.f32` (R183). -/
  | vcmpLeF32 (d a b : Reg)
  /-- `vcmp.eq.s32` (R183). -/
  | vcmpEqS32 (d a b : Reg)
  /-- `vcmp.ne.s32` (R183). -/
  | vcmpNeS32 (d a b : Reg)
  /-- `vcmp.lt.s32` (R183). -/
  | vcmpLtS32 (d a b : Reg)
  /-- `vcmp.le.s32` (R183). -/
  | vcmpLeS32 (d a b : Reg)
  /-- `vcmp.lt.n32` (R183). -/
  | vcmpLtN32 (d a b : Reg)
  /-- `vcmp.le.n32` (R183). -/
  | vcmpLeN32 (d a b : Reg)
  /-- `vradd.f32` (R184). -/
  | vraddF32 (d a : Reg)
  /-- `vradd.s32` (R184). -/
  | vraddS32 (d a : Reg)
  /-- `vrmax.f32` (R184). -/
  | vrmaxF32 (d a : Reg)
  /-- `vrmax.s32` (R184). -/
  | vrmaxS32 (d a : Reg)
  /-- `vrmin.f32` (R184). -/
  | vrminF32 (d a : Reg)
  /-- `vrmin.s32` (R184). -/
  | vrminS32 (d a : Reg)
  /-- `vrmaxi.f32` (R185). -/
  | vrmaxiF32 (d a : Reg)
  /-- `vcvt.f32.s32` (R187). -/
  | vcvtF32S32 (d a : Reg)
  /-- `vcvt.s32.f32` (R187). -/
  | vcvtS32F32 (d a : Reg)
  /-- `vcvt.bf16.f32` (R186). -/
  | vcvtBf16F32 (d a : Reg)
  /-- `vcvt.f16.f32` (R186). -/
  | vcvtF16F32 (d a : Reg)
  /-- `vcvt.f32.bf16` (R186). -/
  | vcvtF32Bf16 (d a : Reg)
  /-- `vcvt.f32.f16` (R186). -/
  | vcvtF32F16 (d a : Reg)
  /-- `vcvt.e4m3.f32` (R186). -/
  | vcvtE4m3F32 (d a : Reg)
  /-- `vcvt.e5m2.f32` (R186). -/
  | vcvtE5m2F32 (d a : Reg)
  /-- `vcvt.f32.e4m3` (R186). -/
  | vcvtF32E4m3 (d a : Reg)
  /-- `vcvt.f32.e5m2` (R186). -/
  | vcvtF32E5m2 (d a : Reg)
  /-- `vpack.s16` (R188). -/
  | vpackS16 (d a b : Reg)
  /-- `vpack.n16` (R188). -/
  | vpackN16 (d a b : Reg)
  /-- `vpack.s8` (R188). -/
  | vpackS8 (d a b : Reg)
  /-- `vpack.n8` (R188). -/
  | vpackN8 (d a b : Reg)
  /-- `vunpk.s16` (R188). -/
  | vunpkS16 (d a : Reg) (k : BitVec 5)
  /-- `vunpk.n16` (R188). -/
  | vunpkN16 (d a : Reg) (k : BitVec 5)
  /-- `vunpk.s8` (R188). -/
  | vunpkS8 (d a : Reg) (k : BitVec 5)
  /-- `vunpk.n8` (R188). -/
  | vunpkN8 (d a : Reg) (k : BitVec 5)
  /-- `vbcast` (R189). -/
  | vbcast (d a : Reg)
  /-- `vext` (R189). -/
  | vext (d a : Reg) (k : BitVec 5)
  /-- `vins` (R189). -/
  | vins (d a : Reg) (k : BitVec 5)
  /-- `vperm` (R189). -/
  | vperm (d a b : Reg)
  /-- `vrot` (R189). -/
  | vrot (d a : Reg) (k : BitVec 5)
  /-- `vshfl` (R189). -/
  | vshfl (d a b : Reg)
  /-- `ldg.v` (R177). -/
  | ldgV (d a b : Reg)
  /-- `stg.v` (R177). -/
  | stgV (d a b : Reg)
  /-- `brk` (R146). -/
  | brk
  /-- A word that fails a decode check raises its cause with no other effect (R55). -/
  | illegalInstruction (w : W32)
  /-- On cause 0x40, waits for the slot's engine work, then chooses a target die and places the migrating seed (R271). -/
  | migrate (loc : SlotRef)
  /-- A free slot starts its highest-priority candidate: a runnable entry, the deque tail or a scheduler seed (R92). -/
  | dispatch (loc : SlotRef)
  /-- A quiescent core adopts a seed's new partition word and writes its pool data (R150). -/
  | partitionChange (core : CoreRef)
  /-- An accepted concurrent launch starts all its seeds together once every reserved slot is free (R105). -/
  | concurrentDispatch (h : HoldRef) (tag : Nat)
  /-- An idle core takes the oldest eligible seed from a cluster sibling (R104). -/
  | gleanCluster (core : CoreRef)
  /-- An idle die scheduler takes seeds from a neighbouring holding die (R104). -/
  | gleanHolding (die : DieId)
  /-- The die scheduler moves a seed from a restore place into a deque or ready queue once room appears (R99). -/
  | restoreSeedMove (loc : SlotRef)
  /-- A task that occupies its slot for 2^w cycles is aborted with cause 0x43 (R109). -/
  | handlerWatchdog (loc : SlotRef)
  /-- A message is accepted at its destination core, applied to a trigger entry or written into a ring, or returned (R288). -/
  | deliver (h : HoldRef) (n : Nat)
  /-- The fault queue hands its oldest record to entry 255 of the supervisor core when that entry is armed (R267). -/
  | faultRecordOffer (h : HoldRef)
  /-- The plough chooses the next tile to run among the cores' queues, starting an operation at its first tile (R195). -/
  | ploughGrant (die : DieId) (cl : Fin 60)
  /-- A finished tile commits its working copy into its accumulator unit, and the operation completes after its last tile (R203). -/
  | tileCommit (die : DieId) (cl : Fin 60)
  /-- The drill copies one row, advancing rings, or fails with an asynchronous fault (R236). -/
  | drillRow (core : CoreRef)
  /-- A translation response from the host fills the die's translation cache (R221). -/
  | atsCompletion (die : DieId) (n victim : Nat)
  /-- A PRI response repeats the ATS request once, or fails the waiting access (R222). -/
  | pageRequestResponse (die : DieId) (n : Nat) (ok : Bool) (victim : Nat)
  /-- Removes matching translations on every die and completes once the accesses using them are done (R223). -/
  | atsInvalidation (pasid : BitVec 20) (base size : Nat)
  /-- An uncorrectable error poisons the 64-byte line in which it is detected (R226). -/
  | uncorrectableError (line : LineRef)
  /-- A host write over PCIe is performed at the home slice, with poison if the EP bit is set (R441). -/
  | hostWrite (e : Fin 4) (addr : Nat) (bytes : List Byte) (ep : Bool)
  /-- A host read returns the coherence-latest write at the home slice (R441). -/
  | hostRead (e : Fin 4) (addr len : Nat)
  /-- A memory reply that arrives after its die's image has moved is discarded (R342). -/
  | lateReply (die : DieId)
  /-- At the due time, or after postponement, dispatch closes, networks freeze and event bits are set across the estate (R335). -/
  | drain (e : Fin 4)
  /-- After 16,384 cycles of drain, aborts every task still running with cause 0x46 (R336). -/
  | drainWatchdog (e : Fin 4)
  /-- Once the drain ends, every die streams K chunks of its image to its successor through the headland buffers (R338). -/
  | headlandMove (e : Fin 4)
  /-- Installs the new map, holds for time, unfreezes networks, increments hlcount and opens dispatch (R340). -/
  | headlandResume (e : Fin 4)
  /-- At HM.TIME, switches a holding out to or in from its save area (R400). -/
  | gangSwitch (e : Fin 4)
  /-- Every 4,096 ns each region measures its offset to panel time and slews toff toward it (R303). -/
  | timeBeacon (die : DieId) (south : Bool) (miss : BitVec 5)
  /-- Every 2,000 ns the arbiter water-fills the power budget and sets each die's plough duty (R431). -/
  | arbiterEpoch (nonPlough draw : Nat) (demand : List Nat)
  /-- Once per second the monitors update the wear entries and raise warnings below the threshold (R434). -/
  | wearUpdate (j : Fin 80) (ageing retired : BitVec 8) (eol : BitVec 16)
  /-- The health service retires a core that fails in service (R436). -/
  | coreFailure (core : CoreRef)
  /-- HLTH.CMD retires a named core, after any headland pause, updating barriers, routes and tables (R436). -/
  | retireCore (port : BitVec 1) (v : Word)
  /-- The holding takes an entry from a chosen launch queue, checks it, loads it and places its seeds (R371). -/
  | launchTake (h : HoldRef)
  /-- When a launch's work count reaches zero, a system fence is made and an OK completion is written (R373). -/
  | launchComplete (h : HoldRef) (tag : Nat)
  /-- The retire walker pushes one page of a retirement onto the free list (R380). -/
  | walkerPush (h : HoldRef)
  /-- The retire walker writes a sequence completion and frees its place (R380). -/
  | walkerCompletion (h : HoldRef)
  /-- A control write that sets en resets HEAD and TAIL and, for the completion ring, the phase (R368). -/
  | ringEnable (fn : Fin 64) (ring : RingId) (v : Word)
  /-- A host write of the completion head frees room and retries waiting or faulted completion writes (R375). -/
  | svCqHeadWrite (fn : Fin 64) (v : Word)
  /-- A write of the page count rebuilds the free list, or is refused as BUSY (R369). -/
  | kvCountWrite (fn : Fin 64) (v : Word)
  /-- Sets the headland interval for the headland after the next, and the defer enables (R333). -/
  | hlCtlWrite (port : BitVec 1) (e : Fin 4) (v : Word)
  /-- Creates a holding on a run of fallow positions, or adds it to a share group as OUT (R399). -/
  | create (port : BitVec 1) (e : Fin 4) (v : Word)
  /-- Makes a stopped or out holding's dies fallow and frees its save area (R399). -/
  | destroy (port : BitVec 1) (e : Fin 4) (v : Word)
  /-- Drains a holding, makes its accesses visible, writes the dirty-page report and sets STOPPED (R405). `again`: the continuation of one that is pending,
  in which `reach` is the host's translation of HM.DPR. -/
  | stop (port : BitVec 1) (e : Fin 4) (v : Word) (work : StopWork)
  /-- Reopens dispatch and launch-queue taking for a stopped holding (R399). -/
  | start (port : BitVec 1) (e : Fin 4) (v : Word)
  /-- Schedules a gang switch out of a running holding at HM.TIME (R399). -/
  | switchOut (port : BitVec 1) (e : Fin 4) (v : Word)
  /-- Schedules a gang switch in of an out holding at HM.TIME (R399). -/
  | switchIn (port : BitVec 1) (e : Fin 4) (v : Word)
  /-- Sets the handler watchdog exponent for later tasks of a holding (R399). -/
  | setWd (port : BitVec 1) (e : Fin 4) (v : Word)
  /-- Resets one holding wherever it stands, restoring it as at creation (R406). `again`: the continuation of one that is pending. -/
  | resetHolding (port : BitVec 1) (e : Fin 4) (v : Word) (again : Bool)
  /-- Resets every holding of an estate, leaves it fallow and restarts its sequencer (R408). `again`: the continuation of one that is pending. -/
  | estateReset (port : BitVec 1) (e : Fin 4) (v : Word) (lost : List (Nat × Byte)) (again : Bool)
  /-- A PCIe function-level reset of a virtual function resets its holding (R406). `again`: the continuation of one that is pending. -/
  | functionLevelReset (fn : Fin 64) (again : Bool)
  /-- A PM.CTL mode write is refused, or drains the affected estates and changes the mode (R410). -/
  | partitionModeWrite (port : BitVec 1) (v : Word)
  /-- Writes a snapshot report of estates, holdings, dies and parked slots at HC.ADDR (R418). `again`: the continuation of one that is pending. -/
  | survey (fn : Fin 64) (port : BitVec 1) (reach again : Bool)
  /-- The host resumes a parked slot as if the supervisor executed resume (R417). -/
  | svResume (fn : Fin 64) (port : BitVec 1)
  /-- The host writes the dbg register of a named core (R417). -/
  | setDbg (fn : Fin 64) (port : BitVec 1)
  /-- A claim makes the writing port steward if none is (R414). `other`: what the other port writes in the same device cycle. -/
  | stewardClaim (port : BitVec 1) (w : ClaimWrites)
  /-- The steward writes claim = 0 with its key and gives up stewardship (R414). -/
  | stewardResign (port : BitVec 1) (v : Word)
  /-- The steward moves stewardship to the other port (R414). -/
  | stewardHandover (port : BitVec 1) (v : Word)
  /-- A write by the steward renews its lease (R414). -/
  | stwBeat (port : BitVec 1)
  /-- The steward lapses on lease expiry or link DL_Down, and HOST.EVT is signalled (R414). -/
  | stewardLapse (linkDown : Bool)
  /-- Reading the count of denied writes clears it (R413). -/
  | stwStatRead (port : BitVec 1)
  /-- A span link trains, comes up or goes down, and the link event is set (R419). -/
  | linkStateChange (k : Fin 16) (up : LinkReport)
  /-- A write to the tail's line makes the engine take descriptors up to the tail (R421). -/
  | collectiveTake (h : HoldRef)
  /-- A collective combines the peers' buffers and sends its completion message (R420). -/
  | collectiveComplete (h : HoldRef) (n : Nat) (bufs : List (BitVec 48 × List Byte))
  /-- A collective with no progress within COLL.TMO completes with TIMEOUT and poisons its unfinished lines (R422). -/
  | collectiveTimeout (h : HoldRef) (n : Nat) (part : PartDone)
  /-- A peer's abandon notice completes the local collective with ABANDONED (R422). -/
  | abandonNotice (h : HoldRef) (n : Nat) (part : PartDone)
  /-- Writes a transplant ticket for a stopped holding (R423). -/
  | exportTicket (port : BitVec 1) (v : Word)
  /-- Verifies a ticket with the source and creates the holding, pulling its state over span links (R423). -/
  | importTicket (port : BitVec 1) (v : Word) (path accepted : Bool)
  /-- When the pull completes, the source becomes ABSENT and the target STOPPED (R423). -/
  | importComplete (h : HoldRef) (pulled : Bool)
  /-- Requests sheaves of a holding's state at the next headland (R425). -/
  | harvest (port : BitVec 1) (w : TableCommand)
  /-- After the resume, dispatch stays closed while the table's ranges are copied into sheaves (R425). -/
  | harvestCut (cut : CutOrder)
  /-- Checks candidate sheaves and copies back only a complete set of one step (R426). -/
  | restore (port : BitVec 1) (w : TableCommand)
  /-- Writes a signed 256-byte attestation report (R428). -/
  | attest (port : BitVec 1) (v : Word) (reach : Bool)
  /-- Runs the bring-up stages from firmware check to opening the register space (R439). -/
  | powerOn (rep : BootReport)
  /-- A write to a register that has no row of its own stores its RW and W1C fields (R3). -/
  | registerWrite (fn : Fin 64) (port : BitVec 1) (r : HostReg) (v : Word)
  /-- Clearing the per-vector or function Mask bit of MSI-X sends the completion message held pending while it was masked (R374). -/
  | msiXUnmask (fn : Fin 64) (w : MaskClear)
  /-- The source device receives a ticket from an importing target over a span link, recomputes the check with its secret, tests validity, and accepts or refuses the import (R423). -/
  | transplantTicketCheck (ticket : List Word)
deriving DecidableEq, Repr

/-- The size of a page that a translation covers (10 R220). -/
inductive PageSize where
  | k4
  | k64
  | m2
  | g1
deriving DecidableEq, Repr

/-- One mapping of the host's IOMMU: `frame` is the first byte of the page in the estate's physical space, or, with `host`,
in the host's own memory (20 R411). -/
structure Mapping where
  pasid : BitVec 20
  size : PageSize
  /-- The page number: the virtual address divided by the page's size. -/
  page : Nat
  frame : Nat
  read : Bool
  write : Bool
  exec : Bool
  host : Bool := false
deriving DecidableEq, Repr

/-- Which agent moves next, as plain data (log 2). -/
inductive Turn where
  /-- The slot executes its next instruction. -/
  | slot (loc : SlotRef)
  /-- A step of the device other than an instruction word. -/
  | event (i : Instr)
  /-- Time passes: core cycles, nanoseconds of true time, and for each clock region (key 2 · die + half) and the panel time reference
  (key 64) the nanoseconds that it counts where they differ from true time (14 R302, R303). -/
  | elapse (cycles ns : Nat) (locals : FMap Nat)
  /-- The host replaces its page table. -/
  | iommu (table : List Mapping)
  /-- The host writes its own memory. -/
  | hostMem (addr : Nat) (bytes : List Byte)
  /-- A buffered store of a slot becomes visible beyond the slot (11 R245): number `n` of those that stand at the oldest place in
  program order (08 R176, R177). -/
  | perform (loc : SlotRef) (n : Nat)
  /-- The slot's task performs part `q` of the vector load that it executes next ahead of the other parts (08 R176, R177). -/
  | loadPart (loc : SlotRef) (q : Nat)
  /-- The slot's task fetches the word at an address ahead of its execution and keeps it, or forgets what it kept there
  (11 R442). -/
  | fetchAhead (loc : SlotRef) (pc : Word) (keep : Bool)
  /-- The host writes eight bytes at an offset of BAR0 of a function, through a port (20 R412); `ok` is what the outside answers to
  a command: the translation of its address, or a peer that is reached and accepts. -/
  | mmioWrite (port : BitVec 1) (fn : Fin 64) (offset : Nat) (v : Word) (ok : Bool)
  /-- The host reads eight bytes at an offset of BAR0 of a function, through a port (20 R412). -/
  | mmioRead (port : BitVec 1) (fn : Fin 64) (offset : Nat)
  /-- The host reads NumVFs in the configuration space that a port presents (20 R411). -/
  | numVfsRead (port : BitVec 1)
deriving DecidableEq, Repr

end Sys2Proof
end

