-- ==== Sys2Proof/WellFormed.lean ====
section
/-! DEFINITION. Well-formed instructions: the operand values that an instruction word may hold (03 R55 check 4, R62 to
R67). The events of the device take operands of types that hold no value out of range, so every event is well formed. -/

namespace Sys2Proof

/-- The numbers that name a system register (06 R134). -/
def sysRegNamed (s : BitVec 12) : Bool :=
  [0x000, 0x001, 0x002, 0x003, 0x004, 0x005, 0x006, 0x007, 0x010, 0x011, 0x012, 0x013, 0x014, 0x020, 0x021, 0x022, 0x023,
    0x024, 0x030, 0x040, 0x041, 0x042, 0x050, 0x060, 0x061, 0x062, 0x063].contains s.toNat

/-- The operands of an instruction lie within the limits that the opcode maps give them. -/
def Instr.wf : Instr → Bool
  | .add _ _ _ _ => true
  | .sub _ _ _ _ => true
  | .and _ _ _ _ => true
  | .or _ _ _ _ => true
  | .xor _ _ _ _ => true
  | .andn _ _ _ _ => true
  | .sll _ _ _ _ => true
  | .srl _ _ _ _ => true
  | .sra _ _ _ _ => true
  | .rotl _ _ _ _ => true
  | .slt _ _ _ _ => true
  | .sltn _ _ _ _ => true
  | .min _ _ _ _ => true
  | .max _ _ _ _ => true
  | .minn _ _ _ _ => true
  | .maxn _ _ _ _ => true
  | .mul _ _ _ _ => true
  | .mulh _ _ _ _ => true
  | .mulhn _ _ _ _ => true
  | .div _ _ _ _ => true
  | .divn _ _ _ _ => true
  | .rem _ _ _ _ => true
  | .remn _ _ _ _ => true
  | .clz _ _ _ => true
  | .ctz _ _ _ => true
  | .popc _ _ _ => true
  | .bext _ _ _ _ => true
  | .bins _ _ _ _ => true
  | .sext _ _ _ _ => true
  | .zext _ _ _ _ => true
  | .csel _ _ _ _ => true
  | .addW _ _ _ _ => true
  | .subW _ _ _ _ => true
  | .sllW _ _ _ _ => true
  | .srlW _ _ _ _ => true
  | .sraW _ _ _ _ => true
  | .mulW _ _ _ _ => true
  | .divW _ _ _ _ => true
  | .divnW _ _ _ _ => true
  | .remW _ _ _ _ => true
  | .remnW _ _ _ _ => true
  | .srd _ s => sysRegNamed (s)
  | .swr _ s => sysRegNamed (s)
  | .sxch _ _ s => sysRegNamed (s)
  | .ldbit _ _ _ _ => true
  | .stbit _ _ _ _ => true
  | .cbInit _ _ _ _ => true
  | .cbNeed _ _ _ => true
  | .cbRoom _ _ _ => true
  | .cbAdvH _ _ _ => true
  | .cbAdvT _ _ _ => true
  | .cbStat _ _ _ => true
  | .addi _ _ _ => true
  | .andi _ _ _ => true
  | .ori _ _ _ => true
  | .xori _ _ _ => true
  | .slli _ _ _ => true
  | .srli _ _ _ => true
  | .srai _ _ _ => true
  | .slliW _ _ n => decide (n < 32)
  | .srliW _ _ n => decide (n < 32)
  | .sraiW _ _ n => decide (n < 32)
  | .slti _ _ _ => true
  | .sltni _ _ _ => true
  | .lhi _ _ => true
  | .addpc _ _ => true
  | .addiW _ _ _ => true
  | .trap _ => true
  | .ldS8 _ _ _ => true
  | .ldN8 _ _ _ => true
  | .ldS16 _ _ _ => true
  | .ldN16 _ _ _ => true
  | .ldS32 _ _ _ => true
  | .ldN32 _ _ _ => true
  | .ld64 _ _ _ => true
  | .ldV _ _ _ => true
  | .st8 _ _ _ => true
  | .st16 _ _ _ => true
  | .st32 _ _ _ => true
  | .st64 _ _ _ => true
  | .stV _ _ _ => true
  | .beq _ _ _ => true
  | .bne _ _ _ => true
  | .blt _ _ _ => true
  | .bge _ _ _ => true
  | .bltn _ _ _ => true
  | .bgen _ _ _ => true
  | .j _ => true
  | .jal _ => true
  | .reyoke _ => true
  | .jr _ _ => true
  | .jalr _ _ _ => true
  | .amAdd _ _ _ _ _ => true
  | .amAnd _ _ _ _ _ => true
  | .amOr _ _ _ _ _ => true
  | .amXor _ _ _ _ _ => true
  | .amMin _ _ _ _ _ => true
  | .amMax _ _ _ _ _ => true
  | .amMinn _ _ _ _ _ => true
  | .amMaxn _ _ _ _ _ => true
  | .amSwap _ _ _ _ _ => true
  | .amCas _ _ _ _ _ => true
  | .amAddPs _ _ _ _ => true
  | .amAndPs _ _ _ _ => true
  | .amOrPs _ _ _ _ => true
  | .amXorPs _ _ _ _ => true
  | .amMinPs _ _ _ _ => true
  | .amMaxPs _ _ _ _ => true
  | .amMinnPs _ _ _ _ => true
  | .amMaxnPs _ _ _ _ => true
  | .fence _ s => decide (s ≤ 4)
  | .ldAcq _ _ _ s => decide (s ≤ 4)
  | .stRel _ _ _ s => decide (s ≤ 4)
  | .fenceEngDr _ => true
  | .fenceEngPl _ => true
  | .fenceEng _ => true
  | .sow _ _ => true
  | .sowAt _ _ _ => true
  | .sowCap _ _ _ => true
  | .endTask _ _ => true
  | .yield _ => true
  | .wfe _ => true
  | .sev _ _ => true
  | .trigArm _ _ _ => true
  | .trigDec _ _ _ => true
  | .trigRd _ _ _ => true
  | .hmask _ _ => true
  | .yoke _ _ => true
  | .unyoke _ => true
  | .msgH _ _ => true
  | .msgD _ _ k => decide (k < 8)
  | .msgGo _ => true
  | .msgTo _ _ _ => true
  | .mqRd _ _ k => decide (k < 8)
  | .mqPop _ => true
  | .mqPeek _ _ => true
  | .mbPost _ _ _ => true
  | .mbTake _ _ _ => true
  | .gbpAcc _ _ _ => true
  | .gbpSub _ _ _ => true
  | .gbpElim _ _ _ => true
  | .gbpDamp _ _ _ _ => true
  | .gbpRes _ _ _ _ => true
  | .rdtime _ _ => true
  | .rdtimeLoc _ _ => true
  | .rdband _ _ _ => true
  | .rdpos _ _ => true
  | .barArrive _ _ => true
  | .barWait _ _ => true
  | .barMask _ _ _ => true
  | .barStat _ _ _ => true
  | .hlStat _ _ => true
  | .hlDefer _ => true
  | .resume _ _ => true
  | .park _ => true
  | .faultPost _ _ _ => true
  | .sqTake _ _ _ => true
  | .sqAdmit _ _ _ => true
  | .sqRetire _ _ => true
  | .kvGet _ _ _ => true
  | .kvPut _ _ _ => true
  | .stopTest _ _ _ _ => true
  | .plGeo _ s => decide (s ≠ 3)
  | .plMma _ _ _ => true
  | .plMmt _ _ _ => true
  | .plZacc _ _ => true
  | .plLdacc _ => true
  | .plStacc _ o => decide (o ≠ 3)
  | .plWait _ => true
  | .plTile _ _ _ => true
  | .plFlush => true
  | .plMmaBlk _ _ _ => true
  | .plMmtBlk _ _ _ => true
  | .plTileBlk _ _ _ => true
  | .drCopyGp _ _ => true
  | .drCopyPg _ _ => true
  | .drCopyPp _ _ => true
  | .drCopyGg _ _ => true
  | .drGathG _ _ => true
  | .drGathP _ _ => true
  | .drScatG _ _ => true
  | .drScatP _ _ => true
  | .drFillG _ _ => true
  | .drFillP _ _ => true
  | .drWait _ => true
  | .vaddF32 _ _ _ => true
  | .vaddS32 _ _ _ => true
  | .vsubF32 _ _ _ => true
  | .vsubS32 _ _ _ => true
  | .vmulF32 _ _ _ => true
  | .vmulS32 _ _ _ => true
  | .vfmaF32 _ _ _ _ => true
  | .vfnmF32 _ _ _ _ => true
  | .vminF32 _ _ _ => true
  | .vminS32 _ _ _ => true
  | .vminN32 _ _ _ => true
  | .vmaxF32 _ _ _ => true
  | .vmaxS32 _ _ _ => true
  | .vmaxN32 _ _ _ => true
  | .vabsF32 _ _ => true
  | .vabsS32 _ _ => true
  | .vnegF32 _ _ => true
  | .vnegS32 _ _ => true
  | .vrcpF32 _ _ => true
  | .vrsqF32 _ _ => true
  | .vand _ _ _ => true
  | .vor _ _ _ => true
  | .vxor _ _ _ => true
  | .vsll _ _ _ => true
  | .vsrl _ _ _ => true
  | .vsra _ _ _ => true
  | .vsel _ _ _ _ => true
  | .vdotF32 _ _ _ => true
  | .vsclF32 _ _ _ => true
  | .vcmpEqF32 _ _ _ => true
  | .vcmpNeF32 _ _ _ => true
  | .vcmpLtF32 _ _ _ => true
  | .vcmpLeF32 _ _ _ => true
  | .vcmpEqS32 _ _ _ => true
  | .vcmpNeS32 _ _ _ => true
  | .vcmpLtS32 _ _ _ => true
  | .vcmpLeS32 _ _ _ => true
  | .vcmpLtN32 _ _ _ => true
  | .vcmpLeN32 _ _ _ => true
  | .vraddF32 _ _ => true
  | .vraddS32 _ _ => true
  | .vrmaxF32 _ _ => true
  | .vrmaxS32 _ _ => true
  | .vrminF32 _ _ => true
  | .vrminS32 _ _ => true
  | .vrmaxiF32 _ _ => true
  | .vcvtF32S32 _ _ => true
  | .vcvtS32F32 _ _ => true
  | .vcvtBf16F32 _ _ => true
  | .vcvtF16F32 _ _ => true
  | .vcvtF32Bf16 _ _ => true
  | .vcvtF32F16 _ _ => true
  | .vcvtE4m3F32 _ _ => true
  | .vcvtE5m2F32 _ _ => true
  | .vcvtF32E4m3 _ _ => true
  | .vcvtF32E5m2 _ _ => true
  | .vpackS16 _ _ _ => true
  | .vpackN16 _ _ _ => true
  | .vpackS8 _ _ _ => true
  | .vpackN8 _ _ _ => true
  | .vunpkS16 _ _ k => decide (k < 2)
  | .vunpkN16 _ _ k => decide (k < 2)
  | .vunpkS8 _ _ k => decide (k < 4)
  | .vunpkN8 _ _ k => decide (k < 4)
  | .vbcast _ _ => true
  | .vext _ _ k => decide (k < 8)
  | .vins _ _ k => decide (k < 8)
  | .vperm _ _ _ => true
  | .vrot _ _ k => decide (k < 8)
  | .vshfl _ _ _ => true
  | .ldgV _ _ _ => true
  | .stgV _ _ _ => true
  | .brk => true
  | .illegalInstruction _ => true
  | .migrate _ => true
  | .dispatch _ => true
  | .partitionChange _ => true
  | .concurrentDispatch _ _ => true
  | .gleanCluster _ => true
  | .gleanHolding _ => true
  | .restoreSeedMove _ => true
  | .handlerWatchdog _ => true
  | .deliver _ _ => true
  | .faultRecordOffer _ => true
  | .ploughGrant _ _ => true
  | .tileCommit _ _ => true
  | .drillRow _ => true
  | .atsCompletion _ _ _ => true
  | .pageRequestResponse _ _ _ _ => true
  | .atsInvalidation _ _ _ => true
  | .uncorrectableError _ => true
  | .hostWrite _ _ _ _ => true
  | .hostRead _ _ _ => true
  | .lateReply _ => true
  | .drain _ => true
  | .drainWatchdog _ => true
  | .headlandMove _ => true
  | .headlandResume _ => true
  | .gangSwitch _ => true
  | .timeBeacon _ _ _ => true
  | .arbiterEpoch _ _ _ => true
  | .wearUpdate _ _ _ _ => true
  | .coreFailure _ => true
  | .retireCore _ _ => true
  | .launchTake _ => true
  | .launchComplete _ _ => true
  | .walkerPush _ => true
  | .walkerCompletion _ => true
  | .ringEnable _ _ _ => true
  | .svCqHeadWrite _ _ => true
  | .kvCountWrite _ _ => true
  | .hlCtlWrite _ _ _ => true
  | .create _ _ _ => true
  | .destroy _ _ _ => true
  | .stop _ _ _ _ => true
  | .start _ _ _ => true
  | .switchOut _ _ _ => true
  | .switchIn _ _ _ => true
  | .setWd _ _ _ => true
  | .resetHolding _ _ _ _ => true
  | .estateReset _ _ _ _ _ => true
  | .functionLevelReset _ _ => true
  | .partitionModeWrite _ _ => true
  | .survey _ _ _ _ => true
  | .svResume _ _ => true
  | .setDbg _ _ => true
  | .stewardClaim _ _ => true
  | .stewardResign _ _ => true
  | .stewardHandover _ _ => true
  | .stwBeat _ => true
  | .stewardLapse _ => true
  | .stwStatRead _ => true
  | .linkStateChange _ _ => true
  | .collectiveTake _ => true
  | .collectiveComplete _ _ _ => true
  | .collectiveTimeout _ _ _ => true
  | .abandonNotice _ _ _ => true
  | .exportTicket _ _ => true
  | .importTicket _ _ _ _ => true
  | .importComplete _ _ => true
  | .harvest _ _ => true
  | .harvestCut _ => true
  | .restore _ _ => true
  | .attest _ _ _ => true
  | .powerOn _ => true
  | .registerWrite _ _ _ _ => true
  | .msiXUnmask _ _ => true
  | .transplantTicketCheck _ => true

/-- An event: a step of the device that is no instruction word. -/
def Instr.isEvent : Instr → Bool
  | .add _ _ _ _ => false
  | .sub _ _ _ _ => false
  | .and _ _ _ _ => false
  | .or _ _ _ _ => false
  | .xor _ _ _ _ => false
  | .andn _ _ _ _ => false
  | .sll _ _ _ _ => false
  | .srl _ _ _ _ => false
  | .sra _ _ _ _ => false
  | .rotl _ _ _ _ => false
  | .slt _ _ _ _ => false
  | .sltn _ _ _ _ => false
  | .min _ _ _ _ => false
  | .max _ _ _ _ => false
  | .minn _ _ _ _ => false
  | .maxn _ _ _ _ => false
  | .mul _ _ _ _ => false
  | .mulh _ _ _ _ => false
  | .mulhn _ _ _ _ => false
  | .div _ _ _ _ => false
  | .divn _ _ _ _ => false
  | .rem _ _ _ _ => false
  | .remn _ _ _ _ => false
  | .clz _ _ _ => false
  | .ctz _ _ _ => false
  | .popc _ _ _ => false
  | .bext _ _ _ _ => false
  | .bins _ _ _ _ => false
  | .sext _ _ _ _ => false
  | .zext _ _ _ _ => false
  | .csel _ _ _ _ => false
  | .addW _ _ _ _ => false
  | .subW _ _ _ _ => false
  | .sllW _ _ _ _ => false
  | .srlW _ _ _ _ => false
  | .sraW _ _ _ _ => false
  | .mulW _ _ _ _ => false
  | .divW _ _ _ _ => false
  | .divnW _ _ _ _ => false
  | .remW _ _ _ _ => false
  | .remnW _ _ _ _ => false
  | .srd _ _ => false
  | .swr _ _ => false
  | .sxch _ _ _ => false
  | .ldbit _ _ _ _ => false
  | .stbit _ _ _ _ => false
  | .cbInit _ _ _ _ => false
  | .cbNeed _ _ _ => false
  | .cbRoom _ _ _ => false
  | .cbAdvH _ _ _ => false
  | .cbAdvT _ _ _ => false
  | .cbStat _ _ _ => false
  | .addi _ _ _ => false
  | .andi _ _ _ => false
  | .ori _ _ _ => false
  | .xori _ _ _ => false
  | .slli _ _ _ => false
  | .srli _ _ _ => false
  | .srai _ _ _ => false
  | .slliW _ _ _ => false
  | .srliW _ _ _ => false
  | .sraiW _ _ _ => false
  | .slti _ _ _ => false
  | .sltni _ _ _ => false
  | .lhi _ _ => false
  | .addpc _ _ => false
  | .addiW _ _ _ => false
  | .trap _ => false
  | .ldS8 _ _ _ => false
  | .ldN8 _ _ _ => false
  | .ldS16 _ _ _ => false
  | .ldN16 _ _ _ => false
  | .ldS32 _ _ _ => false
  | .ldN32 _ _ _ => false
  | .ld64 _ _ _ => false
  | .ldV _ _ _ => false
  | .st8 _ _ _ => false
  | .st16 _ _ _ => false
  | .st32 _ _ _ => false
  | .st64 _ _ _ => false
  | .stV _ _ _ => false
  | .beq _ _ _ => false
  | .bne _ _ _ => false
  | .blt _ _ _ => false
  | .bge _ _ _ => false
  | .bltn _ _ _ => false
  | .bgen _ _ _ => false
  | .j _ => false
  | .jal _ => false
  | .reyoke _ => false
  | .jr _ _ => false
  | .jalr _ _ _ => false
  | .amAdd _ _ _ _ _ => false
  | .amAnd _ _ _ _ _ => false
  | .amOr _ _ _ _ _ => false
  | .amXor _ _ _ _ _ => false
  | .amMin _ _ _ _ _ => false
  | .amMax _ _ _ _ _ => false
  | .amMinn _ _ _ _ _ => false
  | .amMaxn _ _ _ _ _ => false
  | .amSwap _ _ _ _ _ => false
  | .amCas _ _ _ _ _ => false
  | .amAddPs _ _ _ _ => false
  | .amAndPs _ _ _ _ => false
  | .amOrPs _ _ _ _ => false
  | .amXorPs _ _ _ _ => false
  | .amMinPs _ _ _ _ => false
  | .amMaxPs _ _ _ _ => false
  | .amMinnPs _ _ _ _ => false
  | .amMaxnPs _ _ _ _ => false
  | .fence _ _ => false
  | .ldAcq _ _ _ _ => false
  | .stRel _ _ _ _ => false
  | .fenceEngDr _ => false
  | .fenceEngPl _ => false
  | .fenceEng _ => false
  | .sow _ _ => false
  | .sowAt _ _ _ => false
  | .sowCap _ _ _ => false
  | .endTask _ _ => false
  | .yield _ => false
  | .wfe _ => false
  | .sev _ _ => false
  | .trigArm _ _ _ => false
  | .trigDec _ _ _ => false
  | .trigRd _ _ _ => false
  | .hmask _ _ => false
  | .yoke _ _ => false
  | .unyoke _ => false
  | .msgH _ _ => false
  | .msgD _ _ _ => false
  | .msgGo _ => false
  | .msgTo _ _ _ => false
  | .mqRd _ _ _ => false
  | .mqPop _ => false
  | .mqPeek _ _ => false
  | .mbPost _ _ _ => false
  | .mbTake _ _ _ => false
  | .gbpAcc _ _ _ => false
  | .gbpSub _ _ _ => false
  | .gbpElim _ _ _ => false
  | .gbpDamp _ _ _ _ => false
  | .gbpRes _ _ _ _ => false
  | .rdtime _ _ => false
  | .rdtimeLoc _ _ => false
  | .rdband _ _ _ => false
  | .rdpos _ _ => false
  | .barArrive _ _ => false
  | .barWait _ _ => false
  | .barMask _ _ _ => false
  | .barStat _ _ _ => false
  | .hlStat _ _ => false
  | .hlDefer _ => false
  | .resume _ _ => false
  | .park _ => false
  | .faultPost _ _ _ => false
  | .sqTake _ _ _ => false
  | .sqAdmit _ _ _ => false
  | .sqRetire _ _ => false
  | .kvGet _ _ _ => false
  | .kvPut _ _ _ => false
  | .stopTest _ _ _ _ => false
  | .plGeo _ _ => false
  | .plMma _ _ _ => false
  | .plMmt _ _ _ => false
  | .plZacc _ _ => false
  | .plLdacc _ => false
  | .plStacc _ _ => false
  | .plWait _ => false
  | .plTile _ _ _ => false
  | .plFlush => false
  | .plMmaBlk _ _ _ => false
  | .plMmtBlk _ _ _ => false
  | .plTileBlk _ _ _ => false
  | .drCopyGp _ _ => false
  | .drCopyPg _ _ => false
  | .drCopyPp _ _ => false
  | .drCopyGg _ _ => false
  | .drGathG _ _ => false
  | .drGathP _ _ => false
  | .drScatG _ _ => false
  | .drScatP _ _ => false
  | .drFillG _ _ => false
  | .drFillP _ _ => false
  | .drWait _ => false
  | .vaddF32 _ _ _ => false
  | .vaddS32 _ _ _ => false
  | .vsubF32 _ _ _ => false
  | .vsubS32 _ _ _ => false
  | .vmulF32 _ _ _ => false
  | .vmulS32 _ _ _ => false
  | .vfmaF32 _ _ _ _ => false
  | .vfnmF32 _ _ _ _ => false
  | .vminF32 _ _ _ => false
  | .vminS32 _ _ _ => false
  | .vminN32 _ _ _ => false
  | .vmaxF32 _ _ _ => false
  | .vmaxS32 _ _ _ => false
  | .vmaxN32 _ _ _ => false
  | .vabsF32 _ _ => false
  | .vabsS32 _ _ => false
  | .vnegF32 _ _ => false
  | .vnegS32 _ _ => false
  | .vrcpF32 _ _ => false
  | .vrsqF32 _ _ => false
  | .vand _ _ _ => false
  | .vor _ _ _ => false
  | .vxor _ _ _ => false
  | .vsll _ _ _ => false
  | .vsrl _ _ _ => false
  | .vsra _ _ _ => false
  | .vsel _ _ _ _ => false
  | .vdotF32 _ _ _ => false
  | .vsclF32 _ _ _ => false
  | .vcmpEqF32 _ _ _ => false
  | .vcmpNeF32 _ _ _ => false
  | .vcmpLtF32 _ _ _ => false
  | .vcmpLeF32 _ _ _ => false
  | .vcmpEqS32 _ _ _ => false
  | .vcmpNeS32 _ _ _ => false
  | .vcmpLtS32 _ _ _ => false
  | .vcmpLeS32 _ _ _ => false
  | .vcmpLtN32 _ _ _ => false
  | .vcmpLeN32 _ _ _ => false
  | .vraddF32 _ _ => false
  | .vraddS32 _ _ => false
  | .vrmaxF32 _ _ => false
  | .vrmaxS32 _ _ => false
  | .vrminF32 _ _ => false
  | .vrminS32 _ _ => false
  | .vrmaxiF32 _ _ => false
  | .vcvtF32S32 _ _ => false
  | .vcvtS32F32 _ _ => false
  | .vcvtBf16F32 _ _ => false
  | .vcvtF16F32 _ _ => false
  | .vcvtF32Bf16 _ _ => false
  | .vcvtF32F16 _ _ => false
  | .vcvtE4m3F32 _ _ => false
  | .vcvtE5m2F32 _ _ => false
  | .vcvtF32E4m3 _ _ => false
  | .vcvtF32E5m2 _ _ => false
  | .vpackS16 _ _ _ => false
  | .vpackN16 _ _ _ => false
  | .vpackS8 _ _ _ => false
  | .vpackN8 _ _ _ => false
  | .vunpkS16 _ _ _ => false
  | .vunpkN16 _ _ _ => false
  | .vunpkS8 _ _ _ => false
  | .vunpkN8 _ _ _ => false
  | .vbcast _ _ => false
  | .vext _ _ _ => false
  | .vins _ _ _ => false
  | .vperm _ _ _ => false
  | .vrot _ _ _ => false
  | .vshfl _ _ _ => false
  | .ldgV _ _ _ => false
  | .stgV _ _ _ => false
  | .brk => false
  | .illegalInstruction _ => true
  | .migrate _ => true
  | .dispatch _ => true
  | .partitionChange _ => true
  | .concurrentDispatch _ _ => true
  | .gleanCluster _ => true
  | .gleanHolding _ => true
  | .restoreSeedMove _ => true
  | .handlerWatchdog _ => true
  | .deliver _ _ => true
  | .faultRecordOffer _ => true
  | .ploughGrant _ _ => true
  | .tileCommit _ _ => true
  | .drillRow _ => true
  | .atsCompletion _ _ _ => true
  | .pageRequestResponse _ _ _ _ => true
  | .atsInvalidation _ _ _ => true
  | .uncorrectableError _ => true
  | .hostWrite _ _ _ _ => true
  | .hostRead _ _ _ => true
  | .lateReply _ => true
  | .drain _ => true
  | .drainWatchdog _ => true
  | .headlandMove _ => true
  | .headlandResume _ => true
  | .gangSwitch _ => true
  | .timeBeacon _ _ _ => true
  | .arbiterEpoch _ _ _ => true
  | .wearUpdate _ _ _ _ => true
  | .coreFailure _ => true
  | .retireCore _ _ => true
  | .launchTake _ => true
  | .launchComplete _ _ => true
  | .walkerPush _ => true
  | .walkerCompletion _ => true
  | .ringEnable _ _ _ => true
  | .svCqHeadWrite _ _ => true
  | .kvCountWrite _ _ => true
  | .hlCtlWrite _ _ _ => true
  | .create _ _ _ => true
  | .destroy _ _ _ => true
  | .stop _ _ _ _ => true
  | .start _ _ _ => true
  | .switchOut _ _ _ => true
  | .switchIn _ _ _ => true
  | .setWd _ _ _ => true
  | .resetHolding _ _ _ _ => true
  | .estateReset _ _ _ _ _ => true
  | .functionLevelReset _ _ => true
  | .partitionModeWrite _ _ => true
  | .survey _ _ _ _ => true
  | .svResume _ _ => true
  | .setDbg _ _ => true
  | .stewardClaim _ _ => true
  | .stewardResign _ _ => true
  | .stewardHandover _ _ => true
  | .stwBeat _ => true
  | .stewardLapse _ => true
  | .stwStatRead _ => true
  | .linkStateChange _ _ => true
  | .collectiveTake _ => true
  | .collectiveComplete _ _ _ => true
  | .collectiveTimeout _ _ _ => true
  | .abandonNotice _ _ _ => true
  | .exportTicket _ _ => true
  | .importTicket _ _ _ _ => true
  | .importComplete _ _ => true
  | .harvest _ _ => true
  | .harvestCut _ => true
  | .restore _ _ => true
  | .attest _ _ _ => true
  | .powerOn _ => true
  | .registerWrite _ _ _ _ => true
  | .msiXUnmask _ _ => true
  | .transplantTicketCheck _ => true

end Sys2Proof
end

