-- ==== Sys2Proof/Decode.lean ====
section
/-! DEFINITION. The decoder, total on every word and refusing by name (03 R49 to R67), and after it the encoder, written
from the same formats. -/

namespace Sys2Proof

/-- The decode causes in the order of the checks of 03 R55: 0x01, 0x02 and 0x03. -/
inductive DecodeCause where
  | illegal
  | reserved
  | range
deriving DecidableEq, Repr

/-- The cause code of a decode cause (03 R55, 12 R263). -/
def DecodeCause.code : DecodeCause → BitVec 8
  | .illegal => 0x01
  | .reserved => 0x02
  | .range => 0x03

/-- The breakpoint word (06 R146). -/
def brkWord : W32 := 0xFFFFFFFF

/-! The fields of the formats (03 R51). -/

def fMajor (w : W32) : BitVec 6 := w.extractLsb' 26 6
def fD (w : W32) : Reg := w.extractLsb' 21 5
def fA (w : W32) : Reg := w.extractLsb' 16 5
def fB (w : W32) : Reg := w.extractLsb' 11 5
def fH (w : W32) : BitVec 1 := w.extractLsb' 10 1
def fK (w : W32) : BitVec 4 := w.extractLsb' 6 4
def fOp (w : W32) : BitVec 6 := w.extractLsb' 0 6
def fImm (w : W32) : BitVec 16 := w.extractLsb' 0 16
def fOff (w : W32) : BitVec 26 := w.extractLsb' 0 26
def fSys (w : W32) : BitVec 12 := w.extractLsb' 4 12
def fFn4 (w : W32) : BitVec 4 := w.extractLsb' 0 4
def fC (w : W32) : BitVec 5 := w.extractLsb' 6 5
/-- The shift selector imm16[15:12] and the zero field imm16[11:6] of the shift group (03 R61). -/
def fShift (w : W32) : BitVec 4 := w.extractLsb' 12 4
def fMid (w : W32) : BitVec 6 := w.extractLsb' 6 6
def fAmt (w : W32) : BitVec 6 := w.extractLsb' 0 6
/-- The parts of op in the atomics (03 R64) and in the ordering instructions (R65). -/
def fPosted (w : W32) : BitVec 1 := w.extractLsb' 5 1
def fZ (w : W32) : BitVec 1 := w.extractLsb' 4 1
def fAmOp (w : W32) : BitVec 4 := w.extractLsb' 0 4
def fOrd (w : W32) : BitVec 3 := w.extractLsb' 3 3
def fScope (w : W32) : BitVec 3 := w.extractLsb' 0 3
/-- The EC format (03 R51) and the flag bits that 09 R213 to R217 define. -/
def fCmd (w : W32) : BitVec 7 := w.extractLsb' 19 7
def fEa (w : W32) : Reg := w.extractLsb' 14 5
def fEb (w : W32) : Reg := w.extractLsb' 9 5
def fFlags (w : W32) : BitVec 9 := w.extractLsb' 0 9
def fSel (w : W32) : BitVec 2 := w.extractLsb' 0 2
def fFl0 (w : W32) : BitVec 1 := w.extractLsb' 0 1
def fFlZ (w : W32) : BitVec 1 := w.extractLsb' 1 1
def fFlOut (w : W32) : BitVec 2 := w.extractLsb' 1 2
def fFlHi2 (w : W32) : BitVec 7 := w.extractLsb' 2 7
def fFlHi3 (w : W32) : BitVec 6 := w.extractLsb' 3 6

/-- Check 3 of 03 R55: the fields a template does not name are zero (R53). -/
def unreserved (p : Prop) [Decidable p] (i : Instr) : Except DecodeCause Instr :=
  if p then .ok i else .error .reserved

/-- Check 4 of 03 R55. -/
def inRange (p : Prop) [Decidable p] (i : Instr) : Except DecodeCause Instr :=
  if p then .ok i else .error .range

/-- Checks 3 and 4 of 03 R55, in that order. -/
def checked (p q : Prop) [Decidable p] [Decidable q] (i : Instr) : Except DecodeCause Instr :=
  if p then inRange q i else .error .reserved

/-- The cause of checks 3 and 4 of 03 R55, if one fails. -/
def refuse (p q : Prop) [Decidable p] [Decidable q] : Option DecodeCause :=
  if p then (if q then none else some .range) else some .reserved

/-- Major 0x01 (03 R60). -/
def decode01 (w : W32) : Except DecodeCause Instr :=
  match (fOp w).toNat with
  | 0x00 => unreserved (fK w = 0) (.add (fD w) (fA w) (fB w) (fH w))
  | 0x01 => unreserved (fK w = 0) (.sub (fD w) (fA w) (fB w) (fH w))
  | 0x02 => unreserved (fK w = 0) (.and (fD w) (fA w) (fB w) (fH w))
  | 0x03 => unreserved (fK w = 0) (.or (fD w) (fA w) (fB w) (fH w))
  | 0x04 => unreserved (fK w = 0) (.xor (fD w) (fA w) (fB w) (fH w))
  | 0x05 => unreserved (fK w = 0) (.andn (fD w) (fA w) (fB w) (fH w))
  | 0x06 => unreserved (fK w = 0) (.sll (fD w) (fA w) (fB w) (fH w))
  | 0x07 => unreserved (fK w = 0) (.srl (fD w) (fA w) (fB w) (fH w))
  | 0x08 => unreserved (fK w = 0) (.sra (fD w) (fA w) (fB w) (fH w))
  | 0x09 => unreserved (fK w = 0) (.rotl (fD w) (fA w) (fB w) (fH w))
  | 0x0a => unreserved (fK w = 0) (.slt (fD w) (fA w) (fB w) (fH w))
  | 0x0b => unreserved (fK w = 0) (.sltn (fD w) (fA w) (fB w) (fH w))
  | 0x0c => unreserved (fK w = 0) (.min (fD w) (fA w) (fB w) (fH w))
  | 0x0d => unreserved (fK w = 0) (.max (fD w) (fA w) (fB w) (fH w))
  | 0x0e => unreserved (fK w = 0) (.minn (fD w) (fA w) (fB w) (fH w))
  | 0x0f => unreserved (fK w = 0) (.maxn (fD w) (fA w) (fB w) (fH w))
  | 0x10 => unreserved (fK w = 0) (.mul (fD w) (fA w) (fB w) (fH w))
  | 0x11 => unreserved (fK w = 0) (.mulh (fD w) (fA w) (fB w) (fH w))
  | 0x12 => unreserved (fK w = 0) (.mulhn (fD w) (fA w) (fB w) (fH w))
  | 0x13 => unreserved (fK w = 0) (.div (fD w) (fA w) (fB w) (fH w))
  | 0x14 => unreserved (fK w = 0) (.divn (fD w) (fA w) (fB w) (fH w))
  | 0x15 => unreserved (fK w = 0) (.rem (fD w) (fA w) (fB w) (fH w))
  | 0x16 => unreserved (fK w = 0) (.remn (fD w) (fA w) (fB w) (fH w))
  | 0x17 => unreserved (fB w = 0 ∧ fK w = 0) (.clz (fD w) (fA w) (fH w))
  | 0x18 => unreserved (fB w = 0 ∧ fK w = 0) (.ctz (fD w) (fA w) (fH w))
  | 0x19 => unreserved (fB w = 0 ∧ fK w = 0) (.popc (fD w) (fA w) (fH w))
  | 0x1a => unreserved (fK w = 0) (.bext (fD w) (fA w) (fB w) (fH w))
  | 0x1b => unreserved (fK w = 0) (.bins (fD w) (fA w) (fB w) (fH w))
  | 0x1c => unreserved (fK w = 0) (.sext (fD w) (fA w) (fB w) (fH w))
  | 0x1d => unreserved (fK w = 0) (.zext (fD w) (fA w) (fB w) (fH w))
  | 0x1e => unreserved (fK w = 0) (.csel (fD w) (fA w) (fB w) (fH w))
  | 0x20 => unreserved (fK w = 0) (.addW (fD w) (fA w) (fB w) (fH w))
  | 0x21 => unreserved (fK w = 0) (.subW (fD w) (fA w) (fB w) (fH w))
  | 0x26 => unreserved (fK w = 0) (.sllW (fD w) (fA w) (fB w) (fH w))
  | 0x27 => unreserved (fK w = 0) (.srlW (fD w) (fA w) (fB w) (fH w))
  | 0x28 => unreserved (fK w = 0) (.sraW (fD w) (fA w) (fB w) (fH w))
  | 0x30 => unreserved (fK w = 0) (.mulW (fD w) (fA w) (fB w) (fH w))
  | 0x33 => unreserved (fK w = 0) (.divW (fD w) (fA w) (fB w) (fH w))
  | 0x34 => unreserved (fK w = 0) (.divnW (fD w) (fA w) (fB w) (fH w))
  | 0x35 => unreserved (fK w = 0) (.remW (fD w) (fA w) (fB w) (fH w))
  | 0x36 => unreserved (fK w = 0) (.remnW (fD w) (fA w) (fB w) (fH w))
  | _ => .error .illegal

/-- Major 0x02 (03 R62). -/
def decode02 (w : W32) : Except DecodeCause Instr :=
  match (fFn4 w).toNat with
  | 0x00 => checked (fA w = 0) (sysRegNamed (fSys w)) (.srd (fD w) (fSys w))
  | 0x01 => checked (fD w = 0) (sysRegNamed (fSys w)) (.swr (fA w) (fSys w))
  | 0x02 => inRange (sysRegNamed (fSys w)) (.sxch (fD w) (fA w) (fSys w))
  | _ => .error .illegal

/-- Major 0x03 (03 R63). -/
def decode03 (w : W32) : Except DecodeCause Instr :=
  match (fOp w).toNat with
  | 0x00 => unreserved (fK w = 0) (.ldbit (fD w) (fA w) (fB w) (fH w))
  | 0x01 => unreserved (fK w = 0) (.stbit (fD w) (fA w) (fB w) (fH w))
  | 0x02 => unreserved (fD w = 0) (.cbInit (fA w) (fB w) (fH w) (fK w))
  | 0x03 => unreserved (fD w = 0 ∧ fB w = 0) (.cbNeed (fA w) (fH w) (fK w))
  | 0x04 => unreserved (fD w = 0 ∧ fB w = 0) (.cbRoom (fA w) (fH w) (fK w))
  | 0x05 => unreserved (fD w = 0 ∧ fB w = 0) (.cbAdvH (fA w) (fH w) (fK w))
  | 0x06 => unreserved (fD w = 0 ∧ fB w = 0) (.cbAdvT (fA w) (fH w) (fK w))
  | 0x07 => unreserved (fA w = 0 ∧ fB w = 0) (.cbStat (fD w) (fH w) (fK w))
  | _ => .error .illegal

/-- Major 0x08 (03 R61). -/
def decode08 (w : W32) : Except DecodeCause Instr :=
  match (fShift w).toNat with
  | 0x00 => unreserved (fMid w = 0) (.slli (fD w) (fA w) (fAmt w))
  | 0x01 => unreserved (fMid w = 0) (.srli (fD w) (fA w) (fAmt w))
  | 0x02 => unreserved (fMid w = 0) (.srai (fD w) (fA w) (fAmt w))
  | 0x08 => checked (fMid w = 0) (fAmt w < 32) (.slliW (fD w) (fA w) (fAmt w))
  | 0x09 => checked (fMid w = 0) (fAmt w < 32) (.srliW (fD w) (fA w) (fAmt w))
  | 0x0a => checked (fMid w = 0) (fAmt w < 32) (.sraiW (fD w) (fA w) (fAmt w))
  | _ => .error .illegal

/-- Major 0x30 (03 R64). -/
def decode30 (w : W32) : Except DecodeCause Instr :=
  match (fPosted w).toNat, (fAmOp w).toNat with
  | 0, 0 => unreserved (fK w = 0) (.amAdd (fD w) (fA w) (fB w) (fH w) (fZ w))
  | 0, 1 => unreserved (fK w = 0) (.amAnd (fD w) (fA w) (fB w) (fH w) (fZ w))
  | 0, 2 => unreserved (fK w = 0) (.amOr (fD w) (fA w) (fB w) (fH w) (fZ w))
  | 0, 3 => unreserved (fK w = 0) (.amXor (fD w) (fA w) (fB w) (fH w) (fZ w))
  | 0, 4 => unreserved (fK w = 0) (.amMin (fD w) (fA w) (fB w) (fH w) (fZ w))
  | 0, 5 => unreserved (fK w = 0) (.amMax (fD w) (fA w) (fB w) (fH w) (fZ w))
  | 0, 6 => unreserved (fK w = 0) (.amMinn (fD w) (fA w) (fB w) (fH w) (fZ w))
  | 0, 7 => unreserved (fK w = 0) (.amMaxn (fD w) (fA w) (fB w) (fH w) (fZ w))
  | 0, 8 => unreserved (fK w = 0) (.amSwap (fD w) (fA w) (fB w) (fH w) (fZ w))
  | 0, 9 => unreserved (fK w = 0) (.amCas (fD w) (fA w) (fB w) (fH w) (fZ w))
  | 1, 0 => unreserved (fD w = 0 ∧ fK w = 0) (.amAddPs (fA w) (fB w) (fH w) (fZ w))
  | 1, 1 => unreserved (fD w = 0 ∧ fK w = 0) (.amAndPs (fA w) (fB w) (fH w) (fZ w))
  | 1, 2 => unreserved (fD w = 0 ∧ fK w = 0) (.amOrPs (fA w) (fB w) (fH w) (fZ w))
  | 1, 3 => unreserved (fD w = 0 ∧ fK w = 0) (.amXorPs (fA w) (fB w) (fH w) (fZ w))
  | 1, 4 => unreserved (fD w = 0 ∧ fK w = 0) (.amMinPs (fA w) (fB w) (fH w) (fZ w))
  | 1, 5 => unreserved (fD w = 0 ∧ fK w = 0) (.amMaxPs (fA w) (fB w) (fH w) (fZ w))
  | 1, 6 => unreserved (fD w = 0 ∧ fK w = 0) (.amMinnPs (fA w) (fB w) (fH w) (fZ w))
  | 1, 7 => unreserved (fD w = 0 ∧ fK w = 0) (.amMaxnPs (fA w) (fB w) (fH w) (fZ w))
  | _, _ => .error .illegal

/-- Major 0x31 (03 R65). -/
def decode31 (w : W32) : Except DecodeCause Instr :=
  match (fOrd w).toNat, (fScope w).toNat with
  | 0, _ => if fScope w ≤ 4 then unreserved (fD w = 0 ∧ fA w = 0 ∧ fB w = 0 ∧ fK w = 0) (.fence (fH w) (fScope w)) else .error .illegal
  | 1, _ => if fScope w ≤ 4 then unreserved (fB w = 0 ∧ fK w = 0) (.ldAcq (fD w) (fA w) (fH w) (fScope w)) else .error .illegal
  | 2, _ => if fScope w ≤ 4 then unreserved (fB w = 0 ∧ fK w = 0) (.stRel (fD w) (fA w) (fH w) (fScope w)) else .error .illegal
  | 3, 1 => unreserved (fD w = 0 ∧ fA w = 0 ∧ fB w = 0 ∧ fK w = 0) (.fenceEngDr (fH w))
  | 3, 2 => unreserved (fD w = 0 ∧ fA w = 0 ∧ fB w = 0 ∧ fK w = 0) (.fenceEngPl (fH w))
  | 3, 3 => unreserved (fD w = 0 ∧ fA w = 0 ∧ fB w = 0 ∧ fK w = 0) (.fenceEng (fH w))
  | _, _ => .error .illegal

/-- Major 0x32 (03 R63). -/
def decode32 (w : W32) : Except DecodeCause Instr :=
  match (fOp w).toNat with
  | 0x00 => unreserved (fD w = 0 ∧ fB w = 0 ∧ fK w = 0) (.sow (fA w) (fH w))
  | 0x01 => unreserved (fD w = 0 ∧ fK w = 0) (.sowAt (fA w) (fB w) (fH w))
  | 0x02 => unreserved (fD w = 0 ∧ fK w = 0) (.sowCap (fA w) (fB w) (fH w))
  | 0x03 => unreserved (fD w = 0 ∧ fB w = 0 ∧ fK w = 0) (.endTask (fA w) (fH w))
  | 0x04 => unreserved (fD w = 0 ∧ fA w = 0 ∧ fB w = 0 ∧ fK w = 0) (.yield (fH w))
  | 0x05 => unreserved (fD w = 0 ∧ fA w = 0 ∧ fB w = 0 ∧ fK w = 0) (.wfe (fH w))
  | 0x06 => unreserved (fD w = 0 ∧ fB w = 0 ∧ fK w = 0) (.sev (fA w) (fH w))
  | 0x08 => unreserved (fD w = 0 ∧ fK w = 0) (.trigArm (fA w) (fB w) (fH w))
  | 0x09 => unreserved (fD w = 0 ∧ fK w = 0) (.trigDec (fA w) (fB w) (fH w))
  | 0x0a => unreserved (fB w = 0 ∧ fK w = 0) (.trigRd (fD w) (fA w) (fH w))
  | 0x0b => unreserved (fD w = 0 ∧ fB w = 0 ∧ fK w = 0) (.hmask (fA w) (fH w))
  | 0x10 => unreserved (fD w = 0 ∧ fB w = 0 ∧ fK w = 0) (.yoke (fA w) (fH w))
  | 0x11 => unreserved (fD w = 0 ∧ fA w = 0 ∧ fB w = 0 ∧ fK w = 0) (.unyoke (fH w))
  | _ => .error .illegal

/-- Major 0x33 (03 R63). -/
def decode33 (w : W32) : Except DecodeCause Instr :=
  match (fOp w).toNat with
  | 0x00 => unreserved (fD w = 0 ∧ fB w = 0 ∧ fK w = 0) (.msgH (fA w) (fH w))
  | 0x01 => checked (fD w = 0 ∧ fB w = 0) (fK w < 8) (.msgD (fA w) (fH w) (fK w))
  | 0x02 => unreserved (fD w = 0 ∧ fA w = 0 ∧ fB w = 0 ∧ fK w = 0) (.msgGo (fH w))
  | 0x03 => unreserved (fD w = 0 ∧ fK w = 0) (.msgTo (fA w) (fB w) (fH w))
  | 0x08 => checked (fA w = 0 ∧ fB w = 0) (fK w < 8) (.mqRd (fD w) (fH w) (fK w))
  | 0x09 => unreserved (fD w = 0 ∧ fA w = 0 ∧ fB w = 0 ∧ fK w = 0) (.mqPop (fH w))
  | 0x0a => unreserved (fA w = 0 ∧ fB w = 0 ∧ fK w = 0) (.mqPeek (fD w) (fH w))
  | _ => .error .illegal

/-- Major 0x34 (03 R63). -/
def decode34 (w : W32) : Except DecodeCause Instr :=
  match (fOp w).toNat with
  | 0x00 => unreserved (fD w = 0 ∧ fK w = 0) (.mbPost (fA w) (fB w) (fH w))
  | 0x01 => unreserved (fD w = 0 ∧ fK w = 0) (.mbTake (fA w) (fB w) (fH w))
  | 0x08 => unreserved (fD w = 0 ∧ fK w = 0) (.gbpAcc (fA w) (fB w) (fH w))
  | 0x09 => unreserved (fD w = 0 ∧ fK w = 0) (.gbpSub (fA w) (fB w) (fH w))
  | 0x0a => unreserved (fD w = 0 ∧ fK w = 0) (.gbpElim (fA w) (fB w) (fH w))
  | 0x0b => unreserved (fK w = 0) (.gbpDamp (fD w) (fA w) (fB w) (fH w))
  | 0x0c => unreserved (fK w = 0) (.gbpRes (fD w) (fA w) (fB w) (fH w))
  | _ => .error .illegal

/-- Major 0x35 (03 R63). -/
def decode35 (w : W32) : Except DecodeCause Instr :=
  match (fOp w).toNat with
  | 0x00 => unreserved (fA w = 0 ∧ fB w = 0 ∧ fK w = 0) (.rdtime (fD w) (fH w))
  | 0x01 => unreserved (fA w = 0 ∧ fB w = 0 ∧ fK w = 0) (.rdtimeLoc (fD w) (fH w))
  | 0x02 => unreserved (fB w = 0 ∧ fK w = 0) (.rdband (fD w) (fA w) (fH w))
  | 0x03 => unreserved (fA w = 0 ∧ fB w = 0 ∧ fK w = 0) (.rdpos (fD w) (fH w))
  | 0x08 => unreserved (fD w = 0 ∧ fA w = 0 ∧ fB w = 0) (.barArrive (fH w) (fK w))
  | 0x09 => unreserved (fD w = 0 ∧ fA w = 0 ∧ fB w = 0) (.barWait (fH w) (fK w))
  | 0x0a => unreserved (fD w = 0 ∧ fB w = 0) (.barMask (fA w) (fH w) (fK w))
  | 0x0b => unreserved (fA w = 0 ∧ fB w = 0) (.barStat (fD w) (fH w) (fK w))
  | 0x10 => unreserved (fA w = 0 ∧ fB w = 0 ∧ fK w = 0) (.hlStat (fD w) (fH w))
  | 0x11 => unreserved (fD w = 0 ∧ fA w = 0 ∧ fB w = 0 ∧ fK w = 0) (.hlDefer (fH w))
  | _ => .error .illegal

/-- Major 0x36 (03 R63). -/
def decode36 (w : W32) : Except DecodeCause Instr :=
  match (fOp w).toNat with
  | 0x00 => unreserved (fD w = 0 ∧ fB w = 0 ∧ fK w = 0) (.resume (fA w) (fH w))
  | 0x01 => unreserved (fD w = 0 ∧ fA w = 0 ∧ fB w = 0 ∧ fK w = 0) (.park (fH w))
  | 0x02 => unreserved (fD w = 0 ∧ fK w = 0) (.faultPost (fA w) (fB w) (fH w))
  | _ => .error .illegal

/-- Major 0x37 (03 R63). -/
def decode37 (w : W32) : Except DecodeCause Instr :=
  match (fOp w).toNat with
  | 0x00 => unreserved (fB w = 0 ∧ fK w = 0) (.sqTake (fD w) (fA w) (fH w))
  | 0x01 => unreserved (fB w = 0 ∧ fK w = 0) (.sqAdmit (fD w) (fA w) (fH w))
  | 0x02 => unreserved (fD w = 0 ∧ fB w = 0 ∧ fK w = 0) (.sqRetire (fA w) (fH w))
  | 0x08 => unreserved (fB w = 0 ∧ fK w = 0) (.kvGet (fD w) (fA w) (fH w))
  | 0x09 => unreserved (fD w = 0 ∧ fK w = 0) (.kvPut (fA w) (fB w) (fH w))
  | 0x0a => unreserved (fK w = 0) (.stopTest (fD w) (fA w) (fB w) (fH w))
  | _ => .error .illegal

/-- Major 0x38 (03 R66). -/
def decode38 (w : W32) : Except DecodeCause Instr :=
  match (fCmd w).toNat with
  | 0x00 => checked (fEb w = 0 ∧ fFlHi2 w = 0) (fSel w ≠ 3) (.plGeo (fEa w) (fSel w))
  | 0x01 => unreserved (fFl0 w = 0 ∧ fFlHi2 w = 0) (.plMma (fEa w) (fEb w) (fFlZ w))
  | 0x02 => unreserved (fFl0 w = 0 ∧ fFlHi2 w = 0) (.plMmt (fEa w) (fEb w) (fFlZ w))
  | 0x03 => unreserved (fFlags w = 0) (.plZacc (fEa w) (fEb w))
  | 0x04 => unreserved (fEb w = 0 ∧ fFlags w = 0) (.plLdacc (fEa w))
  | 0x05 => checked (fEb w = 0 ∧ fFl0 w = 0 ∧ fFlHi3 w = 0) (fFlOut w ≠ 3) (.plStacc (fEa w) (fFlOut w))
  | 0x06 => unreserved (fEb w = 0 ∧ fFlags w = 0) (.plWait (fEa w))
  | 0x07 => unreserved (fFl0 w = 0 ∧ fFlHi2 w = 0) (.plTile (fEa w) (fEb w) (fFlZ w))
  | 0x08 => unreserved (fEa w = 0 ∧ fEb w = 0 ∧ fFlags w = 0) (.plFlush)
  | 0x41 => unreserved (fFl0 w = 0 ∧ fFlHi2 w = 0) (.plMmaBlk (fEa w) (fEb w) (fFlZ w))
  | 0x42 => unreserved (fFl0 w = 0 ∧ fFlHi2 w = 0) (.plMmtBlk (fEa w) (fEb w) (fFlZ w))
  | 0x47 => unreserved (fFl0 w = 0 ∧ fFlHi2 w = 0) (.plTileBlk (fEa w) (fEb w) (fFlZ w))
  | _ => .error .illegal

/-- Major 0x39 (03 R66). -/
def decode39 (w : W32) : Except DecodeCause Instr :=
  match (fCmd w).toNat with
  | 0x00 => unreserved (fFlags w = 0) (.drCopyGp (fEa w) (fEb w))
  | 0x01 => unreserved (fFlags w = 0) (.drCopyPg (fEa w) (fEb w))
  | 0x02 => unreserved (fFlags w = 0) (.drCopyPp (fEa w) (fEb w))
  | 0x03 => unreserved (fFlags w = 0) (.drCopyGg (fEa w) (fEb w))
  | 0x04 => unreserved (fFlags w = 0) (.drGathG (fEa w) (fEb w))
  | 0x05 => unreserved (fFlags w = 0) (.drGathP (fEa w) (fEb w))
  | 0x06 => unreserved (fFlags w = 0) (.drScatG (fEa w) (fEb w))
  | 0x07 => unreserved (fFlags w = 0) (.drScatP (fEa w) (fEb w))
  | 0x08 => unreserved (fFlags w = 0) (.drFillG (fEa w) (fEb w))
  | 0x09 => unreserved (fFlags w = 0) (.drFillP (fEa w) (fEb w))
  | 0x0a => unreserved (fEb w = 0 ∧ fFlags w = 0) (.drWait (fEa w))
  | _ => .error .illegal

/-- Major 0x3c (03 R67). -/
def decode3C (w : W32) : Except DecodeCause Instr :=
  match (fOp w).toNat with
  | 0x00 => unreserved (fC w = 0) (.vaddF32 (fD w) (fA w) (fB w))
  | 0x01 => unreserved (fC w = 0) (.vaddS32 (fD w) (fA w) (fB w))
  | 0x02 => unreserved (fC w = 0) (.vsubF32 (fD w) (fA w) (fB w))
  | 0x03 => unreserved (fC w = 0) (.vsubS32 (fD w) (fA w) (fB w))
  | 0x04 => unreserved (fC w = 0) (.vmulF32 (fD w) (fA w) (fB w))
  | 0x05 => unreserved (fC w = 0) (.vmulS32 (fD w) (fA w) (fB w))
  | 0x06 => .ok (.vfmaF32 (fD w) (fA w) (fB w) (fC w))
  | 0x07 => .ok (.vfnmF32 (fD w) (fA w) (fB w) (fC w))
  | 0x08 => unreserved (fC w = 0) (.vminF32 (fD w) (fA w) (fB w))
  | 0x09 => unreserved (fC w = 0) (.vminS32 (fD w) (fA w) (fB w))
  | 0x0a => unreserved (fC w = 0) (.vminN32 (fD w) (fA w) (fB w))
  | 0x0b => unreserved (fC w = 0) (.vmaxF32 (fD w) (fA w) (fB w))
  | 0x0c => unreserved (fC w = 0) (.vmaxS32 (fD w) (fA w) (fB w))
  | 0x0d => unreserved (fC w = 0) (.vmaxN32 (fD w) (fA w) (fB w))
  | 0x0e => unreserved (fB w = 0 ∧ fC w = 0) (.vabsF32 (fD w) (fA w))
  | 0x0f => unreserved (fB w = 0 ∧ fC w = 0) (.vabsS32 (fD w) (fA w))
  | 0x10 => unreserved (fB w = 0 ∧ fC w = 0) (.vnegF32 (fD w) (fA w))
  | 0x11 => unreserved (fB w = 0 ∧ fC w = 0) (.vnegS32 (fD w) (fA w))
  | 0x12 => unreserved (fB w = 0 ∧ fC w = 0) (.vrcpF32 (fD w) (fA w))
  | 0x13 => unreserved (fB w = 0 ∧ fC w = 0) (.vrsqF32 (fD w) (fA w))
  | 0x14 => unreserved (fC w = 0) (.vand (fD w) (fA w) (fB w))
  | 0x15 => unreserved (fC w = 0) (.vor (fD w) (fA w) (fB w))
  | 0x16 => unreserved (fC w = 0) (.vxor (fD w) (fA w) (fB w))
  | 0x17 => unreserved (fC w = 0) (.vsll (fD w) (fA w) (fB w))
  | 0x18 => unreserved (fC w = 0) (.vsrl (fD w) (fA w) (fB w))
  | 0x19 => unreserved (fC w = 0) (.vsra (fD w) (fA w) (fB w))
  | 0x1a => .ok (.vsel (fD w) (fA w) (fB w) (fC w))
  | 0x1b => unreserved (fC w = 0) (.vdotF32 (fD w) (fA w) (fB w))
  | 0x1c => unreserved (fC w = 0) (.vsclF32 (fD w) (fA w) (fB w))
  | 0x20 => unreserved (fC w = 0) (.vcmpEqF32 (fD w) (fA w) (fB w))
  | 0x21 => unreserved (fC w = 0) (.vcmpNeF32 (fD w) (fA w) (fB w))
  | 0x22 => unreserved (fC w = 0) (.vcmpLtF32 (fD w) (fA w) (fB w))
  | 0x23 => unreserved (fC w = 0) (.vcmpLeF32 (fD w) (fA w) (fB w))
  | 0x24 => unreserved (fC w = 0) (.vcmpEqS32 (fD w) (fA w) (fB w))
  | 0x25 => unreserved (fC w = 0) (.vcmpNeS32 (fD w) (fA w) (fB w))
  | 0x26 => unreserved (fC w = 0) (.vcmpLtS32 (fD w) (fA w) (fB w))
  | 0x27 => unreserved (fC w = 0) (.vcmpLeS32 (fD w) (fA w) (fB w))
  | 0x2a => unreserved (fC w = 0) (.vcmpLtN32 (fD w) (fA w) (fB w))
  | 0x2b => unreserved (fC w = 0) (.vcmpLeN32 (fD w) (fA w) (fB w))
  | 0x30 => unreserved (fB w = 0 ∧ fC w = 0) (.vraddF32 (fD w) (fA w))
  | 0x31 => unreserved (fB w = 0 ∧ fC w = 0) (.vraddS32 (fD w) (fA w))
  | 0x32 => unreserved (fB w = 0 ∧ fC w = 0) (.vrmaxF32 (fD w) (fA w))
  | 0x33 => unreserved (fB w = 0 ∧ fC w = 0) (.vrmaxS32 (fD w) (fA w))
  | 0x34 => unreserved (fB w = 0 ∧ fC w = 0) (.vrminF32 (fD w) (fA w))
  | 0x35 => unreserved (fB w = 0 ∧ fC w = 0) (.vrminS32 (fD w) (fA w))
  | 0x36 => unreserved (fB w = 0 ∧ fC w = 0) (.vrmaxiF32 (fD w) (fA w))
  | _ => .error .illegal

/-- Checks 2 to 4 of 03 R55 for major 0x3d (03 R67). -/
def cause3D (w : W32) : Option DecodeCause :=
  match (fOp w).toNat with
  | 0x00 => refuse (fB w = 0 ∧ fC w = 0) True
  | 0x01 => refuse (fB w = 0 ∧ fC w = 0) True
  | 0x02 => refuse (fB w = 0 ∧ fC w = 0) True
  | 0x03 => refuse (fB w = 0 ∧ fC w = 0) True
  | 0x04 => refuse (fB w = 0 ∧ fC w = 0) True
  | 0x05 => refuse (fB w = 0 ∧ fC w = 0) True
  | 0x06 => refuse (fB w = 0 ∧ fC w = 0) True
  | 0x07 => refuse (fB w = 0 ∧ fC w = 0) True
  | 0x08 => refuse (fB w = 0 ∧ fC w = 0) True
  | 0x09 => refuse (fB w = 0 ∧ fC w = 0) True
  | 0x10 => refuse (fC w = 0) True
  | 0x11 => refuse (fC w = 0) True
  | 0x12 => refuse (fC w = 0) True
  | 0x13 => refuse (fC w = 0) True
  | 0x14 => refuse (fB w = 0) (fC w < 2)
  | 0x15 => refuse (fB w = 0) (fC w < 2)
  | 0x16 => refuse (fB w = 0) (fC w < 4)
  | 0x17 => refuse (fB w = 0) (fC w < 4)
  | 0x20 => refuse (fB w = 0 ∧ fC w = 0) True
  | 0x21 => refuse (fB w = 0) (fC w < 8)
  | 0x22 => refuse (fB w = 0) (fC w < 8)
  | 0x23 => refuse (fC w = 0) True
  | 0x24 => refuse (fB w = 0) (fC w < 8)
  | 0x25 => refuse (fC w = 0) True
  | 0x28 => refuse (fC w = 0) True
  | 0x29 => refuse (fC w = 0) True
  | _ => some .illegal

/-- Major 0x3d (03 R67). -/
noncomputable def decode3D (w : W32) : Except DecodeCause Instr :=
  match cause3D w with
  | some c => .error c
  | none =>
    match (fOp w).toNat with
    | 0x00 => .ok (.vcvtF32S32 (fD w) (fA w))
    | 0x01 => .ok (.vcvtS32F32 (fD w) (fA w))
    | 0x02 => .ok (.vcvtBf16F32 (fD w) (fA w))
    | 0x03 => .ok (.vcvtF16F32 (fD w) (fA w))
    | 0x04 => .ok (.vcvtF32Bf16 (fD w) (fA w))
    | 0x05 => .ok (.vcvtF32F16 (fD w) (fA w))
    | 0x06 => .ok (.vcvtE4m3F32 (fD w) (fA w))
    | 0x07 => .ok (.vcvtE5m2F32 (fD w) (fA w))
    | 0x08 => .ok (.vcvtF32E4m3 (fD w) (fA w))
    | 0x09 => .ok (.vcvtF32E5m2 (fD w) (fA w))
    | 0x10 => .ok (.vpackS16 (fD w) (fA w) (fB w))
    | 0x11 => .ok (.vpackN16 (fD w) (fA w) (fB w))
    | 0x12 => .ok (.vpackS8 (fD w) (fA w) (fB w))
    | 0x13 => .ok (.vpackN8 (fD w) (fA w) (fB w))
    | 0x14 => .ok (.vunpkS16 (fD w) (fA w) (fC w))
    | 0x15 => .ok (.vunpkN16 (fD w) (fA w) (fC w))
    | 0x16 => .ok (.vunpkS8 (fD w) (fA w) (fC w))
    | 0x17 => .ok (.vunpkN8 (fD w) (fA w) (fC w))
    | 0x20 => .ok (.vbcast (fD w) (fA w))
    | 0x21 => .ok (.vext (fD w) (fA w) (fC w))
    | 0x22 => .ok (.vins (fD w) (fA w) (fC w))
    | 0x23 => .ok (.vperm (fD w) (fA w) (fB w))
    | 0x24 => .ok (.vrot (fD w) (fA w) (fC w))
    | 0x25 => .ok (.vshfl (fD w) (fA w) (fB w))
    | 0x28 => .ok (.ldgV (fD w) (fA w) (fB w))
    | 0x29 => .ok (.stgV (fD w) (fA w) (fB w))
    | _ => .error .illegal

/-- The words of every major but 0x3d. -/
def decodeMost (w : W32) : Except DecodeCause Instr :=
  if w = brkWord then .ok .brk else
  match (fMajor w).toNat with
  | 0x01 => decode01 w
  | 0x02 => decode02 w
  | 0x03 => decode03 w
  | 0x04 => .ok (.addi (fD w) (fA w) (fImm w))
  | 0x05 => .ok (.andi (fD w) (fA w) (fImm w))
  | 0x06 => .ok (.ori (fD w) (fA w) (fImm w))
  | 0x07 => .ok (.xori (fD w) (fA w) (fImm w))
  | 0x08 => decode08 w
  | 0x09 => .ok (.slti (fD w) (fA w) (fImm w))
  | 0x0a => .ok (.sltni (fD w) (fA w) (fImm w))
  | 0x0b => unreserved (fA w = 0) (.lhi (fD w) (fImm w))
  | 0x0c => unreserved (fA w = 0) (.addpc (fD w) (fImm w))
  | 0x0d => .ok (.addiW (fD w) (fA w) (fImm w))
  | 0x0e => unreserved (fD w = 0 ∧ fA w = 0) (.trap (fImm w))
  | 0x10 => .ok (.ldS8 (fD w) (fA w) (fImm w))
  | 0x11 => .ok (.ldN8 (fD w) (fA w) (fImm w))
  | 0x12 => .ok (.ldS16 (fD w) (fA w) (fImm w))
  | 0x13 => .ok (.ldN16 (fD w) (fA w) (fImm w))
  | 0x14 => .ok (.ldS32 (fD w) (fA w) (fImm w))
  | 0x15 => .ok (.ldN32 (fD w) (fA w) (fImm w))
  | 0x16 => .ok (.ld64 (fD w) (fA w) (fImm w))
  | 0x17 => .ok (.ldV (fD w) (fA w) (fImm w))
  | 0x18 => .ok (.st8 (fD w) (fA w) (fImm w))
  | 0x19 => .ok (.st16 (fD w) (fA w) (fImm w))
  | 0x1a => .ok (.st32 (fD w) (fA w) (fImm w))
  | 0x1b => .ok (.st64 (fD w) (fA w) (fImm w))
  | 0x1c => .ok (.stV (fD w) (fA w) (fImm w))
  | 0x20 => .ok (.beq (fD w) (fA w) (fImm w))
  | 0x21 => .ok (.bne (fD w) (fA w) (fImm w))
  | 0x22 => .ok (.blt (fD w) (fA w) (fImm w))
  | 0x23 => .ok (.bge (fD w) (fA w) (fImm w))
  | 0x24 => .ok (.bltn (fD w) (fA w) (fImm w))
  | 0x25 => .ok (.bgen (fD w) (fA w) (fImm w))
  | 0x26 => .ok (.j (fOff w))
  | 0x27 => .ok (.jal (fOff w))
  | 0x28 => .ok (.reyoke (fOff w))
  | 0x29 => unreserved (fD w = 0) (.jr (fA w) (fImm w))
  | 0x2a => .ok (.jalr (fD w) (fA w) (fImm w))
  | 0x30 => decode30 w
  | 0x31 => decode31 w
  | 0x32 => decode32 w
  | 0x33 => decode33 w
  | 0x34 => decode34 w
  | 0x35 => decode35 w
  | 0x36 => decode36 w
  | 0x37 => decode37 w
  | 0x38 => decode38 w
  | 0x39 => decode39 w
  | 0x3c => decode3C w
  | _ => .error .illegal


/-- The decoder: the checks of 03 R55 up to check 4, in their order. Check 5 depends on the die and is made by the step
that executes the word. -/
noncomputable def decode (w : W32) : Except DecodeCause Instr :=
  if fMajor w = 0x3d then decode3D w else decodeMost w

/-- The cause with which the decoder refuses a word, if it does. -/
def wordCause (w : W32) : Option DecodeCause :=
  if fMajor w = 0x3d then cause3D w
  else match decodeMost w with
    | .error c => some c
    | .ok _ => none

/-- The four bytes of an instruction word, as stored (03 R49), lowest address first. -/
def wordBytes (w : W32) : List Byte :=
  [w.extractLsb' 0 8, w.extractLsb' 8 8, w.extractLsb' 16 8, w.extractLsb' 24 8]

/-- The instruction word that four stored bytes hold (03 R49). -/
def bytesWord : List Byte → Option W32
  | [b0, b1, b2, b3] => some (b3 ++ b2 ++ b1 ++ b0)
  | _ => none

/-- The decoder over stored bytes. -/
noncomputable def decodeBytes (bs : List Byte) : Option (Except DecodeCause Instr) :=
  (bytesWord bs).map decode

/-- What the decoder reads from an instruction whose bits are `w`, numbered as the opcode table numbers them. -/
noncomputable def decodeTableWord (nbits w : Nat) : Option Instr :=
  if nbits ≤ 32 then
    match decodeBytes (wordBytes (BitVec.ofNat 32 w)) with
    | some (.ok i) => some i
    | _ => none
  else none

/-! The encoder, by format (03 R51). -/

def encRR (major : BitVec 6) (d a b : Reg) (h : BitVec 1) (k : BitVec 4) (op : BitVec 6) : W32 :=
  major ++ d ++ a ++ b ++ h ++ k ++ op

def encAM (d a b : Reg) (h posted z : BitVec 1) (op : BitVec 4) : W32 :=
  (0x30 : BitVec 6) ++ d ++ a ++ b ++ h ++ (0 : BitVec 4) ++ posted ++ z ++ op

def encOR (d a : Reg) (h : BitVec 1) (ord scope : BitVec 3) : W32 :=
  (0x31 : BitVec 6) ++ d ++ a ++ (0 : BitVec 5) ++ h ++ (0 : BitVec 4) ++ ord ++ scope

def encRI (major : BitVec 6) (d a : Reg) (imm : BitVec 16) : W32 :=
  major ++ d ++ a ++ imm

def encSH (d a : Reg) (sel : BitVec 4) (n : BitVec 6) : W32 :=
  (0x08 : BitVec 6) ++ d ++ a ++ sel ++ (0 : BitVec 6) ++ n

def encSY (d a : Reg) (s : BitVec 12) (fn : BitVec 4) : W32 :=
  (0x02 : BitVec 6) ++ d ++ a ++ s ++ fn

def encJ (major : BitVec 6) (o : BitVec 26) : W32 :=
  major ++ o

def encEC (major : BitVec 6) (cmd : BitVec 7) (a b : Reg) (flags : BitVec 9) : W32 :=
  major ++ cmd ++ a ++ b ++ flags

def encVR (major : BitVec 6) (d a b : Reg) (c : BitVec 5) (fn : BitVec 6) : W32 :=
  major ++ d ++ a ++ b ++ c ++ fn

/-- The word of an instruction (03 R58 to R67); the events of the device have none. -/
def encode : Instr → Option W32
  | .add d a b h => some (encRR 0x01 d a b h 0 0x00)
  | .sub d a b h => some (encRR 0x01 d a b h 0 0x01)
  | .and d a b h => some (encRR 0x01 d a b h 0 0x02)
  | .or d a b h => some (encRR 0x01 d a b h 0 0x03)
  | .xor d a b h => some (encRR 0x01 d a b h 0 0x04)
  | .andn d a b h => some (encRR 0x01 d a b h 0 0x05)
  | .sll d a b h => some (encRR 0x01 d a b h 0 0x06)
  | .srl d a b h => some (encRR 0x01 d a b h 0 0x07)
  | .sra d a b h => some (encRR 0x01 d a b h 0 0x08)
  | .rotl d a b h => some (encRR 0x01 d a b h 0 0x09)
  | .slt d a b h => some (encRR 0x01 d a b h 0 0x0a)
  | .sltn d a b h => some (encRR 0x01 d a b h 0 0x0b)
  | .min d a b h => some (encRR 0x01 d a b h 0 0x0c)
  | .max d a b h => some (encRR 0x01 d a b h 0 0x0d)
  | .minn d a b h => some (encRR 0x01 d a b h 0 0x0e)
  | .maxn d a b h => some (encRR 0x01 d a b h 0 0x0f)
  | .mul d a b h => some (encRR 0x01 d a b h 0 0x10)
  | .mulh d a b h => some (encRR 0x01 d a b h 0 0x11)
  | .mulhn d a b h => some (encRR 0x01 d a b h 0 0x12)
  | .div d a b h => some (encRR 0x01 d a b h 0 0x13)
  | .divn d a b h => some (encRR 0x01 d a b h 0 0x14)
  | .rem d a b h => some (encRR 0x01 d a b h 0 0x15)
  | .remn d a b h => some (encRR 0x01 d a b h 0 0x16)
  | .clz d a h => some (encRR 0x01 d a 0 h 0 0x17)
  | .ctz d a h => some (encRR 0x01 d a 0 h 0 0x18)
  | .popc d a h => some (encRR 0x01 d a 0 h 0 0x19)
  | .bext d a b h => some (encRR 0x01 d a b h 0 0x1a)
  | .bins d a b h => some (encRR 0x01 d a b h 0 0x1b)
  | .sext d a b h => some (encRR 0x01 d a b h 0 0x1c)
  | .zext d a b h => some (encRR 0x01 d a b h 0 0x1d)
  | .csel d a b h => some (encRR 0x01 d a b h 0 0x1e)
  | .addW d a b h => some (encRR 0x01 d a b h 0 0x20)
  | .subW d a b h => some (encRR 0x01 d a b h 0 0x21)
  | .sllW d a b h => some (encRR 0x01 d a b h 0 0x26)
  | .srlW d a b h => some (encRR 0x01 d a b h 0 0x27)
  | .sraW d a b h => some (encRR 0x01 d a b h 0 0x28)
  | .mulW d a b h => some (encRR 0x01 d a b h 0 0x30)
  | .divW d a b h => some (encRR 0x01 d a b h 0 0x33)
  | .divnW d a b h => some (encRR 0x01 d a b h 0 0x34)
  | .remW d a b h => some (encRR 0x01 d a b h 0 0x35)
  | .remnW d a b h => some (encRR 0x01 d a b h 0 0x36)
  | .srd d s => some (encSY d 0 s 0)
  | .swr a s => some (encSY 0 a s 1)
  | .sxch d a s => some (encSY d a s 2)
  | .ldbit d a b h => some (encRR 0x03 d a b h 0 0x00)
  | .stbit d a b h => some (encRR 0x03 d a b h 0 0x01)
  | .cbInit a b h k => some (encRR 0x03 0 a b h k 0x02)
  | .cbNeed a h k => some (encRR 0x03 0 a 0 h k 0x03)
  | .cbRoom a h k => some (encRR 0x03 0 a 0 h k 0x04)
  | .cbAdvH a h k => some (encRR 0x03 0 a 0 h k 0x05)
  | .cbAdvT a h k => some (encRR 0x03 0 a 0 h k 0x06)
  | .cbStat d h k => some (encRR 0x03 d 0 0 h k 0x07)
  | .addi d a i => some (encRI 0x04 d a i)
  | .andi d a i => some (encRI 0x05 d a i)
  | .ori d a i => some (encRI 0x06 d a i)
  | .xori d a i => some (encRI 0x07 d a i)
  | .slli d a n => some (encSH d a 0x0 n)
  | .srli d a n => some (encSH d a 0x1 n)
  | .srai d a n => some (encSH d a 0x2 n)
  | .slliW d a n => some (encSH d a 0x8 n)
  | .srliW d a n => some (encSH d a 0x9 n)
  | .sraiW d a n => some (encSH d a 0xa n)
  | .slti d a i => some (encRI 0x09 d a i)
  | .sltni d a i => some (encRI 0x0a d a i)
  | .lhi d i => some (encRI 0x0b d 0 i)
  | .addpc d i => some (encRI 0x0c d 0 i)
  | .addiW d a i => some (encRI 0x0d d a i)
  | .trap i => some (encRI 0x0e 0 0 i)
  | .ldS8 d a i => some (encRI 0x10 d a i)
  | .ldN8 d a i => some (encRI 0x11 d a i)
  | .ldS16 d a i => some (encRI 0x12 d a i)
  | .ldN16 d a i => some (encRI 0x13 d a i)
  | .ldS32 d a i => some (encRI 0x14 d a i)
  | .ldN32 d a i => some (encRI 0x15 d a i)
  | .ld64 d a i => some (encRI 0x16 d a i)
  | .ldV d a i => some (encRI 0x17 d a i)
  | .st8 d a i => some (encRI 0x18 d a i)
  | .st16 d a i => some (encRI 0x19 d a i)
  | .st32 d a i => some (encRI 0x1a d a i)
  | .st64 d a i => some (encRI 0x1b d a i)
  | .stV d a i => some (encRI 0x1c d a i)
  | .beq a b o => some (encRI 0x20 a b o)
  | .bne a b o => some (encRI 0x21 a b o)
  | .blt a b o => some (encRI 0x22 a b o)
  | .bge a b o => some (encRI 0x23 a b o)
  | .bltn a b o => some (encRI 0x24 a b o)
  | .bgen a b o => some (encRI 0x25 a b o)
  | .j o => some (encJ 0x26 o)
  | .jal o => some (encJ 0x27 o)
  | .reyoke o => some (encJ 0x28 o)
  | .jr a i => some (encRI 0x29 0 a i)
  | .jalr d a i => some (encRI 0x2a d a i)
  | .amAdd d a b h z => some (encAM d a b h 0 z 0)
  | .amAnd d a b h z => some (encAM d a b h 0 z 1)
  | .amOr d a b h z => some (encAM d a b h 0 z 2)
  | .amXor d a b h z => some (encAM d a b h 0 z 3)
  | .amMin d a b h z => some (encAM d a b h 0 z 4)
  | .amMax d a b h z => some (encAM d a b h 0 z 5)
  | .amMinn d a b h z => some (encAM d a b h 0 z 6)
  | .amMaxn d a b h z => some (encAM d a b h 0 z 7)
  | .amSwap d a b h z => some (encAM d a b h 0 z 8)
  | .amCas d a b h z => some (encAM d a b h 0 z 9)
  | .amAddPs a b h z => some (encAM 0 a b h 1 z 0)
  | .amAndPs a b h z => some (encAM 0 a b h 1 z 1)
  | .amOrPs a b h z => some (encAM 0 a b h 1 z 2)
  | .amXorPs a b h z => some (encAM 0 a b h 1 z 3)
  | .amMinPs a b h z => some (encAM 0 a b h 1 z 4)
  | .amMaxPs a b h z => some (encAM 0 a b h 1 z 5)
  | .amMinnPs a b h z => some (encAM 0 a b h 1 z 6)
  | .amMaxnPs a b h z => some (encAM 0 a b h 1 z 7)
  | .fence h s => some (encOR 0 0 h 0 s)
  | .ldAcq d a h s => some (encOR d a h 1 s)
  | .stRel d a h s => some (encOR d a h 2 s)
  | .fenceEngDr h => some (encOR 0 0 h 3 1)
  | .fenceEngPl h => some (encOR 0 0 h 3 2)
  | .fenceEng h => some (encOR 0 0 h 3 3)
  | .sow a h => some (encRR 0x32 0 a 0 h 0 0x00)
  | .sowAt a b h => some (encRR 0x32 0 a b h 0 0x01)
  | .sowCap a b h => some (encRR 0x32 0 a b h 0 0x02)
  | .endTask a h => some (encRR 0x32 0 a 0 h 0 0x03)
  | .yield h => some (encRR 0x32 0 0 0 h 0 0x04)
  | .wfe h => some (encRR 0x32 0 0 0 h 0 0x05)
  | .sev a h => some (encRR 0x32 0 a 0 h 0 0x06)
  | .trigArm a b h => some (encRR 0x32 0 a b h 0 0x08)
  | .trigDec a b h => some (encRR 0x32 0 a b h 0 0x09)
  | .trigRd d a h => some (encRR 0x32 d a 0 h 0 0x0a)
  | .hmask a h => some (encRR 0x32 0 a 0 h 0 0x0b)
  | .yoke a h => some (encRR 0x32 0 a 0 h 0 0x10)
  | .unyoke h => some (encRR 0x32 0 0 0 h 0 0x11)
  | .msgH a h => some (encRR 0x33 0 a 0 h 0 0x00)
  | .msgD a h k => some (encRR 0x33 0 a 0 h k 0x01)
  | .msgGo h => some (encRR 0x33 0 0 0 h 0 0x02)
  | .msgTo a b h => some (encRR 0x33 0 a b h 0 0x03)
  | .mqRd d h k => some (encRR 0x33 d 0 0 h k 0x08)
  | .mqPop h => some (encRR 0x33 0 0 0 h 0 0x09)
  | .mqPeek d h => some (encRR 0x33 d 0 0 h 0 0x0a)
  | .mbPost a b h => some (encRR 0x34 0 a b h 0 0x00)
  | .mbTake a b h => some (encRR 0x34 0 a b h 0 0x01)
  | .gbpAcc a b h => some (encRR 0x34 0 a b h 0 0x08)
  | .gbpSub a b h => some (encRR 0x34 0 a b h 0 0x09)
  | .gbpElim a b h => some (encRR 0x34 0 a b h 0 0x0a)
  | .gbpDamp d a b h => some (encRR 0x34 d a b h 0 0x0b)
  | .gbpRes d a b h => some (encRR 0x34 d a b h 0 0x0c)
  | .rdtime d h => some (encRR 0x35 d 0 0 h 0 0x00)
  | .rdtimeLoc d h => some (encRR 0x35 d 0 0 h 0 0x01)
  | .rdband d a h => some (encRR 0x35 d a 0 h 0 0x02)
  | .rdpos d h => some (encRR 0x35 d 0 0 h 0 0x03)
  | .barArrive h k => some (encRR 0x35 0 0 0 h k 0x08)
  | .barWait h k => some (encRR 0x35 0 0 0 h k 0x09)
  | .barMask a h k => some (encRR 0x35 0 a 0 h k 0x0a)
  | .barStat d h k => some (encRR 0x35 d 0 0 h k 0x0b)
  | .hlStat d h => some (encRR 0x35 d 0 0 h 0 0x10)
  | .hlDefer h => some (encRR 0x35 0 0 0 h 0 0x11)
  | .resume a h => some (encRR 0x36 0 a 0 h 0 0x00)
  | .park h => some (encRR 0x36 0 0 0 h 0 0x01)
  | .faultPost a b h => some (encRR 0x36 0 a b h 0 0x02)
  | .sqTake d a h => some (encRR 0x37 d a 0 h 0 0x00)
  | .sqAdmit d a h => some (encRR 0x37 d a 0 h 0 0x01)
  | .sqRetire a h => some (encRR 0x37 0 a 0 h 0 0x02)
  | .kvGet d a h => some (encRR 0x37 d a 0 h 0 0x08)
  | .kvPut a b h => some (encRR 0x37 0 a b h 0 0x09)
  | .stopTest d a b h => some (encRR 0x37 d a b h 0 0x0a)
  | .plGeo a s => some (encEC 0x38 0x00 a 0 ((0 : BitVec 7) ++ s))
  | .plMma a b z => some (encEC 0x38 0x01 a b ((0 : BitVec 7) ++ z ++ (0 : BitVec 1)))
  | .plMmt a b z => some (encEC 0x38 0x02 a b ((0 : BitVec 7) ++ z ++ (0 : BitVec 1)))
  | .plZacc a b => some (encEC 0x38 0x03 a b 0)
  | .plLdacc a => some (encEC 0x38 0x04 a 0 0)
  | .plStacc a o => some (encEC 0x38 0x05 a 0 ((0 : BitVec 6) ++ o ++ (0 : BitVec 1)))
  | .plWait a => some (encEC 0x38 0x06 a 0 0)
  | .plTile a b z => some (encEC 0x38 0x07 a b ((0 : BitVec 7) ++ z ++ (0 : BitVec 1)))
  | .plFlush => some (encEC 0x38 0x08 0 0 0)
  | .plMmaBlk a b z => some (encEC 0x38 0x41 a b ((0 : BitVec 7) ++ z ++ (0 : BitVec 1)))
  | .plMmtBlk a b z => some (encEC 0x38 0x42 a b ((0 : BitVec 7) ++ z ++ (0 : BitVec 1)))
  | .plTileBlk a b z => some (encEC 0x38 0x47 a b ((0 : BitVec 7) ++ z ++ (0 : BitVec 1)))
  | .drCopyGp a b => some (encEC 0x39 0x00 a b 0)
  | .drCopyPg a b => some (encEC 0x39 0x01 a b 0)
  | .drCopyPp a b => some (encEC 0x39 0x02 a b 0)
  | .drCopyGg a b => some (encEC 0x39 0x03 a b 0)
  | .drGathG a b => some (encEC 0x39 0x04 a b 0)
  | .drGathP a b => some (encEC 0x39 0x05 a b 0)
  | .drScatG a b => some (encEC 0x39 0x06 a b 0)
  | .drScatP a b => some (encEC 0x39 0x07 a b 0)
  | .drFillG a b => some (encEC 0x39 0x08 a b 0)
  | .drFillP a b => some (encEC 0x39 0x09 a b 0)
  | .drWait a => some (encEC 0x39 0x0a a 0 0)
  | .vaddF32 d a b => some (encVR 0x3c d a b 0 0x00)
  | .vaddS32 d a b => some (encVR 0x3c d a b 0 0x01)
  | .vsubF32 d a b => some (encVR 0x3c d a b 0 0x02)
  | .vsubS32 d a b => some (encVR 0x3c d a b 0 0x03)
  | .vmulF32 d a b => some (encVR 0x3c d a b 0 0x04)
  | .vmulS32 d a b => some (encVR 0x3c d a b 0 0x05)
  | .vfmaF32 d a b c => some (encVR 0x3c d a b c 0x06)
  | .vfnmF32 d a b c => some (encVR 0x3c d a b c 0x07)
  | .vminF32 d a b => some (encVR 0x3c d a b 0 0x08)
  | .vminS32 d a b => some (encVR 0x3c d a b 0 0x09)
  | .vminN32 d a b => some (encVR 0x3c d a b 0 0x0a)
  | .vmaxF32 d a b => some (encVR 0x3c d a b 0 0x0b)
  | .vmaxS32 d a b => some (encVR 0x3c d a b 0 0x0c)
  | .vmaxN32 d a b => some (encVR 0x3c d a b 0 0x0d)
  | .vabsF32 d a => some (encVR 0x3c d a 0 0 0x0e)
  | .vabsS32 d a => some (encVR 0x3c d a 0 0 0x0f)
  | .vnegF32 d a => some (encVR 0x3c d a 0 0 0x10)
  | .vnegS32 d a => some (encVR 0x3c d a 0 0 0x11)
  | .vrcpF32 d a => some (encVR 0x3c d a 0 0 0x12)
  | .vrsqF32 d a => some (encVR 0x3c d a 0 0 0x13)
  | .vand d a b => some (encVR 0x3c d a b 0 0x14)
  | .vor d a b => some (encVR 0x3c d a b 0 0x15)
  | .vxor d a b => some (encVR 0x3c d a b 0 0x16)
  | .vsll d a b => some (encVR 0x3c d a b 0 0x17)
  | .vsrl d a b => some (encVR 0x3c d a b 0 0x18)
  | .vsra d a b => some (encVR 0x3c d a b 0 0x19)
  | .vsel d a b c => some (encVR 0x3c d a b c 0x1a)
  | .vdotF32 d a b => some (encVR 0x3c d a b 0 0x1b)
  | .vsclF32 d a b => some (encVR 0x3c d a b 0 0x1c)
  | .vcmpEqF32 d a b => some (encVR 0x3c d a b 0 0x20)
  | .vcmpNeF32 d a b => some (encVR 0x3c d a b 0 0x21)
  | .vcmpLtF32 d a b => some (encVR 0x3c d a b 0 0x22)
  | .vcmpLeF32 d a b => some (encVR 0x3c d a b 0 0x23)
  | .vcmpEqS32 d a b => some (encVR 0x3c d a b 0 0x24)
  | .vcmpNeS32 d a b => some (encVR 0x3c d a b 0 0x25)
  | .vcmpLtS32 d a b => some (encVR 0x3c d a b 0 0x26)
  | .vcmpLeS32 d a b => some (encVR 0x3c d a b 0 0x27)
  | .vcmpLtN32 d a b => some (encVR 0x3c d a b 0 0x2a)
  | .vcmpLeN32 d a b => some (encVR 0x3c d a b 0 0x2b)
  | .vraddF32 d a => some (encVR 0x3c d a 0 0 0x30)
  | .vraddS32 d a => some (encVR 0x3c d a 0 0 0x31)
  | .vrmaxF32 d a => some (encVR 0x3c d a 0 0 0x32)
  | .vrmaxS32 d a => some (encVR 0x3c d a 0 0 0x33)
  | .vrminF32 d a => some (encVR 0x3c d a 0 0 0x34)
  | .vrminS32 d a => some (encVR 0x3c d a 0 0 0x35)
  | .vrmaxiF32 d a => some (encVR 0x3c d a 0 0 0x36)
  | .vcvtF32S32 d a => some (encVR 0x3d d a 0 0 0x00)
  | .vcvtS32F32 d a => some (encVR 0x3d d a 0 0 0x01)
  | .vcvtBf16F32 d a => some (encVR 0x3d d a 0 0 0x02)
  | .vcvtF16F32 d a => some (encVR 0x3d d a 0 0 0x03)
  | .vcvtF32Bf16 d a => some (encVR 0x3d d a 0 0 0x04)
  | .vcvtF32F16 d a => some (encVR 0x3d d a 0 0 0x05)
  | .vcvtE4m3F32 d a => some (encVR 0x3d d a 0 0 0x06)
  | .vcvtE5m2F32 d a => some (encVR 0x3d d a 0 0 0x07)
  | .vcvtF32E4m3 d a => some (encVR 0x3d d a 0 0 0x08)
  | .vcvtF32E5m2 d a => some (encVR 0x3d d a 0 0 0x09)
  | .vpackS16 d a b => some (encVR 0x3d d a b 0 0x10)
  | .vpackN16 d a b => some (encVR 0x3d d a b 0 0x11)
  | .vpackS8 d a b => some (encVR 0x3d d a b 0 0x12)
  | .vpackN8 d a b => some (encVR 0x3d d a b 0 0x13)
  | .vunpkS16 d a k => some (encVR 0x3d d a 0 k 0x14)
  | .vunpkN16 d a k => some (encVR 0x3d d a 0 k 0x15)
  | .vunpkS8 d a k => some (encVR 0x3d d a 0 k 0x16)
  | .vunpkN8 d a k => some (encVR 0x3d d a 0 k 0x17)
  | .vbcast d a => some (encVR 0x3d d a 0 0 0x20)
  | .vext d a k => some (encVR 0x3d d a 0 k 0x21)
  | .vins d a k => some (encVR 0x3d d a 0 k 0x22)
  | .vperm d a b => some (encVR 0x3d d a b 0 0x23)
  | .vrot d a k => some (encVR 0x3d d a 0 k 0x24)
  | .vshfl d a b => some (encVR 0x3d d a b 0 0x25)
  | .ldgV d a b => some (encVR 0x3d d a b 0 0x28)
  | .stgV d a b => some (encVR 0x3d d a b 0 0x29)
  | .brk => some (brkWord)
  | .illegalInstruction _ => none
  | .migrate _ => none
  | .dispatch _ => none
  | .partitionChange _ => none
  | .concurrentDispatch _ _ => none
  | .gleanCluster _ => none
  | .gleanHolding _ => none
  | .restoreSeedMove _ => none
  | .handlerWatchdog _ => none
  | .deliver _ _ => none
  | .faultRecordOffer _ => none
  | .ploughGrant _ _ => none
  | .tileCommit _ _ => none
  | .drillRow _ => none
  | .atsCompletion _ _ _ => none
  | .pageRequestResponse _ _ _ _ => none
  | .atsInvalidation _ _ _ => none
  | .uncorrectableError _ => none
  | .hostWrite _ _ _ _ => none
  | .hostRead _ _ _ => none
  | .lateReply _ => none
  | .drain _ => none
  | .drainWatchdog _ => none
  | .headlandMove _ => none
  | .headlandResume _ => none
  | .gangSwitch _ => none
  | .timeBeacon _ _ _ => none
  | .arbiterEpoch _ _ _ => none
  | .wearUpdate _ _ _ _ => none
  | .coreFailure _ => none
  | .retireCore _ _ => none
  | .launchTake _ => none
  | .launchComplete _ _ => none
  | .walkerPush _ => none
  | .walkerCompletion _ => none
  | .ringEnable _ _ _ => none
  | .svCqHeadWrite _ _ => none
  | .kvCountWrite _ _ => none
  | .hlCtlWrite _ _ _ => none
  | .create _ _ _ => none
  | .destroy _ _ _ => none
  | .stop _ _ _ _ => none
  | .start _ _ _ => none
  | .switchOut _ _ _ => none
  | .switchIn _ _ _ => none
  | .setWd _ _ _ => none
  | .resetHolding _ _ _ _ => none
  | .estateReset _ _ _ _ _ => none
  | .functionLevelReset _ _ => none
  | .partitionModeWrite _ _ => none
  | .survey _ _ _ _ => none
  | .svResume _ _ => none
  | .setDbg _ _ => none
  | .stewardClaim _ _ => none
  | .stewardResign _ _ => none
  | .stewardHandover _ _ => none
  | .stwBeat _ => none
  | .stewardLapse _ => none
  | .stwStatRead _ => none
  | .linkStateChange _ _ => none
  | .collectiveTake _ => none
  | .collectiveComplete _ _ _ => none
  | .collectiveTimeout _ _ _ => none
  | .abandonNotice _ _ _ => none
  | .exportTicket _ _ => none
  | .importTicket _ _ _ _ => none
  | .importComplete _ _ => none
  | .harvest _ _ => none
  | .harvestCut _ => none
  | .restore _ _ => none
  | .attest _ _ _ => none
  | .powerOn _ => none
  | .registerWrite _ _ _ _ => none
  | .msiXUnmask _ _ => none
  | .transplantTicketCheck _ => none

end Sys2Proof
end

