-- ==== Sys2Proof/Machine/Flags.lean ====
section
/-! DEFINITION. Conditions. The spec gives the machine no flags: a comparison yields a register value or decides a branch
(06 R137, R143). -/

namespace Sys2Proof.Machine

/-- Signed(A) < Signed(B). -/
def ltS (a b : Word) : Bool := a.slt b
/-- Nat(A) < Nat(B). -/
def ltN (a b : Word) : Bool := a.ult b

/-- The conditions of the RB branches (06 R143). -/
inductive Cond where
  | eq
  | ne
  | lt
  | ge
  | ltn
  | gen
deriving DecidableEq, Repr

/-- When a branch is taken. -/
def Cond.holds (c : Cond) (a b : Word) : Bool :=
  match c with
  | .eq => a = b
  | .ne => a ≠ b
  | .lt => ltS a b
  | .ge => !ltS a b
  | .ltn => ltN a b
  | .gen => !ltN a b

end Sys2Proof.Machine
end

