-- ==== Sys2Proof/Machine/Bits.lean ====
section
/-! DEFINITION. Bit fields, widening, byte order and sorted memories: the helpers that the meanings share. -/

namespace Sys2Proof.Machine

/-- Bits [hi:lo] of a word, as a natural number (00 R2). -/
def bits (w : Word) (hi lo : Nat) : Nat := (w.toNat / 2 ^ lo) % 2 ^ (hi + 1 - lo)

/-- Bit `i` of a word. -/
def bit (w : Word) (i : Nat) : Bool := w.getLsbD i

/-- A natural number as a 64-bit word, modulo 2^64. -/
def word (n : Nat) : Word := BitVec.ofNat 64 n

/-- 1 for true, 0 for false. -/
def ofBool (b : Bool) : Word := if b then 1 else 0

/-- A field value placed at bit `lo`. -/
def place (n lo : Nat) : Word := word (n * 2 ^ lo)

/-- ZExt(x, n) (00): the low n bits of x. -/
def zext (x : Word) (n : Nat) : Word := word (x.toNat % 2 ^ n)

/-- SExt(x, n) (00): the low n bits of x as a two's-complement value, for n of at least 1. -/
def sext (x : Word) (n : Nat) : Word :=
  let v := x.toNat % 2 ^ n
  if v < 2 ^ (n - 1) then word v else BitVec.ofInt 64 ((v : Int) - 2 ^ n)

/-- A 32-bit result sign-extended to 64 bits (06 R140). -/
def sext32 (x : W32) : Word := x.signExtend 64

/-- The low 32 bits. -/
def lo32 (x : Word) : W32 := x.setWidth 32

/-- sext(imm16) (03 R54). -/
def simm (i : BitVec 16) : Word := i.signExtend 64

/-- Little-endian bytes of a number (00 R2). -/
def toBytes : (len n : Nat) → List Byte
  | 0, _ => []
  | k + 1, n => BitVec.ofNat 8 n :: toBytes k (n / 256)

/-- The number that little-endian bytes hold. -/
def ofBytes : List Byte → Nat
  | [] => 0
  | b :: bs => b.toNat + 256 * ofBytes bs

/-- The doublewords that bytes hold, eight bytes each. -/
def wordsOf : (n : Nat) → List Byte → List Word
  | 0, _ => []
  | n + 1, bs => word (ofBytes (bs.take 8)) :: wordsOf n (bs.drop 8)

/-- The bytes of doublewords. -/
def bytesOf (ws : List Word) : List Byte := ws.flatMap fun w => toBytes 8 w.toNat

/-- Bytes `at` to `at + len - 1` of a byte string, as a number. -/
def field (bs : List Byte) (start len : Nat) : Nat := ofBytes ((bs.drop start).take len)

/-- The address `off` bytes above `a`, modulo 2^64. -/
def addr (a : Word) (off : Nat) : Word := a + word off

/-- The smaller of a number and a bound, as a saturating field holds it. -/
def saturate (n top : Nat) : Nat := if n ≤ top then n else top

/-- Rounded-up quotient. -/
def ceilDiv (n d : Nat) : Nat := (n + d - 1) / d

/-- Replaces the element at an index of a list. -/
def setAt {α : Type} : List α → Nat → α → List α
  | [], _, _ => []
  | _ :: xs, 0, y => y :: xs
  | x :: xs, n + 1, y => x :: setAt xs n y

/-- Removes the element at an index of a list. -/
def removeAt {α : Type} : List α → Nat → List α
  | [], _ => []
  | _ :: xs, 0 => xs
  | x :: xs, n + 1 => x :: removeAt xs n

/-- The index of the first element that satisfies `p`. -/
def indexOf {α : Type} (p : α → Bool) : List α → Option Nat
  | [] => none
  | x :: xs => if p x then some 0 else (indexOf p xs).map (· + 1)

/-- The first number below `n` counted from `start`, cyclically, that satisfies `p`. -/
def cyclic (n start : Nat) (p : Nat → Bool) : Option Nat :=
  ((List.range n).map fun i => (start + i) % n).find? p

/-! ## Byte memories

A memory lists its non-zero bytes by rising address: an unlisted byte reads 0 (log 10; for pools, 07 R151). -/

/-- The bytes of a memory that are not 0, with strictly rising addresses. -/
abbrev Memory := List (Nat × Byte)

/-- The byte at an address. -/
def Memory.get : Memory → Nat → Byte
  | [], _ => 0
  | (j, v) :: m, k => if j = k then v else Memory.get m k

/-- Puts a pair at its place, or removes the entry when the byte is 0. -/
def Memory.set : Memory → Nat → Byte → Memory
  | [], k, v => if v = 0 then [] else [(k, v)]
  | (j, w) :: m, k, v =>
    if j = k then (if v = 0 then m else (k, v) :: m)
    else if k < j then (if v = 0 then (j, w) :: m else (k, v) :: (j, w) :: m)
    else (j, w) :: Memory.set m k v

/-- Every listed address lies above `k`, addresses rise strictly, and no listed byte is 0. -/
def Memory.wfAbove : Nat → Memory → Bool
  | _, [] => true
  | k, (j, v) :: m => decide (k ≤ j) && decide (v ≠ 0) && Memory.wfAbove (j + 1) m

/-- The canonical form of a memory. -/
def Memory.wf (m : Memory) : Bool := Memory.wfAbove 0 m

/-- Bytes at rising addresses. -/
def Memory.read (m : Memory) : (k len : Nat) → List Byte
  | _, 0 => []
  | k, len + 1 => m.get k :: Memory.read m (k + 1) len

/-- Writes bytes at rising addresses. -/
def Memory.write (m : Memory) : Nat → List Byte → Memory
  | _, [] => m
  | k, b :: bs => Memory.write (m.set k b) (k + 1) bs

/-- Writes pairs of address and byte. -/
def Memory.writeAll (m : Memory) : List (Nat × Byte) → Memory
  | [] => m
  | (k, b) :: ps => Memory.writeAll (m.set k b) ps

end Sys2Proof.Machine
end

