-- ==== Sys2Proof/Config.lean ====
section
/-! DEFINITION. What the part fixes once and for all (sizes that the spec states) and the free values: opaque
constants without a body, of which no proof can learn a value. -/

namespace Sys2Proof.Config

/-- Bytes of one memory stack: 128 GB, decimal (00 R4, 01 R25). -/
def stackBytes : Nat := 128000000000
/-- Bytes of one core's pool (07, opening; 01 R16 table). -/
def poolBytes : Nat := 262144
/-- Memory slices of a die (01 R17, R25). -/
def dieSlices : Nat := 16
/-- Bytes of one memory slice: 4 MiB (01 R17, R25). -/
def sliceBytes : Nat := 4194304
/-- Entries of a die's translation cache (10 R221). -/
def tlbEntries : Nat := 16384
/-- Outstanding translation requests of a die (10 R221). -/
def atsRequests : Nat := 128
/-- Seeds of a deque (05 R100). -/
def dequeSeeds : Nat := 32
/-- Seeds of a die's ready queue (05 R103). -/
def readySeeds : Nat := 4096
/-- Messages of a slot's send buffer (05 R106). -/
def sendPlaces : Nat := 8
/-- Records of a holding's fault queue (12 R267). -/
def faultRecords : Nat := 64
/-- Entries of a core's range-lock table (10 R229). -/
def lockEntries : Nat := 16
/-- Entries of a plough queue and of a drill queue (09 R191, 10 R232). -/
def engineEntries : Nat := 2
/-- The drain watchdog, in core cycles (16 R334). -/
def drainCycles : Nat := 16384
/-- Local time between the beacons of a region, in ns (14 R303). -/
def beaconNs : Nat := 4096
/-- Panel time between the epochs of the power arbiter, in ns (21 R431). -/
def epochNs : Nat := 2000
/-- Panel time between the updates of a wear entry, in ns: once per second (21 R434). -/
def wearNs : Nat := 1000000000
/-- The longest postponement of a headland, in ns (16 R348). -/
def deferNs : Nat := 15604

/-- FREE VALUE (log 17): the latency band of global memory fused for each half-die, die and partition mode
(14 R308); any of 0 to 3. -/
opaque memBand : (mode : Nat) → (die : Nat) → (south : Bool) → BitVec 2
/-- FREE VALUE (log 17): whether the path to global memory crosses a die boundary (bit 1) and the stitch (bit 0), which
14 R307 has entry 4 report and no rule states. -/
opaque memPath : (mode : Nat) → (die : Nat) → (south : Bool) → BitVec 2
/-- FREE VALUE (log 79): how many messages of a class beyond the reserved one the routers have room for on the way from a
core of a holding; the shared space of 13 R279 has no stated size. -/
opaque routerShared : (hx hy cls : Nat) → Nat
/-- FREE VALUE (log 28): the home slice of a 64-byte line of the stacks, a hash that 10 R225 does not give; the model takes it modulo
the number of the estate's slices. -/
opaque homeSlice : (mode line : Nat) → Nat
/-- FREE VALUE (log 141): what the index field of a sequence's completion holds where it ends with LIMIT, by the tokens counted; 18 R374
gives an index for a stop token and for a software reason only. -/
opaque limitIndex : BitVec 32 → BitVec 8
/-- FREE VALUE (log 109): how the 4-bit duty field of PWR.DIE shows a duty of 16 (21 R433). -/
opaque fullDuty : BitVec 4
/-- FREE VALUE (log 26): the SM3 digest, a function of its input that the spec does not define (20 R427). -/
opaque sm3 : List Byte → List Byte
/-- FREE VALUE (log 26): the SM2 signature made with the identity key (20 R428). -/
opaque sm2Sign : List Byte → List Byte
/-- FREE VALUE (log 26): the public identity key in fuses (20 R427). -/
opaque publicKey : List Byte
/-- FREE VALUE (log 26): the running firmware image (20 R428). -/
opaque firmware : List Byte
/-- FREE VALUE (log 26): the DER certificates of the identity key's chain, the identity first and the root last (20 R418,
R428). -/
opaque certificates : List (List Byte)
/-- FREE VALUE (log 27): which of the packages, in ascending id order, a broadcast sends from; 20 R420 names none. -/
opaque broadcastRoot : List (BitVec 48) → Nat
/-- FREE VALUE (log 3): a value the spec leaves open, by the model's counter. -/
opaque freeWord : Nat → Word
/-- FREE VALUE (log 37): a byte that an engine reads beyond pool space, by the model's counter and the byte's offset. -/
opaque freeByte : (count place : Nat) → Byte

end Sys2Proof.Config
end

