-- ==== Sys2Proof/Machine/Parts.lean ====
section
/-! DEFINITION. The parts of the device that the state holds as data: seeds, messages, trigger entries, tasks, slots,
engine operations, cores, die images, holdings with their serving resources, estates and the host blocks. Reset values
stand beside the fields that the spec gives one for. -/

namespace Sys2Proof.Machine

/-! ## Seeds and messages -/

/-- A home core and slot of a migration, by the coordinates that never change at a headland (12 R271, 16 R24). -/
structure HomeRef where
  hold : HoldRef
  hdie : Nat
  core : CoreIdx
  slot : SlotId
deriving DecidableEq, Repr, Inhabited

/-! ## Locations and buffered stores (11 R245) -/

/-- The bytes of an access: of a pool, or of the stacks with their virtual address and PASID. -/
inductive Loc where
  | pool (core : CoreRef) (off len : Nat)
  | mem (keys : List Nat) (pasid : BitVec 20) (ea : Nat)
deriving DecidableEq, Repr, Inhabited

/-- The operations of the posted atomics (10 R240), and the insertion of a bit field by `stbit` (07 R158). -/
inductive AmKind where
  | add
  | and
  | or
  | xor
  | min
  | max
  | minn
  | maxn
  | bits (shift width : Nat)
deriving DecidableEq, Repr, Inhabited

/-- A store that is visible to its slot alone as yet (11 R245): the holding it is made for, the home of a migrated task that made it,
its location and its bytes. A posted atomic is a store too (R243): its operation `am` on its operand `bytes` is done when it is
performed, and so is the read-modify-write of a `stbit` (07 R158). `mate`: it stands at the same place in program order as the store
before it in the list, as the doublewords of one `st.v` or of one record and the lanes of one `stg.v` do (08 R176, R177, 17 R356).
`whole`: it is part of the write of a whole line, with poisoned data or not (10 R226). `release`: it is a `st.rel` (11 R250). -/
structure BufferedStore where
  hold : HoldRef
  home : Option HomeRef
  loc : Loc
  bytes : List Byte
  am : Option AmKind := none
  mate : Bool := false
  whole : Option Bool := none
  release : Bool := false
deriving DecidableEq, Repr, Inhabited

/-- Which places of a message queue a message holds (13 R287). -/
inductive Place where
  | none
  | reserved
  | shared
deriving DecidableEq, Repr, Inhabited

/-- A message: header and payload (13 R283), the decrement that is applied for it (05 R97), the arrival serial once it is
accepted (12 R265) and the place it holds. -/
structure Msg where
  header : Word := 0
  payload : List Word := []
  dec : BitVec 16 := 0
  serial : BitVec 16 := 0
  place : Place := .none
deriving DecidableEq, Repr, Inhabited

/-- What a migrating seed carries beside the seed (12 R271, 16 R344): its home, the capability set of the opcode that
trapped, and for a triggered task its entry and its current message. -/
structure Migrant where
  home : HomeRef
  set : BitVec 8
  entry : Option (BitVec 8)
  msg : Option Msg
deriving DecidableEq, Repr, Inhabited

/-- A seed (05 R93) with its launch parameters (R104): the partition word and the launch tag, which refers to the pool
data and the routes; the core it is bound to (02 R42), its held mark (R100), the mark that its launch's pool data must be
in the scratchpad before it starts (R104 where it was gleaned, 02 R48), the mark that it waits for the start of a concurrent
launch (R105), and the migration it carries. -/
structure Seed where
  pc : Word := 0
  args : Vector Word 4 := Vector.replicate 4 0
  cw : Word := 0
  part : Word := 3
  tag : Option Nat := none
  bound : Option CoreIdx := none
  held : Bool := false
  shipped : Bool := false
  waits : Bool := false
  mig : Option Migrant := none
deriving DecidableEq, Repr, Inhabited

/-! ## Trigger entries (05 R96) -/

inductive TrigState where
  | idle
  | armed
  | runnable
  | running
deriving DecidableEq, Repr, Inhabited

/-- What `trig.arm` records (R120): handler, priority, reload bit, count, control doubleword and launch tag (18 R372). -/
structure Arm where
  handler : Word := 0
  prio : BitVec 2 := 0
  reload : Bool := false
  count : BitVec 16 := 0
  cw : Word := 0
  tag : Option Nat := none
deriving DecidableEq, Repr, Inhabited

/-- A trigger entry. `arm.count` is its reload count; `held` is an arm held under R99 or R120. `away` is the current message of
its task while that task is migrating or migrated: its place stays in the home core's queue (13 R287). -/
structure Trigger where
  state : TrigState := .idle
  count : BitVec 16 := 0
  arm : Arm := {}
  mask : Bool := false
  ret : Bool := false
  pend : List Msg := []
  fire : Option Msg := none
  held : Option Arm := none
  away : Option Msg := none
deriving DecidableEq, Repr, Inhabited

/-! ## Tasks and slots -/

/-- How a task began (05 R89). -/
inductive TaskKind where
  | seeded (seed : Seed)
  | triggered (entry : BitVec 8)
deriving DecidableEq, Repr, Inhabited

/-- A message of a send buffer (05 R106, 13 R292). `inner` marks a message that an inline child built. -/
structure Draft where
  header : Word
  payload : List Word
  closed : Bool
  inner : Bool
deriving DecidableEq, Repr, Inhabited

/-- What the hardware keeps of an inline caller beside the register image (05 R102, 13 R291): its mark of `hl.defer` (16 R348) and the
words that it has fetched (11 R442) among it. -/
structure Caller where
  id : Nat
  kind : TaskKind
  msg : Option Msg
  cw : Word
  tag : Option Nat
  deferring : Bool
  kept : FMap W32
deriving DecidableEq, Repr, Inhabited

/-- Who issued an engine operation, as its fault report needs (12 R261, R265). `ident` and `emitted` are doublewords 4
and 5 of the record, kept up to the moment at which the task leaves its slot. `seq` numbers operations in issue order
(log 4). -/
structure Origin where
  seq : Nat := 0
  slot : SlotId := 0
  task : Nat := 0
  pc : Word := 0
  cw : Word := 0
  tag : Option Nat := none
  home : Option HomeRef := none
  ident : Word := 0
  emitted : Word := 0
deriving DecidableEq, Repr, Inhabited

/-- A cause raised by an engine operation, to be taken before the task's next instruction (12 R261). -/
structure AsyncFault where
  cause : BitVec 8
  origin : Origin
  info : Word
  addr : Word
deriving DecidableEq, Repr, Inhabited

/-- What a waiting instruction waits for: slots of a ring to consume or to fill (07 R165) or the release of a barrier (15 R320),
which may hold for a moment only, or its core's plough queue, which may be suspended (09 R211). -/
inductive WaitOn where
  | need (k : BitVec 4) (n : Nat)
  | room (k : BitVec 4) (n : Nat)
  | barrier (k : BitVec 4)
  | plough
deriving DecidableEq, Repr, Inhabited

/-- A task (05 R89, R91). `emitted` counts the words written to `fw`, `pn`, `pe`, `ps` and `pw` (12 R265). `wd` counts
the cycles of occupation and `w` is the exponent in force at dispatch (05 R109, 19 R399). `home` is set for a task on a
migration target (12 R272). `reyoke` is the target it waits for (05 R122), `yokeN` the size it waits to fuse and the register that named it (R111).
`async` lists the engine causes that wait for the next instruction, oldest first (12 R261). `waiting` is the model's mark that
the current instruction has waited (log 19), with what it waits `on` and the mark `met` that the condition has held since.
`stepped` is its mark of a single step of the instruction at that address, taken at the task's next turn, with whether the
next fetch comes first (06 R147). `kept` holds the words that the task fetched ahead, by address (11 R442), and `parts` the parts of
the vector load at the program counter that have been performed ahead of the others, by number, with their locations (08 R176,
R177). `id` is the model's (log 4). -/
structure Task where
  id : Nat := 0
  pc : Word := 0
  g : Vector Word 32 := Vector.replicate 32 0
  v : Vector VReg 32 := Vector.replicate 32 0
  args : Vector Word 4 := Vector.replicate 4 0
  cw : Word := 0
  kind : TaskKind := .triggered 0
  tag : Option Nat := none
  msg : Option Msg := none
  buf : List Draft := []
  wd : Nat := 0
  w : Nat := 20
  emitted : Vector Nat 5 := Vector.replicate 5 0
  caller : Option Caller := none
  home : Option HomeRef := none
  deferring : Bool := false
  async : List AsyncFault := []
  yokeN : Option (Nat × Reg) := none
  reyoke : Option Word := none
  waiting : Bool := false
  on : Option WaitOn := none
  met : Bool := false
  stepped : Option (Word × Bool) := none
  kept : FMap W32 := []
  parts : FMap (Option (Loc × List Byte)) := []
deriving DecidableEq, Repr, Inhabited

/-- A thread slot (05 R90). `restore` is the restore place (R99), which holds one seed but for log 95. `migrating` is the seed of a task
aborted under cause 0x40 whose migration steps are not done (12 R271), `reserved` the concurrent launch that reserved it (R105). `parkedEntry` lists the trigger entries whose aborted tasks parked the
slot (12 R274). `stores` holds the slot's stores that are not yet visible beyond it, oldest first (11 R245). `after` is the
model's list of the slots that held a task when this one yielded and have not issued since (R118). -/
structure Slot where
  task : Option Task := none
  event : Bool := false
  parked : Bool := false
  halted : Bool := false
  parkedEntry : List (BitVec 8) := []
  restore : List Seed := []
  reserved : Option Nat := none
  migrating : Option Seed := none
  stores : List BufferedStore := []
  after : List SlotId := []
deriving DecidableEq, Repr, Inhabited

/-! ## Circular buffers and engines -/

/-- A circular-buffer handle (07 R159). -/
structure Handle where
  init : Bool := false
  base : Word := 0
  size : Nat := 0
  slots : Nat := 0
  head : Nat := 0
  tail : Nat := 0
  fill : Nat := 0
  prod : BitVec 2 := 0
  cons : BitVec 1 := 0
deriving DecidableEq, Repr, Inhabited

/-- The space of a locked interval (10 R229): the pool of a core of the die, or the virtual addresses of a PASID. -/
inductive LockSpace where
  | pool (core : CoreIdx)
  | virt (pasid : BitVec 20)
deriving DecidableEq, Repr, Inhabited

/-- A range-lock entry (10 R229): first and last byte, and whether it is a write entry. -/
structure Lock where
  space : LockSpace
  first : Nat
  last : Nat
  write : Bool
deriving DecidableEq, Repr, Inhabited

inductive PlKind where
  | mma
  | mmt
  | tile
  | zacc
  | ldacc
  | stacc
deriving DecidableEq, Repr, Inhabited

/-- A side of a plough operation: a pool descriptor (09 R199) or the bytes of a copied register group (R200). -/
inductive PlSide where
  | desc (d : Word)
  | regs (bytes : List Byte)
deriving DecidableEq, Repr, Inhabited

/-- A plough operation in a queue (09 R191, R192): what it captured at issue, the records sampled at start, the next tile
index and the range-lock entries it holds. `ti`, `tj` are the tile of `pl.tile` (R216); for `pl.zacc`, `unit` and `tiles`
are its units. -/
structure PlOp where
  kind : PlKind
  blk : Bool := false
  origin : Origin := {}
  m : Nat := 0
  n : Nat := 0
  k : Nat := 0
  unit : Nat := 0
  mtot : Nat := 0
  ntot : Nat := 0
  ti : Int := 0
  tj : Int := 0
  a : PlSide := .desc 0
  b : PlSide := .desc 0
  z : Bool := false
  out : BitVec 2 := 0
  tiles : Nat := 0
  next : Nat := 0
  started : Bool := false
  fmtA : Word := 0
  fmtB : Word := 0
  sclA : Word := 0
  sclB : Word := 0
  locks : List Lock := []
deriving DecidableEq, Repr, Inhabited

inductive DrKind where
  | copyGp
  | copyPg
  | copyPp
  | copyGg
  | gathG
  | gathP
  | scatG
  | scatP
  | fillG
  | fillP
deriving DecidableEq, Repr, Inhabited

/-- A drill operation in a queue (10 R232, R233): the descriptor copied at issue, the index list, the next row and the
entries it holds. -/
structure DrOp where
  kind : DrKind
  origin : Origin := {}
  pasid : BitVec 20 := 0
  dst : Word := 0
  src : Word := 0
  len : Nat := 0
  dpitch : Int := 0
  spitch : Int := 0
  dring : Option (BitVec 4) := none
  sring : Option (BitVec 4) := none
  pat : Word := 0
  n : Nat := 0
  list : List Nat := []
  next : Nat := 0
  started : Bool := false
  locks : List Lock := []
deriving DecidableEq, Repr, Inhabited

/-! ## Cores and die images -/

/-- The per-core system registers and the plough geometry (06 R134, 09 R197), with their reset values. -/
structure CoreRegs where
  fmtA : Word := 0
  fmtB : Word := 0
  sclA : Word := 0
  sclB : Word := 0
  plWt : Word := 1
  gbpEps : Word := 0
  dbg : Word := 0
  fltCause : Word := 0
  fltPc : Word := 0
  fltAddr : Word := 0
  fltInfo : Word := 0
  geo0 : Word := 0
  geo1 : Word := 0
  geo2 : Word := 0
deriving DecidableEq, Repr, Inhabited

/-- The bytes of a pool (07): the listed bytes that are not zero, the dirty lines (R151) and the poisoned lines
(10 R226), each by its pool offset or line number. -/
structure Pool where
  bytes : List (Nat × Byte) := []
  dirty : NSet := []
  poison : NSet := []
deriving DecidableEq, Repr, Inhabited

/-- What a migration saves of its target core (12 R272), with the home of the migrated task, the pool lines that the task has
written since, the launch whose pool data the target's own pool holds, and the numbers of the per-core registers that it has written since (geometry register i as 0x1000 + i). -/
structure SavedCore where
  home : HomeRef
  lines : NSet
  pool : Pool
  poolOf : Option Nat
  regs : CoreRegs
  part : Word
  wrote : NSet
deriving DecidableEq, Repr, Inhabited

/-- A core's state, which marches with its die. Its default value is a core of a newly created holding (06 R133,
07 R151, 05 R96). `poolOf` is the launch whose pool data the scratchpad holds (05 R104). `plHeld`: a block-form operation
suspends the core's plough queue on a lean die (09 R211). -/
structure Core where
  part : Word := 3
  slots : Vector Slot 4 := Vector.replicate 4 {}
  deque : List Seed := []
  rr : Fin 257 := 0
  trig : FMap Trigger := []
  serial : BitVec 16 := 0
  handles : Vector Handle 16 := Vector.replicate 16 {}
  pool : Pool := {}
  poolOf : Option Nat := none
  fwIn : List Word := []
  portIn : Vector (List Word) 4 := Vector.replicate 4 []
  plq : List PlOp := []
  drq : List DrOp := []
  plHeld : Bool := false
  regs : CoreRegs := {}
  excused : BitVec 16 := 0xFFFF
  arrived : BitVec 16 := 0
  saved : Option SavedCore := none
deriving DecidableEq, Repr, Inhabited

/-- A yoke (05 R111, R112): its size, its lowest cluster index, the attached cores with their slots (the leader first)
and the dissenters. -/
structure Yoke where
  n : Nat
  base : Nat
  attached : List (Nat × SlotId)
  loose : List (Nat × SlotId)
deriving DecidableEq, Repr, Inhabited

/-- A cluster's plough pointers (09 R195), the core whose tile is in progress, and the cluster's yokes. -/
structure Cluster where
  p : Fin 8 := 7
  cr : Nat := 0
  running : Option (Fin 8) := none
  yokes : List Yoke := []
deriving DecidableEq, Repr, Inhabited

/-- The state of a die that marches (16 R337): cores by their index in the die (a core that is not listed is as at CREATE, but for the
event-pending bits of its slots, `events`), the ready queue (05 R103) and the scheduler's pointers. `stood` lists the holding cores
that stood on a retired core when the image last stood on a die (R444). -/
structure Image where
  cores : FMap Core := []
  events : Bool := false
  stood : NSet := []
  ready : List Seed := []
  served : CoreIdx := 479
  visitPasid : BitVec 20 := 0xFFFFF
  visitLeft : Nat := 0
  gleanUp : Bool := false
  clusters : Vector Cluster 60 := Vector.replicate 60 {}
deriving DecidableEq, Repr, Inhabited

/-! ## What stays with a physical die -/

/-- A time counter of a half-die (14 R302) and its offset to panel time (R303), with the measured offset that the
hardware slews it toward, the local time since its last slew, and the local time since its last beacon. `base` is the offset as it was
at that beacon, `budget` how far `toff` may still move, in ten-thousandths of a ns, and `credit` how far the counter may still drift
from true time, in twenty-thousandths of a ns (log 12). -/
structure Region where
  count : Word := 0
  toff : Word := 0
  target : Word := 0
  since : Nat := 0
  beacon : Nat := 0
  base : Word := 0
  budget : Nat := 0
  credit : Nat := 20000
deriving DecidableEq, Repr, Inhabited

/-- An entry of a translation cache (10 R221): page is the first byte of the virtual page. -/
structure TlbEntry where
  pasid : BitVec 20
  page : Nat
  size : PageSize
  frame : Nat
  read : Bool
  write : Bool
  exec : Bool
deriving DecidableEq, Repr

/-- Who waits for a translation: a thread slot of the die's cores, a core's drill row, the launch loader of a holding (02 R48), or
nobody any more: the access was abandoned, and the answer is only cached (10 R224). -/
inductive Waiter where
  | slot (core : CoreIdx) (slot : SlotId)
  | drill (core : CoreIdx)
  | loader (h : HoldRef)
  | gone
deriving DecidableEq, Repr, Inhabited

/-- The stages of a miss (10 R221, R222): an ATS request, a page request with the cause that a refusal raises and the function
of whose allocation it takes one, a repeated ATS request, a failed access, and an ATS request whose image has moved on, so that
its reply is discarded (16 R342). -/
inductive AtsStage where
  | asked
  | paging (cause : BitVec 8) (fn : Fin 64)
  | repeated
  | failed (cause : BitVec 8)
  | stale
deriving DecidableEq, Repr, Inhabited

/-- A miss of a die: the waiter, the PASID, the missing 4 KiB page and the permissions that the access needs. -/
structure AtsReq where
  who : Waiter
  pasid : BitVec 20
  page : Nat
  read : Bool
  write : Bool
  exec : Bool
  stage : AtsStage
deriving DecidableEq, Repr, Inhabited

/-- The state of a physical die. -/
structure DieHw where
  retired : NSet := []
  north : Region := {}
  south : Region := {}
  tlb : List TlbEntry := []
  ats : List AtsReq := []
  duty : BitVec 5 := 0
  grant : BitVec 16 := 0
deriving DecidableEq, Repr, Inhabited

/-! ## Serving (18) -/

/-- A ring and its control (18 R367, R368). -/
structure Ring where
  base : Word := 0
  pasid : BitVec 20 := 0
  tickets : BitVec 8 := 1
  prio : BitVec 2 := 0
  fault : Bool := false
  en : Bool := false
  lsize : BitVec 5 := 4
  head : BitVec 16 := 0
  tail : BitVec 16 := 0
deriving DecidableEq, Repr, Inhabited

/-- A sequence slot (18 R376). -/
structure SeqSlot where
  active : Bool := false
  gen : BitVec 16 := 0
  id : Word := 0
  stops : List W32 := []
  tlimit : W32 := 0
  tokens : W32 := 0
  plimit : Nat := 0
  pages : List Nat := []
deriving DecidableEq, Repr, Inhabited

/-- A retirement in the walker (18 R379): the pages not yet pushed, the number of pages of the sequence, and the launch
tag that bears it (R373). -/
structure Retirement where
  slot : Nat
  id : Word
  tokens : W32
  status : BitVec 8
  index : BitVec 8
  left : List Nat
  pages : Nat
  time : Word
  tag : Option Nat
deriving DecidableEq, Repr, Inhabited

/-- A completion without its phase bit (18 R374). -/
structure Completion where
  kind : BitVec 8
  status : BitVec 8
  number : BitVec 16
  dw1 : Word
  dw2 : Word
  time : Word
deriving DecidableEq, Repr, Inhabited

/-- The directions of ports and of route legs (12 R266). -/
inductive Dir where
  | north
  | east
  | south
  | west
deriving DecidableEq, Repr, Inhabited

/-- A leg of a static route (13 R285). -/
structure Leg where
  dir : Dir
  count : Nat
deriving DecidableEq, Repr, Inhabited

/-- An outstanding launch (18 R371): the device's tag, the entry's tag, its queue, shape, class, partition word and
routes, the pool data with its scratchpad offset, the seeds placed, and, for a concurrent launch not yet dispatched, the
holding cores to which its seeds are bound. -/
structure Launch where
  key : Nat
  etag : Word
  queue : Fin 16
  shape : Vector Word 4
  cls : BitVec 2
  part : Word
  routes : List (Nat × List Leg)
  poolData : List Byte
  placed : Nat
  seeds : List Coord
deriving DecidableEq, Repr, Inhabited

/-- A launch entry that has been taken and is being loaded (18 R371): its queue, its address and the queue's PASID. -/
structure Loading where
  queue : Fin 16
  entry : Nat
  pasid : BitVec 20
deriving DecidableEq, Repr, Inhabited

/-- A collective in progress (20 R420); `since` is the panel time at which it was taken. -/
structure Collective where
  id : Nat
  op : BitVec 8
  mask : BitVec 16
  count : Nat
  buffer : Word
  completion : Word
  peers : List (BitVec 48)
  pasid : BitVec 20
  since : Nat
deriving DecidableEq, Repr, Inhabited

/-- The serving resources and the collective ring of a holding (18 R367 to R381, 20 R421), as at CREATE. `cqStuck`: a
completion write failed translation and waits for the host's write of SV.CQ.HEAD (R375). -/
structure Serving where
  rq : Ring := {}
  cq : Ring := {}
  lq : Vector Ring 16 := Vector.replicate 16 {}
  cqPhase : Bool := true
  cqStuck : Bool := false
  kvBase : Word := 0
  kvBusy : Bool := false
  kvCount : BitVec 20 := 0
  kvFree : List Nat := []
  kvBaseTaken : Word := 0
  kvPasidTaken : BitVec 20 := 0
  seqs : FMap SeqSlot := []
  walker : List Retirement := []
  waitingCq : List Completion := []
  launches : List Launch := []
  loading : Option Loading := none
  launchVisit : BitVec 20 := 0xFFFFF
  launchLeft : Nat := 0
  cr : Ring := {}
  crTaddr : Word := 0
  collectives : List Collective := []
deriving DecidableEq, Repr, Inhabited

/-! ## Holdings and estates (19) -/

/-- The states of a holding index (19 R393). -/
inductive HoldState where
  | absent
  | running
  | stopped
  | out
  | resetting
deriving DecidableEq, Repr, Inhabited

/-- A message on its way (13 R277 to R293): the core it left, and whether it waits at its destination (R280). -/
structure Packet where
  src : Coord
  msg : Msg
  arrived : Bool
deriving DecidableEq, Repr, Inhabited

/-- A fault record: its eight doublewords (12 R265). -/
abbrev Record := Vector Word 8

/-- A holding index of an estate (19 R393, R398) with everything that belongs to the holding. `stood` counts headlands
since it was switched in (R401); `images` is its image while OUT, and
`lastDies` the dies on which it stood when it was switched out; `resetFrom` is its state before a reset, `cancelled` what the
reset cancelled (R406), `exported` its latest ticket and `granted` that an import of it has been accepted (20 R423), and `resetHeld` a function-level reset that a pause holds (16 R343); `closed` is closed dispatch (R393, 20 R425). -/
structure Holding where
  state : HoldState := .absent
  vf : BitVec 7 := 0
  dies : Nat := 0
  position : Nat := 0
  w : Nat := 0
  slice : BitVec 8 := 0
  group : Fin 8 := 0
  stood : Nat := 0
  hlcount : Word := 0
  posNs : FMap Nat := []
  lseed : W32 := 1
  weights : Vector (BitVec 24) 16 := Vector.replicate 16 0
  barG : Vector (BitVec 16) 16 := Vector.replicate 16 0
  faultQ : List Record := []
  faultDropped : Nat := 0
  faultDrops : Nat := 0
  net : List Packet := []
  images : List Image := []
  closed : Bool := false
  lastDies : List DieId := []
  resetFrom : HoldState := .absent
  cancelled : Nat := 0
  resetHeld : Bool := false
  written : List (Nat × Nat) := []
  exported : Option (Vector Word 4) := none
  granted : Bool := false
  serving : Serving := {}
deriving DecidableEq, Repr, Inhabited

/-- The phases of a headland (16 R335 to R340). `start` is the panel time of the drain's start and `cycles` counts
the drain; `outs` and `ins` are the indices of gang switches carried out alone or merged with the headland. -/
inductive Phase where
  | running
  | draining (start cycles : Nat) (march : Bool) (outs ins : List (Fin 8))
  | moved (start : Nat) (march : Bool) (outs ins : List (Fin 8))
deriving DecidableEq, Repr, Inhabited

/-- A holding command that waits (19 R397, R400): a switch has its time; the others are held by a pause or go on in steps,
with the arguments of the write. `cycles` counts since a STOP began (R405, 16 R336), and `begun` marks a command whose first
step is done. -/
structure Command where
  op : Nat
  hold : Fin 8
  time : Nat
  arg : Word := 0
  cycles : Nat := 0
  begun : Bool := false
deriving DecidableEq, Repr, Inhabited

/-- The holding-management block's result register (19 R397). -/
structure HmStat where
  status : BitVec 8 := 0
  pending : Bool := false
  detail : BitVec 16 := 0
deriving DecidableEq, Repr, Inhabited

/-- An estate: its headland registers (16 R333), sequencer, holding-management block (19 R395) and holdings. `stopTime` is the
latest panel time that a region of the estate read at a moment at which dispatch stopped (14 R305). `asked` marks that a task has
asked the coming headland to wait (16 R348), and `resetHeld` an ESTATE-RESET that a pause holds (R343). -/
structure Estate where
  deferEn : BitVec 8 := 0xFF
  interval : BitVec 17 := 10000
  due : Nat := 10000000
  lastPost : BitVec 16 := 0
  lastPause : W32 := 0
  count : Word := 0
  phase : Phase := .running
  stopTime : Nat := 0
  deferred : List (Fin 8) := []
  asked : Bool := false
  hmCmd : Word := 0
  hmArg : Word := 0
  hmTime : Word := 0
  hmStat : HmStat := {}
  hmDpr : Word := 0
  hmDprLen : Word := 0
  partner : Word := 0
  pending : Option Command := none
  saving : Bool := false
  resetHeld : Bool := false
  holdings : Vector Holding 8 := Vector.replicate 8 {}
deriving DecidableEq, Repr, Inhabited

/-! ## Host blocks (20, 21) -/

/-- The steward block (20 R413). -/
structure Steward where
  valid : Bool := false
  port : BitVec 1 := 0
  key : BitVec 16 := 0
  lease : BitVec 17 := 5000
  deadline : Nat := 0
  denied : BitVec 16 := 0
deriving DecidableEq, Repr, Inhabited

/-- A function's host command block (20 R416), its MSI-X masks and pending bits (18 R374) and its page-request
allocation (10 R222). `hostMem` is the host's memory as a virtual function's own context reaches it (20 R411, log 92); that of
the physical function is `State.hostMem`. -/
structure Function where
  hcCmd : Word := 0
  hcArg : Word := 0
  hcAddr : Word := 0
  hcLen : Word := 0
  hcPending : Bool := false
  hcStatus : BitVec 8 := 0
  fnMask : Bool := false
  vecMask : Vector Bool 3 := Vector.replicate 3 false
  vecPend : Vector Bool 3 := Vector.replicate 3 false
  priAlloc : Word := 0
  hostMem : List Host.Cell := []
deriving DecidableEq, Repr, Inhabited

/-- A span link (20 R419). -/
structure SpanLink where
  en : Bool := false
  expected : BitVec 48 := 0
  state : BitVec 2 := 0
  lanes : BitVec 4 := 0
  retries : BitVec 32 := 0
  peer : BitVec 48 := 0
  peerLink : BitVec 4 := 0
deriving DecidableEq, Repr, Inhabited

/-- A result register with [8] pending and [7:0] status. -/
structure Result where
  pending : Bool := false
  status : BitVec 8 := 0
deriving DecidableEq, Repr, Inhabited

/-- The transplant engine (20 R423) and its secret; `taken` is the ticket of an import under way, as its command found it. -/
structure Transplant where
  cmd : Word := 0
  ticket : Vector Word 4 := Vector.replicate 4 0
  stat : Result := {}
  taken : Vector Word 4 := Vector.replicate 4 0
  target : Option HoldRef := none
  secret : BitVec 256 := 0
  serial : W32 := 0
deriving DecidableEq, Repr, Inhabited

/-- The harvest engine (20 R424). `cut` is the holding whose harvest waits for its headland; `armed` marks that
the drain of that headland has begun, and `ready` that it has passed. -/
structure Harvest where
  cmd : Word := 0
  tab : Word := 0
  n : Word := 0
  step : Word := 0
  stat : Result := {}
  detail : W32 := 0
  cut : Option HoldRef := none
  armed : Bool := false
  ready : Bool := false
deriving DecidableEq, Repr, Inhabited

/-- The security block (20 R428). -/
structure Security where
  nonce : Vector Word 4 := Vector.replicate 4 0
  cmd : Word := 0
  addr : Word := 0
  stat : Result := {}
deriving DecidableEq, Repr, Inhabited

/-- The power block (21 R430 to R433). `saturated` counts consecutive epochs over the envelope at duty 1, and `since` the panel
time since the last epoch. -/
structure Power where
  since : Nat := 0
  env : BitVec 15 := 14000
  overLimit : Bool := false
  draw : BitVec 15 := 0
  saturated : Nat := 0
deriving DecidableEq, Repr, Inhabited

/-- A wear entry (21 R434); `since` is the panel time since its last update. -/
structure Wear where
  since : Nat := 0
  ageing : BitVec 8 := 0
  retired : BitVec 8 := 0
  eol : BitVec 16 := 0xFFFF
deriving DecidableEq, Repr, Inhabited

/-- The health block (21 R434 to R436). `todo` is a retirement that waits for a pause to end (16 R343). -/
structure Health where
  wear : Vector Wear 80 := Vector.replicate 80 {}
  warn : BitVec 16 := 30
  evt : BitVec 80 := 0
  cmd : Word := 0
  stat : Result := {}
  todo : List CoreRef := []
deriving DecidableEq, Repr, Inhabited

/-- What the device sent out over PCIe (log 5). -/
inductive Outbound where
  /-- An MSI-X message of a vector of a function. -/
  | msi (fn : Fin 64) (vec : Fin 3)
  /-- The answer to a host read, with the EP bit (10 R226). -/
  | readData (bytes : List Byte) (ep : Bool)
  /-- A PRI page request (10 R222). -/
  | pageRequest (pasid : BitVec 20) (page : Nat)
  /-- The completion of an ATS invalidation (10 R223). -/
  | invalidated (pasid : BitVec 20) (base size : Nat)
  /-- The value of a register that the host read. -/
  | register (v : Word)
  /-- An abandon notice of a collective to a peer package (19 R406). -/
  | abandon (peer : BitVec 48) (id : Nat)
  /-- The local buffer of a collective, sent to a peer (20 R420). -/
  | collective (peer : BitVec 48) (bytes : List Byte)
  /-- The answer to a ticket sent by a peer (20 R423). -/
  | ticket (accepted : Bool)
deriving DecidableEq, Repr

/-- What another package would send for an import (log 8). -/
structure Peer where
  pkg : BitVec 48
  ticket : Vector Word 4
  hold : Holding
deriving DecidableEq, Repr

end Sys2Proof.Machine
end

