-- ==== Sys2Proof/Machine/State.lean ====
section
/-! DEFINITION. The machine's state: everything the spec gives the device, as plain data, and the state after power-on. -/

namespace Sys2Proof.Machine

/-- The state of the device. The first eight fields are the model's own (log 2 to log 8): which slot the next slot step
serves, the turns still to come, the counters for free values and for the model's identifiers, what the device sent out,
the host's page table, the host's memory, and what peers would send. -/
structure State where
  cur : SlotRef
  sched : List Turn
  freshCount : Nat
  nextId : Nat
  outbox : List Outbound
  iommu : List Mapping
  hostMem : List Host.Cell
  peers : List Peer
  /-- The partition mode (19 R409). -/
  mode : BitVec 3
  pmStatus : BitVec 3
  pmDrain : Bool
  /-- The mode that a pending change will set, and the estates that still save their holdings (19 R410). -/
  pmNext : Option (BitVec 3)
  /-- NumVFs of the physical function on port 0 (20 R411). -/
  numVfs : BitVec 16
  /-- BOOT.STAT (21 R439). -/
  bootStage : BitVec 8
  bootResult : BitVec 8
  /-- Panel time in ns (14 R303). -/
  panelNs : Nat
  /-- How far the panel time reference may still drift from true time, in twenty-thousandths of a ns (log 12). -/
  refCredit : Nat
  /-- The bytes of the stacks that are not 0, by address in the panel's stacks (01 R19), and the poisoned lines. -/
  mem : List Host.Cell
  memPoison : NSet
  dies : Vector DieHw 32
  images : Vector Image 32
  estates : Vector Estate 4
  steward : Steward
  functions : FMap Function
  hostEvt : BitVec 7
  hostMask : BitVec 7
  links : Vector SpanLink 16
  /-- The holdings to the line of whose collective tail something has been written since the engine last read it (20 R421). -/
  rung : List HoldRef
  collTmo : BitVec 14
  transplant : Transplant
  harvest : Harvest
  security : Security
  power : Power
  health : Health
deriving DecidableEq, Repr

/-- Why the machine stops. -/
inductive Fault where
  /-- Raised by `exec` of an instruction word while the slot that `cur` names holds no running task: no slot of the device
  executes a word then, so no run reaches it. Safe: a claim about such an execution cannot be proved. -/
  | noTask
deriving DecidableEq, Repr

/-- Why an instruction has no meaning. -/
inductive Refusal where
  /-- The instruction of this mnemonic is not modelled. Safe. -/
  | notModelled (mnemonic : String)
deriving DecidableEq, Repr

/-- The device at power-on, before any stage of bring-up (21 R439): the registers at the reset values the spec gives, and
at the values that log 2 to log 22, 93, 104 and 107 name where it gives none. -/
def State.reset : State where
  cur := default
  sched := []
  freshCount := 0
  nextId := 0
  outbox := []
  iommu := []
  hostMem := []
  peers := []
  mode := 4
  pmStatus := 0
  pmDrain := false
  pmNext := none
  numVfs := 0
  bootStage := 0
  bootResult := 0
  panelNs := 0
  refCredit := 20000
  mem := []
  memPoison := []
  dies := Vector.replicate 32 {}
  images := Vector.replicate 32 {}
  estates := Vector.replicate 4 {}
  steward := {}
  functions := []
  hostEvt := 0
  hostMask := 0
  links := Vector.replicate 16 {}
  rung := []
  collTmo := 100
  transplant := {}
  harvest := {}
  security := {}
  power := {}
  health := {}

end Sys2Proof.Machine
end

