-- ==== Sys2Proof/Machine/Geometry.lean ====
section
/-! DEFINITION. The panel's geometry (01): sites, die classes, courses, estates, and the way from holding coordinates to
the core that stands there; the accessors of the state by die, core and slot. -/

namespace Sys2Proof.Machine

/-! ## Sites and dies (R8 to R14) -/

/-- Field row of die or memory site `n` (R8). -/
def siteFy (n : Nat) : Nat := n / 4
/-- Field column of die `n` (R8). -/
def dieFx (n : Nat) : Nat := 2 * (n % 4) + siteFy n % 2
/-- Field column of memory site `n` (R8). -/
def memFx (n : Nat) : Nat := 2 * (n % 4) + (1 - siteFy n % 2)

/-- The lean dies (R10). -/
def lean (die : DieId) : Bool := [1, 3, 12, 14, 17, 19, 28, 30].contains die.val

/-- Row and column of a core in its die's grid (R14). -/
def coreRow (c : CoreIdx) : Nat := c.val / 20
def coreCol (c : CoreIdx) : Nat := c.val % 20
/-- The cluster of a core: 4 × 2 blocks, five to a row (R14). -/
def clusterNat (c : CoreIdx) : Nat := 5 * (coreRow c / 2) + coreCol c / 4
theorem clusterNat_lt (c : CoreIdx) : clusterNat c < 60 := by
  unfold clusterNat coreRow coreCol; omega
def clusterOf (c : CoreIdx) : Fin 60 := ⟨clusterNat c, clusterNat_lt c⟩
/-- The index of a core in its cluster (R14). -/
def cidxOf (c : CoreIdx) : Nat := 4 * (coreRow c % 2) + coreCol c % 4
/-- South region of the die (R12). -/
def isSouth (c : CoreIdx) : Bool := decide (12 ≤ coreRow c)

/-- A core index from a number that is reduced to the die's range. -/
def coreIdx (n : Nat) : CoreIdx := ⟨n % 480, Nat.mod_lt _ (by decide)⟩
/-- A die from a number that is reduced to the panel's range. -/
def dieId (n : Nat) : DieId := ⟨n % 32, Nat.mod_lt _ (by decide)⟩
def slotId (n : Nat) : SlotId := ⟨n % 4, Nat.mod_lt _ (by decide)⟩
/-- The core with index `i` of a cluster (R14). -/
def clusterCore (cl : Fin 60) (i : Nat) : CoreIdx :=
  coreIdx (20 * (2 * (cl.val / 5) + (i % 8) / 4) + 4 * (cl.val % 5) + i % 4)

/-! ## Estates and courses (R18, R21) -/

/-- How many estates the mode has (R18). -/
def estateCount (mode : BitVec 3) : Nat := mode.toNat
/-- The estate of a die or a memory site (R10, R18; numbering of 14 R313). -/
def estNat (mode : BitVec 3) (n : Nat) : Nat :=
  if mode = 1 then 0 else if mode = 2 then (n % 4) / 2 else ((n % 4) / 2 + 2 * (n / 16)) % 4
def estOf (mode : BitVec 3) (n : Nat) : Fin 4 := ⟨estNat mode n % 4, Nat.mod_lt _ (by decide)⟩

/-- The courses (R21). -/
def course (mode : BitVec 3) (e : Fin 4) : List Nat :=
  if mode = 1 then
    [0, 1, 2, 3, 7, 11, 15, 19, 23, 27, 31, 30, 26, 22, 18, 14, 10, 6, 5, 9, 13, 17, 21, 25, 29, 28, 24, 20, 16, 12, 8, 4]
  else if mode = 2 then
    if e = 0 then [0, 1, 5, 9, 13, 17, 21, 25, 29, 28, 24, 20, 16, 12, 8, 4]
    else [2, 3, 7, 11, 15, 19, 23, 27, 31, 30, 26, 22, 18, 14, 10, 6]
  else [0, 1, 5, 9, 13, 12, 8, 4].map fun n => n + 2 * (e.val % 2) + 16 * (e.val / 2)

/-- The course length L (16 R330). -/
def courseLen (mode : BitVec 3) (e : Fin 4) : Nat := (course mode e).length
/-- The die at a position of a course (16 R330). -/
def dieAt (mode : BitVec 3) (e : Fin 4) (p : Nat) : DieId := dieId ((course mode e).getD (p % courseLen mode e) 0)
/-- The position of a die on its estate's course. -/
def posOf (mode : BitVec 3) (die : DieId) : Nat :=
  ((course mode (estOf mode die.val)).idxOf die.val)

/-- The memory sites of an estate in ascending number (R19). -/
def sites (mode : BitVec 3) (e : Fin 4) : List Nat := (List.range 32).filter fun n => estNat mode n = e.val
/-- The estate's memory capacity (10 R225): all of its stacks (log 30). -/
def capacity (mode : BitVec 3) (e : Fin 4) : Nat := (sites mode e).length * Config.stackBytes
/-- Where a byte of an estate's physical space lies in the panel's stacks: 4 KiB frames interleave over the estate's
sites (R19). -/
def stackAddr (mode : BitVec 3) (e : Fin 4) (p : Nat) : Nat :=
  let ss := sites mode e
  let f := p / 4096
  ss.getD (f % ss.length) 0 * Config.stackBytes + f / ss.length * 4096 + p % 4096

/-! ## Accessors of the state -/

/-- Replaces one element of a vector. -/
def vset {α : Type} {n : Nat} (v : Vector α n) (i : Fin n) (x : α) : Vector α n := v.set i.val x i.isLt

def State.die (s : State) (d : DieId) : DieHw := s.dies[d]
def State.setDie (s : State) (d : DieId) (x : DieHw) : State := { s with dies := vset s.dies d x }
def State.image (s : State) (d : DieId) : Image := s.images[d]
def State.setImage (s : State) (d : DieId) (x : Image) : State := { s with images := vset s.images d x }
/-- The state of each core that an image does not list. -/
def Image.unlisted (im : Image) : Core := { slots := Vector.replicate 4 { event := im.events } }
/-- The core at a place of an image. -/
def Image.core (im : Image) (c : CoreIdx) : Core := FMap.get im.unlisted im.cores c.val
def Image.setCore (im : Image) (c : CoreIdx) (x : Core) : Image := { im with cores := FMap.set im.cores c.val x }
def State.core (s : State) (c : CoreRef) : Core := (s.image c.die).core c.idx
def State.setCore (s : State) (c : CoreRef) (x : Core) : State := s.setImage c.die ((s.image c.die).setCore c.idx x)
def State.slot (s : State) (r : SlotRef) : Slot := (s.core r.core).slots[r.slot]
def State.setSlot (s : State) (r : SlotRef) (x : Slot) : State :=
  s.setCore r.core { s.core r.core with slots := vset (s.core r.core).slots r.slot x }
def State.task (s : State) (r : SlotRef) : Option Task := (s.slot r).task
def State.setTask (s : State) (r : SlotRef) (t : Task) : State := s.setSlot r { s.slot r with task := some t }
/-- Changes the task of a slot, if there is one. -/
def State.modTask (s : State) (r : SlotRef) (f : Task → Task) : State :=
  match s.task r with
  | some t => s.setTask r (f t)
  | none => s
def State.cluster (s : State) (d : DieId) (c : Fin 60) : Cluster := (s.image d).clusters[c]
def State.setCluster (s : State) (d : DieId) (c : Fin 60) (x : Cluster) : State :=
  s.setImage d { s.image d with clusters := vset (s.image d).clusters c x }
def State.estate (s : State) (e : Fin 4) : Estate := s.estates[e]
def State.setEstate (s : State) (e : Fin 4) (x : Estate) : State := { s with estates := vset s.estates e x }
def State.hold (s : State) (h : HoldRef) : Holding := (s.estate h.est).holdings[h.ix]
def State.setHold (s : State) (h : HoldRef) (x : Holding) : State :=
  s.setEstate h.est { s.estate h.est with holdings := vset (s.estate h.est).holdings h.ix x }
def State.modHold (s : State) (h : HoldRef) (f : Holding → Holding) : State := s.setHold h (f (s.hold h))
def State.fn (s : State) (f : Fin 64) : Function := FMap.get {} s.functions f.val
def State.setFn (s : State) (f : Fin 64) (x : Function) : State := { s with functions := FMap.set s.functions f.val x }

def Core.trigger (c : Core) (e : BitVec 8) : Trigger := FMap.get {} c.trig e.toNat
def Core.setTrigger (c : Core) (e : BitVec 8) (t : Trigger) : Core := { c with trig := FMap.set c.trig e.toNat t }
def Core.handle (c : Core) (k : BitVec 4) : Handle := c.handles[k.toNat]'k.isLt

/-- The condition for which a task waits at a ring holds (07 R165). -/
def Core.holds (c : Core) : WaitOn → Bool
  | .need k n => decide (n ≤ (c.handle k).fill)
  | .room k n => decide (n ≤ (c.handle k).slots - (c.handle k).fill)
  | .barrier _ => false
  | .plough => false

/-- Waits whose condition a test finds true are met, even if it does not last (07 R165, 15 R320). -/
def Core.wake (c : Core) (met : WaitOn → Bool) : Core :=
  { c with slots := c.slots.map fun sl => match sl.task with
      | some t => if t.on.any met then { sl with task := some { t with met := true } } else sl
      | none => sl }

/-- A handle changes: waits at the rings look again. -/
def Core.setHandle (c : Core) (k : BitVec 4) (h : Handle) : Core :=
  let c := { c with handles := c.handles.set k.toNat h k.isLt }
  c.wake c.holds

/-! ## Holdings on their dies -/

/-- Every holding index of the panel. -/
def allHolds : List HoldRef := (List.finRange 4).flatMap fun e => (List.finRange 8).map fun h => ⟨e, h⟩

/-- Holds a run of the course: RUNNING, STOPPED, or being reset in place (19 R393). -/
def Holding.placed (h : Holding) : Bool :=
  h.state = .running ∨ h.state = .stopped ∨ (h.state = .resetting ∧ h.resetFrom ≠ .out)

/-- The holding die index that a position has in a holding's run, if it lies in it (01 R22). -/
def Holding.dieIndex (h : Holding) (len pos : Nat) : Option Nat :=
  let k := (pos + len - h.position % len) % len
  if h.placed ∧ k < h.dies then some k else none

/-- The holding that stands on a die, with the holding die index (01 R22); none on a fallow die. -/
def State.holdAt (s : State) (d : DieId) : Option (HoldRef × Nat) :=
  let e := estOf s.mode d.val
  let len := courseLen s.mode e
  let pos := posOf s.mode d
  (List.finRange 8).findSome? fun h => (((s.hold ⟨e, h⟩).dieIndex len pos).map fun k => (⟨e, h⟩, k))

/-- The die on which a holding die stands (01 R22). -/
def State.dieOf (s : State) (h : HoldRef) (k : Nat) : DieId := dieAt s.mode h.est ((s.hold h).position + k)

/-- The dies of a holding in holding order. -/
def State.diesOf (s : State) (h : HoldRef) : List DieId := (List.range (s.hold h).dies).map (s.dieOf h)

/-- The holding that a core works for: that of its die. -/
def State.holdOf (s : State) (c : CoreRef) : HoldRef :=
  match s.holdAt c.die with
  | some (h, _) => h
  | none => ⟨estOf s.mode c.die.val, 0⟩

/-- A core has failed and is recorded in its die's fuses (01 R16). -/
def State.retired (s : State) (c : CoreRef) : Bool := (s.die c.die).retired.contains c.idx.val

/-- The holding coordinates of a core on holding die `k` (01 R22). -/
def coordOn (k : Nat) (c : CoreIdx) : Coord := ⟨20 * k + coreCol c, coreRow c⟩
/-- The holding coordinates of a core, if its die holds one. -/
def State.coord (s : State) (c : CoreRef) : Option Coord :=
  (s.holdAt c.die).map fun (_, k) => coordOn k c.idx
/-- The coordinates lie in the holding grid (01 R22). -/
def State.inGrid (s : State) (h : HoldRef) (x y : Nat) : Bool := decide (x < 20 * (s.hold h).dies ∧ y < 24)
/-- The core at holding coordinates. -/
def State.coreAt (s : State) (h : HoldRef) (x y : Nat) : CoreRef := ⟨s.dieOf h (x / 20), coreIdx (20 * y + x % 20)⟩
/-- The home core of a reference that no headland changes. -/
def State.homeCore (s : State) (r : HomeRef) : CoreRef := ⟨s.dieOf r.hold r.hdie, r.core⟩

/-- The supervisor core of a holding: the first non-retired core in row-major order, rows first (12 R267). -/
def State.supervisor (s : State) (h : HoldRef) : Option CoreRef :=
  let w := 20 * (s.hold h).dies
  ((List.range (24 * w)).map fun i => s.coreAt h (i % w) (i / w)).find? fun c => !s.retired c

/-- A core is its holding's supervisor core. -/
def State.isSupervisor (s : State) (c : CoreRef) : Bool :=
  match s.holdAt c.die with
  | some (h, _) => s.supervisor h = some c
  | none => false

/-! ## Time (14 R302, R303) -/

def State.region (s : State) (c : CoreRef) : Region :=
  if isSouth c.idx then (s.die c.die).south else (s.die c.die).north
/-- Panel time as a core reads it (14 R311). -/
def State.coreTime (s : State) (c : CoreRef) : Word := (s.region c).count + (s.region c).toff
/-- Panel time as the services of the panel record it. -/
def State.time (s : State) : Word := word s.panelNs

end Sys2Proof.Machine
end

