-- ==== Sys2Proof/Machine/MemOps.lean ====
section
/-! DEFINITION. Accesses to pools and to global memory: the regions of a pool, the cluster window, range locks,
translation, poison, and the reading and writing of bytes (07, 10). -/

namespace Sys2Proof.Machine

/-! ## The partition word (07 R148, R149) -/

def partSlots (p : Word) : Nat := bits p 1 0 + 1
def partAcc (p : Word) : Nat := bits p 14 8
def partMbox (p : Word) : Nat := bits p 27 16
def mboxBase (p : Word) : Nat := 4096 * partAcc p
def imagesBase (p : Word) : Nat := mboxBase p + 64 * partMbox p
def scratchBase (p : Word) : Nat := imagesBase p + 1280 * partSlots p
/-- A valid partition word (R149). -/
def partValid (p : Word) : Bool :=
  bits p 63 28 = 0 ∧ bits p 15 15 = 0 ∧ bits p 7 2 = 0 ∧ scratchBase p ≤ Config.poolBytes

/-- Mailbox or scratchpad bytes only (R154): the range touches no accumulator or register-image byte. -/
def regionOk (p : Word) (off len : Nat) : Bool :=
  off + len ≤ Config.poolBytes ∧
    ((mboxBase p ≤ off ∧ off + len ≤ imagesBase p) ∨ scratchBase p ≤ off)

/-! ## Pool space (07 R153, R154) -/

/-- The first address of pool space. -/
def poolSpace : Word := 0xFFFF_FFFF_FFE0_0000
/-- The end of a core's own pool (07 R164). -/
def poolEnd : Word := 0xFFFF_FFFF_FFE4_0000
/-- Bits [63:21] are all ones. -/
def inPoolSpace (ea : Word) : Bool := bits ea 63 21 = 2 ^ 43 - 1
/-- The offset of a pool-space address. -/
def poolOffset (ea : Word) : Nat := bits ea 20 0
/-- `spbase` (06 R134). -/
def spbase (p : Word) : Word := poolSpace + word (scratchBase p)
/-- Bits [63:57] equal bit 56 (07 R156, 10 R219; log 31). -/
def canonical (ea : Word) : Bool := bits ea 63 56 = 0 ∨ bits ea 63 56 = 255

/-- The core whose pool a pool-space offset reaches from a core (R153). -/
def windowCore (c : CoreRef) (off : Nat) : CoreRef :=
  ⟨c.die, clusterCore (clusterOf c.idx) (cidxOf c.idx ^^^ (off / Config.poolBytes % 8))⟩

/-- The pool bytes that a range of pool space reaches, if R154 admits the access: one window, a core that is not retired,
mailbox or scratchpad bytes only. -/
def State.poolRange (s : State) (c : CoreRef) (off len : Nat) : Option (CoreRef × Nat) :=
  let t := windowCore c off
  let b := off % Config.poolBytes
  if !s.retired t && regionOk (s.core t).part b len then some (t, b) else none

/-! ## Range locks (10 R229, R230) -/

/-- The entries that the engine operations of a core hold. -/
def Core.locks (c : Core) : List Lock := (c.plq.flatMap PlOp.locks) ++ (c.drq.flatMap DrOp.locks)

/-- An entry covers a byte of the range. -/
def Lock.hits (l : Lock) (sp : LockSpace) (first len : Nat) : Bool :=
  l.space = sp ∧ l.first < first + len ∧ first ≤ l.last

/-- A range touches a locked byte of the issuing core. -/
def State.lockedAt (s : State) (c : CoreRef) (sp : LockSpace) (first len : Nat) : Bool :=
  (s.core c).locks.any fun l => l.hits sp first len

/-! ## Translation (10 R219 to R225) -/

/-- The permissions that an access needs (R220). -/
structure Need where
  read : Bool := false
  write : Bool := false
  exec : Bool := false
deriving DecidableEq, Repr

/-- The permissions that a request needs. -/
def AtsReq.need (q : AtsReq) : Need := ⟨q.read, q.write, q.exec⟩

/-- What a step of an access gives: a value, a wait for a translation, or a cause. -/
inductive Got (α : Type) where
  | ok (x : α)
  | wait (r : AtsReq)
  | trap (cause : BitVec 8)
deriving DecidableEq, Repr

def Got.bind {α β : Type} : Got α → (α → Got β) → Got β
  | .ok x, f => f x
  | .wait r, _ => .wait r
  | .trap c, _ => .trap c

/-- Bytes of a page (R220). -/
def pageBytes : PageSize → Nat
  | .k4 => 4096
  | .k64 => 65536
  | .m2 => 2097152
  | .g1 => 1073741824

/-- The first byte of the 4 KiB page of an address. -/
def page4k (ea : Nat) : Nat := ea / 4096 * 4096

def TlbEntry.covers (t : TlbEntry) (pasid : BitVec 20) (ea : Nat) : Bool :=
  t.pasid = pasid ∧ t.page ≤ ea ∧ ea < t.page + pageBytes t.size

def TlbEntry.grants (t : TlbEntry) (n : Need) : Bool :=
  (!n.read || t.read) && (!n.write || t.write) && (!n.exec || t.exec)

/-- Translates an address through the die's cache (R221): the physical address, a wait for the translation that is missing
or lacks a permission, or the cause under which the translation has failed (R222). -/
def State.translate (s : State) (die : DieId) (who : Waiter) (pasid : BitVec 20) (ea : Nat) (n : Need) : Got Nat :=
  match (s.die die).tlb.find? fun t => t.covers pasid ea && t.grants n with
  | some t =>
    let p := t.frame + (ea - t.page)
    if p < capacity s.mode (estOf s.mode die.val) then .ok p else .trap 0x15
  | none =>
    match (s.die die).ats.find? fun r => r.who = who ∧ r.pasid = pasid ∧ r.page = page4k ea ∧ r.need = n with
    | some r => match r.stage with
      | .failed c => .trap c
      | _ => .wait r
    | none => .wait ⟨who, pasid, page4k ea, n.read, n.write, n.exec, .asked⟩

/-- The stack bytes of a range of virtual addresses, page by page in ascending order. -/
def State.translateRange (s : State) (die : DieId) (who : Waiter) (pasid : BitVec 20) (ea : Nat) (n : Need) :
    (len : Nat) → Got (List Nat)
  | 0 => .ok []
  | len + 1 =>
    (s.translateRange die who pasid ea n len).bind fun ks =>
    (s.translate die who pasid ((ea + len) % 2 ^ 64) n).bind fun p =>
      .ok (ks ++ [stackAddr s.mode (estOf s.mode die.val) p])

/-- Adds a miss to the die's list, once for each waiter, page and set of permissions (R221, R222). -/
def State.addReq (s : State) (die : DieId) (r : AtsReq) : State :=
  if (s.die die).ats.any fun q => q.who = r.who ∧ q.pasid = r.pasid ∧ q.page = r.page ∧ q.need = r.need then s
  else s.setDie die { s.die die with ats := (s.die die).ats ++ [r] }

/-- A request holds one of the die's 128 translation requests, in the order in which they missed. -/
def DieHw.outstanding (x : DieHw) (n : Nat) : Bool :=
  ((x.ats.take n).filter fun q => q.stage = .asked || q.stage = .repeated || q.stage = .stale).length < Config.atsRequests

def AtsReq.paging (q : AtsReq) : Bool := match q.stage with | .paging .. => true | _ => false

/-- The page requests outstanding for a function (R222). -/
def State.pageRequests (s : State) (f : Fin 64) : Nat :=
  (List.finRange 32).foldl (fun n d => n + ((s.die d).ats.filter fun q => match q.stage with
    | .paging _ g => decide (g = f)
    | _ => false).length) 0

/-- A page request goes to the host. -/
def State.askPage (s : State) (pasid : BitVec 20) (page : Nat) : State :=
  { s with outbox := s.outbox ++ [.pageRequest pasid page] }

/-! ## Locations -/

/-- The checks of 07 R157 after alignment, in their order: region or canonical address, range locks, translation. -/
def State.locate (s : State) (r : SlotRef) (pasid : BitVec 20) (ea : Word) (len : Nat) (n : Need) : Got Loc :=
  if inPoolSpace ea then
    match s.poolRange r.core (poolOffset ea) len with
    | none => .trap 0x12
    | some (t, b) => if s.lockedAt r.core (.pool t.idx) b len then .trap 0x30 else .ok (.pool t b len)
  else if !canonical ea then .trap 0x13
  else if s.lockedAt r.core (.virt pasid) ea.toNat len then .trap 0x30
  else (s.translateRange r.core.die (.slot r.core.idx r.slot) pasid ea.toNat n len).bind fun ks =>
    .ok (.mem ks pasid ea.toNat)

/-- The lines of 64 bytes that a range touches. -/
def linesOf (off len : Nat) : List Nat :=
  if len = 0 then [] else (List.range ((off + len - 1) / 64 - off / 64 + 1)).map (· + off / 64)

def NSet.insertAll (m : NSet) (ks : List Nat) : NSet := ks.foldl NSet.insert m
def NSet.eraseAll (m : NSet) (ks : List Nat) : NSet := ks.foldl NSet.erase m

/-- A byte of the location lies in a poisoned line (10 R226). -/
def State.poisoned (s : State) : Loc → Bool
  | .pool c off len => (linesOf off len).any fun l => (s.core c).pool.poison.contains l
  | .mem ks _ _ => ks.any fun k => s.memPoison.contains (k / 64)

/-- The bytes at a location. -/
def State.readLoc (s : State) : Loc → List Byte
  | .pool c off len => Memory.read (s.core c).pool.bytes off len
  | .mem ks _ _ => ks.map fun k => Memory.get s.mem k

/-- A pool with bytes written and their lines dirty (07 R151). -/
def Pool.write (p : Pool) (off : Nat) (bs : List Byte) : Pool :=
  { p with bytes := Memory.write p.bytes off bs, dirty := NSet.insertAll p.dirty (linesOf off bs.length) }

/-- Lines of which a single write of the range covers every byte (10 R226). -/
def wholeLines (off len : Nat) : List Nat := (linesOf off len).filter fun l => off ≤ 64 * l ∧ 64 * l + 64 ≤ off + len

/-- Notes the pages that a holding wrote, for the dirty-page report (19 R405). -/
def Holding.wrote (h : Holding) (pasid : BitVec 20) (ea len : Nat) : Holding :=
  let n := if len = 0 then 0 else (ea + len - 1) / 4096 - ea / 4096 + 1
  let ps := (List.range n).map fun i => ((ea / 4096 + i) * 4096, pasid.toNat)
  { h with written := ps.foldl (fun w p => if w.contains p then w else w ++ [p]) h.written }

def State.writePool (s : State) (c : CoreRef) (off : Nat) (bs : List Byte) : State :=
  s.setCore c { s.core c with pool := (s.core c).pool.write off bs }

/-- A byte that a system engine reaches: of a stack, or of the host's memory (20 R411). -/
inductive SysByte where
  | stack (key : Nat)
  | host (addr : Nat)
deriving DecidableEq, Repr

/-- A mapping of the host's page table as a translation. -/
def entryOf (m : Mapping) : TlbEntry := ⟨m.pasid, m.page * pageBytes m.size, m.size, m.frame, m.read, m.write, m.exec⟩

/-- The mapping of the host's page table that covers an address. -/
def State.iommuMap (s : State) (pasid : BitVec 20) (ea : Nat) : Option Mapping :=
  s.iommu.find? fun m => (entryOf m).covers pasid ea

/-- The translation of the host's page table, without a cache. -/
def State.iommuFind (s : State) (pasid : BitVec 20) (ea : Nat) : Option TlbEntry := (s.iommuMap pasid ea).map entryOf

/-- The byte to which a system engine's access of an estate is translated, if the permission is there. -/
def State.sysByte (s : State) (e : Fin 4) (pasid : BitVec 20) (write : Bool) (ea : Nat) : Option SysByte :=
  match s.iommuMap pasid ea with
  | some m =>
    let p := m.frame + (ea - (entryOf m).page)
    if !(if write then m.write else m.read) then none
    else if m.host then some (.host p)
    else if p < capacity s.mode e then some (.stack (stackAddr s.mode e p)) else none
  | none => none

/-- The holdings whose collective engine watches one of the given bytes: one in the line of its tail (20 R421). -/
def State.watching (s : State) (hit : SysByte → Bool) : List HoldRef :=
  allHolds.filter fun h =>
    let v := (s.hold h).serving
    v.cr.en && (match s.sysByte h.est v.cr.pasid false v.crTaddr.toNat with
      | some b => hit b
      | none => false)

def State.ring (s : State) (hit : SysByte → Bool) : State := { s with rung := s.rung ++ (s.watching hit).filter fun h => !s.rung.contains h }

/-- Writes bytes of the stacks. -/
def State.putMem (s : State) (ws : List (Nat × Byte)) : State :=
  { s with mem := Memory.writeAll s.mem ws }.ring fun
    | .stack k => ws.any fun w => w.1 / 64 = k / 64
    | .host _ => false

/-- Writes bytes of the host's memory. -/
def State.putHost (s : State) : List (Nat × Byte) → State
  | [] => s
  | w :: ws => { s with hostMem := Memory.writeAll s.hostMem (w :: ws) }.ring fun
    | .stack _ => false
    | .host k => (w :: ws).any fun w => w.1 / 64 = k / 64

/-- A write of the host's memory from an address on. -/
def State.hostWriteMem (s : State) (a : Nat) (bs : List Byte) : State :=
  { s with hostMem := Memory.write s.hostMem a bs }.ring fun
    | .stack _ => false
    | .host k => decide (a / 64 ≤ k / 64) && decide (k / 64 * 64 < a + bs.length)

/-- Writes bytes at a location, for a holding. -/
def State.writeLoc (s : State) (h : HoldRef) (l : Loc) (bs : List Byte) : State :=
  match l with
  | .pool c off _ => s.writePool c off bs
  | .mem ks pasid ea => (s.putMem (ks.zip bs)).modHold h fun x => x.wrote pasid ea bs.length

/-- Poisons the lines of a pool range, or clears the poison of those that it covers (10 R226). -/
def Pool.poisonRange (p : Pool) (off len : Nat) : Pool := { p with poison := NSet.insertAll p.poison (linesOf off len) }
def Pool.cleanRange (p : Pool) (off len : Nat) : Pool := { p with poison := NSet.eraseAll p.poison (wholeLines off len) }

/-- The 64-byte lines of which a list of stack bytes holds every byte. -/
def wholeMemLines (ks : List Nat) : List Nat :=
  (ks.filter fun k => k % 64 = 0 ∧ (List.range 64).all fun i => ks.contains (k + i)).map (· / 64)

/-- A single write of a range with unpoisoned or poisoned data by an engine, a mailbox instruction or the host
(10 R226). -/
def State.writeWhole (s : State) (h : HoldRef) (l : Loc) (bs : List Byte) (bad : Bool) : State :=
  let s := s.writeLoc h l bs
  match l with
  | .pool c off len =>
    let p := (s.core c).pool
    s.setCore c { s.core c with pool := if bad then p.poisonRange off len else p.cleanRange off len }
  | .mem ks _ _ =>
    { s with memPoison := if bad then NSet.insertAll s.memPoison (ks.map (· / 64)) else NSet.eraseAll s.memPoison (wholeMemLines ks) }

/-! ## System engines

Rings, the loader, harvest and the collectives reach memory through the host's page table in the PASID that a register
names (20 R411; log 32). -/

/-- The stack byte that an access reaches, if it reaches one. -/
def State.sysKey (s : State) (e : Fin 4) (pasid : BitVec 20) (write : Bool) (ea : Nat) : Option Nat :=
  match s.sysByte e pasid write ea with
  | some (.stack k) => some k
  | _ => none

/-- The bytes of a range, or none where one has no translation or lacks the permission. -/
def State.sysBytes (s : State) (e : Fin 4) (pasid : BitVec 20) (write : Bool) (ea len : Nat) : Option (List SysByte) :=
  (List.range len).mapM fun i => s.sysByte e pasid write ((ea + i) % 2 ^ 64)

/-- The first address of a range at which a system engine's access finds no translation or lacks the permission. -/
def State.sysMiss (s : State) (e : Fin 4) (pasid : BitVec 20) (write : Bool) (ea len : Nat) : Nat :=
  (((List.range len).map fun i => (ea + i) % 2 ^ 64).find? fun a => (s.sysByte e pasid write a).isNone).getD ea

def State.getSys (s : State) : SysByte → Byte
  | .stack k => Memory.get s.mem k
  | .host a => Memory.get s.hostMem a

/-- Reads bytes for a system engine. -/
def State.sysRead (s : State) (e : Fin 4) (pasid : BitVec 20) (ea len : Nat) : Option (List Byte) :=
  (s.sysBytes e pasid false ea len).map fun ks => ks.map s.getSys

/-- The writes among those of a system engine that go to the stacks, and those that go to the host's memory. -/
def stackWrites (ws : List (SysByte × Byte)) : List (Nat × Byte) :=
  ws.filterMap fun w => match w.1 with | .stack k => some (k, w.2) | .host _ => none
def hostWrites (ws : List (SysByte × Byte)) : List (Nat × Byte) :=
  ws.filterMap fun w => match w.1 with | .stack _ => none | .host a => some (a, w.2)

/-- Writes bytes for a system engine. -/
def State.putSys (s : State) (ws : List (SysByte × Byte)) : State :=
  (s.putMem (stackWrites ws)).putHost (hostWrites ws)

/-- Writes bytes for a system engine. -/
def State.sysWrite (s : State) (e : Fin 4) (pasid : BitVec 20) (ea : Nat) (bs : List Byte) : Option State :=
  (s.sysBytes e pasid true ea bs.length).map fun ks => s.putSys (ks.zip bs)

/-! ## Buffered stores (11 R245, R246)

A store stays with its slot until it is performed: by a turn of its own, before a later access of the slot that touches
one of its bytes, or where a rule orders it (log 93). The stores of a slot are performed in their order. -/

/-- `len` bytes of a location from byte `off` on. -/
def Loc.part : Loc → (off len : Nat) → Loc
  | .pool c o _, off, len => .pool c (o + off) len
  | .mem ks p ea, off, len => .mem ((ks.drop off).take len) p (ea + off)

/-- Two locations have a byte in common. -/
def Loc.overlaps : Loc → Loc → Bool
  | .pool c o n, .pool d p m => c = d && decide (o < p + m) && decide (p < o + n)
  | .mem ks _ _, .mem js _ _ => ks.any fun k => js.contains k
  | _, _ => false

/-- A migrated task writes pool bytes of its target core: their lines go home with it (12 R272). -/
def State.noteGuest (s : State) (home : Option HomeRef) (l : Loc) : State :=
  match home, l with
  | some h, .pool c off len =>
    match (s.core c).saved with
    | some sv =>
      if sv.home = h then s.setCore c { s.core c with saved := some { sv with lines := NSet.insertAll sv.lines (linesOf off len) } } else s
    | none => s
  | _, _ => s

/-- A value of `k` bits read as a signed number. -/
def signedNat (k x : Nat) : Int := if x < 2 ^ (k - 1) then x else (x : Int) - 2 ^ k

def amAddF (k x b : Nat) : Nat := (x + b) % 2 ^ k
def amAndF (_ x b : Nat) : Nat := x &&& b
def amOrF (_ x b : Nat) : Nat := x ||| b
def amXorF (_ x b : Nat) : Nat := x ^^^ b
def amMinF (k x b : Nat) : Nat := if signedNat k x ≤ signedNat k b then x else b
def amMaxF (k x b : Nat) : Nat := if signedNat k b ≤ signedNat k x then x else b
def amMinnF (_ x b : Nat) : Nat := if x ≤ b then x else b
def amMaxnF (_ x b : Nat) : Nat := if b ≤ x then x else b
/-- The field of `width` bits from bit `shift` on takes a value (07 R158). -/
def insertBits (shift width x b : Nat) : Nat := x - x / 2 ^ shift % 2 ^ width * 2 ^ shift + b % 2 ^ width * 2 ^ shift
/-- The value that an atomic of `k` bits gives an old value and an operand (10 R240). -/
def AmKind.apply : AmKind → (k x b : Nat) → Nat
  | .add => amAddF
  | .and => amAndF
  | .or => amOrF
  | .xor => amXorF
  | .min => amMinF
  | .max => amMaxF
  | .minn => amMinnF
  | .maxn => amMaxnF
  | .bits shift width => fun _ => insertBits shift width

/-- An atomic consumes the poison of its location; the insertion of a bit field leaves it (10 R226, R227). -/
def AmKind.consumes : AmKind → Bool
  | .bits .. => false
  | _ => true

/-- The bytes that a store writes when it is performed: a posted atomic works on what stands there then, and writes nothing to a
poisoned location (10 R227). -/
def BufferedStore.value (b : BufferedStore) (s : State) : Option (List Byte) :=
  match b.am with
  | none => some b.bytes
  | some k =>
    if k.consumes && s.poisoned b.loc then none
    else some (toBytes b.bytes.length (k.apply (8 * b.bytes.length) (ofBytes (s.readLoc b.loc)) (ofBytes b.bytes)))

/-- The poison of the lines of a location that is part of a write of whole lines: that of the data (10 R226; log 93). -/
def State.stain (s : State) (l : Loc) (bad : Bool) : State :=
  match l with
  | .pool c off len =>
    let p := (s.core c).pool
    let ls := linesOf off len
    s.setCore c { s.core c with pool := { p with poison := if bad then NSet.insertAll p.poison ls else NSet.eraseAll p.poison ls } }
  | .mem ks _ _ =>
    let ls := ks.map (· / 64)
    { s with memPoison := if bad then NSet.insertAll s.memPoison ls else NSet.eraseAll s.memPoison ls }

/-- A store becomes visible to every agent. -/
def State.perform (s : State) (b : BufferedStore) : State :=
  match b.value s with
  | some bs =>
    let s := (s.noteGuest b.home b.loc).writeLoc b.hold b.loc bs
    match b.whole with
    | some bad => s.stain b.loc bad
    | none => s
  | none => s

def State.performAll (s : State) : List BufferedStore → State
  | [] => s
  | b :: bs => (s.perform b).performAll bs

/-- Performs the first `n` buffered stores of a slot. -/
def State.drainStores (s : State) (r : SlotRef) (n : Nat) : State :=
  match n with
  | 0 => s
  | n + 1 =>
    let bs := (s.slot r).stores
    (s.setSlot r { s.slot r with stores := bs.drop (n + 1) }).performAll (bs.take (n + 1))

/-- Performs every buffered store of a slot. -/
def State.flush (s : State) (r : SlotRef) : State := s.drainStores r (s.slot r).stores.length

/-- The stores at the head of a list that stand at one place in program order. -/
def firstPlace : List BufferedStore → List BufferedStore
  | [] => []
  | b :: bs => b :: bs.takeWhile (·.mate)

/-- Performs the store number `n` of those of a slot that stand at its oldest place in program order: they have no order among
themselves, but for those that touch a common byte (08 R176, R177). -/
def State.performOne (s : State) (r : SlotRef) (n : Nat) : State :=
  let bs := (s.slot r).stores
  match (firstPlace bs)[n]? with
  | some b =>
    if (bs.take n).any fun x => x.loc.overlaps b.loc then s
    else (s.setSlot r { s.slot r with stores := removeAt bs n }).perform b
  | none => s

/-- How many of a list's elements lie up to and with the last that satisfies `p`. -/
def lastIndex {α : Type} (p : α → Bool) (xs : List α) : Nat := xs.length - (xs.reverse.takeWhile fun x => !p x).length

/-- Performs the buffered stores of a slot up to the last that touches one of the locations. -/
def State.flushFor (s : State) (r : SlotRef) (ls : List Loc) : State :=
  s.drainStores r (lastIndex (fun b => ls.any b.loc.overlaps) (s.slot r).stores)

/-- Performs the stores of a slot that its last release, if one waits, orders before what follows (11 R250, R252; log 93). -/
def State.flushReleased (s : State) (r : SlotRef) : State := s.drainStores r (lastIndex (·.release) (s.slot r).stores - 1)

/-- A store of a slot (11 R245). -/
def State.buffer (s : State) (r : SlotRef) (b : BufferedStore) : State :=
  s.setSlot r { s.slot r with stores := (s.slot r).stores ++ [b] }

/-- A location has a byte in a locked interval. -/
def Lock.meets (l : Lock) : Loc → Bool
  | .pool c off len => l.hits (.pool c.idx) off len
  | .mem ks pasid ea => l.hits (.virt pasid) ea ks.length

/-- An engine operation reads and writes its ranges only after every earlier access of the issuing core to them (11 R251). -/
def State.flushLocks (s : State) (c : CoreRef) (locks : List Lock) : State :=
  (List.finRange 4).foldl (fun s i =>
    s.drainStores ⟨c, i⟩ (lastIndex (fun b => locks.any fun l => l.meets b.loc) (s.slot ⟨c, i⟩).stores)) s

def State.flushCore (s : State) (c : CoreRef) : State := (List.finRange 4).foldl (fun s i => s.flush ⟨c, i⟩) s

/-- Performs the buffered stores of a slot up to the last that was made for a holding. -/
def State.flushHold (s : State) (r : SlotRef) (h : HoldRef) : State :=
  s.drainStores r (lastIndex (fun b => decide (b.hold = h)) (s.slot r).stores)

/-- Performs the buffered stores of every core of a die. -/
def State.flushDie (s : State) (d : DieId) : State :=
  (s.image d).cores.foldl (fun s p => s.flushCore ⟨d, coreIdx p.1⟩) s

/-- A fresh image on a die, with the marks of the retired cores on which it stands. -/
def State.freshImage (s : State) (d : DieId) : Image := { stood := (s.die d).retired }

/-- A die loses its image: the stores that wait there are performed first. -/
def State.wipeDie (s : State) (d : DieId) : State := (s.flushDie d).setImage d ((s.flushDie d).freshImage d)

/-- A fresh image that keeps the pools of the one that stood there. -/
def Image.poolsOnly (im fresh : Image) : Image := { fresh with cores := im.cores.map fun p => (p.1, { pool := p.2.pool }) }

/-- A die becomes fallow where it stands: nothing of its holding is left but the bytes of its pools, which are cleared when a holding is
next created on it (07 R151, 16 R331; log 146). -/
def State.leaveDie (s : State) (d : DieId) : State :=
  (s.flushDie d).setImage d (((s.flushDie d).image d).poolsOnly ((s.flushDie d).freshImage d))

end Sys2Proof.Machine
end

