-- ==== Sys2Proof/Machine/Ops.lean ====
section
/-! DEFINITION. Shared operations on tasks: fault records, the abort of a task, TAKING A TRAP (12 R260) and the return from
one (R274), trigger entries (05 R97, R98), and the starting of tasks (05 R91). -/

namespace Sys2Proof.Machine

/-! ## Control doublewords (05 R93) -/

def ownerOf (cw : Word) : BitVec 20 := BitVec.ofNat 20 (bits cw 63 44)
def affOf (cw : Word) : Nat := bits cw 39 32
def classOf (cw : Word) : Nat := bits cw 31 30
def prioOf (cw : Word) : Nat := bits cw 29 28
def domainOf (cw : Word) : Nat := bits cw 27 26
def capOf (cw : Word) : Nat := bits cw 7 0

/-! ## Where a task belongs -/

/-- The holding of a task: that of its home core (12 R272). -/
def State.taskHold (s : State) (r : SlotRef) (t : Task) : HoldRef :=
  match t.home with
  | some h => h.hold
  | none => s.holdOf r.core

/-- The home core and slot of a task (12 R271). -/
def State.homeSlot (s : State) (r : SlotRef) (t : Task) : SlotRef :=
  match t.home with
  | some h => ⟨s.homeCore h, h.slot⟩
  | none => r

/-- The coordinates that a task reads in `hx` and `hy`: those of its home core (06 R134). -/
def State.taskCoord (s : State) (r : SlotRef) (t : Task) : Coord :=
  match t.home with
  | some h => coordOn h.hdie h.core
  | none => (s.coord r.core).getD ⟨0, 0⟩

/-! ## Dispatch open or closed (05 R101, 12 R268, 16 R335, 19 R393) -/

/-- A headland or a gang switch pauses the holding. -/
def Phase.pauses (p : Phase) (h : Fin 8) : Bool :=
  match p with
  | .running => false
  | .draining _ _ march outs _ => march || outs.contains h
  | .moved _ march outs ins => march || outs.contains h || ins.contains h

def State.paused (s : State) (h : HoldRef) : Bool := (s.estate h.est).phase.pauses h.ix

/-- Between the move and the resume of a headland or gang switch, a holding's cores and engines stand still. -/
def State.frozenHold (s : State) (h : HoldRef) : Bool :=
  match (s.estate h.est).phase with
  | .moved .. => s.paused h
  | _ => false

/-- A slot of the core is parked (12 R268). -/
def Core.parked (c : Core) : Bool := c.slots.toList.any (·.parked)

/-- Dispatch is open for a holding. -/
def State.holdOpen (s : State) (h : HoldRef) : Bool := (s.hold h).state = .running && !(s.hold h).closed && !s.paused h

/-- Dispatch is open on a core for a holding. -/
def State.open (s : State) (h : HoldRef) (c : CoreRef) : Bool := s.holdOpen h && !(s.core c).parked && !s.retired c

/-- A slot is free (05 R90, R99): enabled by a partition word, with no task, no restored seed, no reservation, no parked mark and no migration
under way. -/
def Core.slotFreeUnder (c : Core) (p : Word) (i : SlotId) : Bool :=
  let sl := c.slots[i]
  i.val < partSlots p && sl.task.isNone && sl.restore.isEmpty && sl.reserved.isNone && !sl.parked && sl.migrating.isNone

/-- A slot is free under the core's own partition word. -/
def Core.slotFree (c : Core) (i : SlotId) : Bool := c.slotFreeUnder c.part i

/-- The lowest free slot of a core. -/
def Core.freeSlot (c : Core) : Option SlotId := (List.finRange 4).find? c.slotFree

/-! ## Signals to the host -/

/-- Signals an MSI-X vector, or holds it pending while it is masked (18 R374). -/
def State.signal (s : State) (f : Fin 64) (v : Fin 3) : State :=
  let x := s.fn f
  if x.fnMask || x.vecMask[v] then s.setFn f { x with vecPend := vset x.vecPend v true }
  else { s with outbox := s.outbox ++ [.msi f v] }

/-- Sets a bit of HOST.EVT, and signals vector 0 of the physical function unless HOST.MASK masks it (20 R412, R416). -/
def State.hostEvent (s : State) (b : Nat) : State :=
  let s := { s with hostEvt := s.hostEvt ||| BitVec.ofNat 7 (2 ^ b) }
  if s.hostMask.getLsbD b then s else s.signal 0 0

/-- A completion vector of the function bound to a holding. -/
def vfOf (h : Holding) : Fin 64 := ⟨h.vf.toNat % 64, Nat.mod_lt _ (by decide)⟩

/-! ## Fault records (12 R264, R265) -/

def flag (b : Bool) : BitVec 1 := if b then 1 else 0

/-- The layout of `flt.cause`. -/
def causeWord (slot : SlotId) (c : Coord) (migrated cont ended async halted parked : Bool) (cause : BitVec 8) : Word :=
  (0 : BitVec 14) ++ BitVec.ofNat 2 slot.val ++ BitVec.ofNat 16 c.hy ++ BitVec.ofNat 16 c.hx ++ (0 : BitVec 2) ++
    flag migrated ++ flag cont ++ flag ended ++ flag async ++ flag halted ++ flag parked ++ cause

/-- The message identifier, doubleword 4 of a record. The arrival serial is 0 where the task has no current message, and where its
message is the null message of an entry that no arrival fired (DESIGN CHOICE, log 106). -/
def identWord (k : TaskKind) (m : Option Msg) : Word :=
  match k with
  | .triggered e => word (e.toNat + 2 ^ 8 + (match m with | some x => x.serial.toNat * 2 ^ 16 | none => 0))
  | .seeded _ => word (2 ^ 9)

/-- The emitted counts, doubleword 5 of a record. -/
def emittedWord (v : Vector Nat 5) : Word :=
  word ((List.finRange 5).foldl (fun a i => a + saturate v[i] 255 * 2 ^ (8 * i.val)) 0)

/-- The kind and the current message of the task that a report names: the caller of an inline child (05 R99, R102). -/
def Task.reported (t : Task) : TaskKind × Option Msg :=
  match t.caller with
  | some c => (c.kind, c.msg)
  | none => (t.kind, t.msg)

/-- The control doubleword of the reported task. -/
def Task.reportedCw (t : Task) : Word := match t.caller with | some c => c.cw | none => t.cw
/-- A task or its hidden caller has this number. -/
def Task.is (t : Task) (id : Nat) : Bool := t.id = id || (match t.caller with | some c => c.id = id | none => false)

/-- Appends a record to a holding's fault queue, or drops it when the queue is full (12 R265, R267). -/
def State.post (s : State) (h : HoldRef) (r : Record) : State :=
  let x := s.hold h
  if x.faultQ.length < Config.faultRecords then
    let r := r.set 0 (r[0] + place (saturate x.faultDropped 255) 56)
    s.setHold h { x with faultQ := x.faultQ ++ [r], faultDropped := 0 }
  else
    (s.setHold h { x with faultDropped := x.faultDropped + 1, faultDrops := x.faultDrops + 1 }).hostEvent 1

/-- Returns a message as a 0x4B record, or as two (12 R265, 13 R288): they are appended together or dropped together. -/
def State.postReturn (s : State) (h : HoldRef) (dest : Coord) (m : Msg) : State :=
  let pay := fun i => m.payload.getD i 0
  let n := m.payload.length
  let cw := fun cont => causeWord 0 dest false cont false false false false 0x4B + place n 50
  let one : Record := #v[cw false, m.header, pay 0, pay 1, pay 2, pay 3, pay 4, pay 5]
  if n ≤ 6 then s.post h one
  else
    let x := s.hold h
    let two : Record := #v[cw true, m.header, pay 6, pay 7, 0, 0, 0, s.time]
    if x.faultQ.length + 2 ≤ Config.faultRecords then (s.post h one).post h two
    else
      (s.setHold h { x with faultDropped := x.faultDropped + 2, faultDrops := x.faultDrops + 2 }).hostEvent 1

/-- Writes the fault registers of a core (12 R264). -/
def State.setFlt (s : State) (c : CoreRef) (cause pc addr info : Word) : State :=
  s.setCore c { s.core c with regs := { (s.core c).regs with fltCause := cause, fltPc := pc, fltAddr := addr, fltInfo := info } }

/-! ## Register images (07 R152) -/

/-- The pool offset of a slot's register image. -/
def imageOffset (p : Word) (i : SlotId) : Nat := imagesBase p + 1280 * i.val

/-- The 1,280 bytes of a register image, with the next program counter. -/
def Task.image (t : Task) (pc : Word) : List Byte :=
  bytesOf ([pc] ++ (t.g.toList.drop 1).take 25 ++ t.args.toList ++ [t.cw] ++ t.g.toList.drop 31) ++
    t.v.toList.flatMap fun x => toBytes 32 x.toNat

/-- A task with the registers of a register image. -/
def Task.load (t : Task) (bs : List Byte) : Task :=
  let w := fun i => word (field bs (8 * i) 8)
  { t with
    pc := w 0
    g := Vector.ofFn fun i => if 1 ≤ i.val ∧ i.val ≤ 25 ∨ i.val = 31 then w i.val else 0
    args := Vector.ofFn fun i => w (26 + i.val)
    cw := w 30
    v := Vector.ofFn fun i => BitVec.ofNat 256 (field bs (256 + 32 * i.val) 32) }

def State.saveImage (s : State) (r : SlotRef) (t : Task) (pc : Word) : State :=
  s.writePool r.core (imageOffset (s.core r.core).part r.slot) (t.image pc)

def State.imageBytes (s : State) (r : SlotRef) : List Byte :=
  Memory.read (s.core r.core).pool.bytes (imageOffset (s.core r.core).part r.slot) 1280

/-! ## Trigger entries (05 R96 to R98, R120) -/

/-- The null message (05 R97). -/
def nullMsg : Msg := {}

/-- One decrement applied to an entry, or put in its pending list (Arrive, R97). -/
def Trigger.arrive (t : Trigger) (m : Msg) : Trigger :=
  if t.state ≠ .armed ∨ t.ret then { t with pend := t.pend ++ [m] }
  else
    let c := t.count.toNat - m.dec.toNat
    if c = 0 then { t with count := 0, state := .runnable, fire := some m }
    else { t with count := BitVec.ofNat 16 c }

/-- Applies pending messages in order until the entry fires (R98). -/
def Trigger.applyAll (t : Trigger) : List Msg → Trigger
  | [] => { t with pend := [] }
  | m :: ms => if t.state = .armed then Trigger.applyAll ({ t with pend := [] }.arrive m) ms else { t with pend := m :: ms }

def Trigger.applyPend (t : Trigger) : Trigger := if t.ret then t else t.applyAll t.pend

/-- `trig.arm` on an entry that is not RUNNING (R120). -/
def Trigger.armWith (t : Trigger) (a : Arm) : Trigger :=
  let t := { t with arm := a, held := none }
  if a.count = 0 then { t with state := .runnable, fire := some nullMsg }
  else { t with state := .armed, count := a.count }.applyPend

/-- What an entry becomes when its task ends (R98). The rule states no count for an entry that goes IDLE, or RUNNABLE by a reload count
of 0; it is set to 0 (log 114). -/
def Trigger.finish (t : Trigger) : Trigger :=
  let t := { t with fire := none, away := none }
  match t.held with
  | some a => t.armWith a
  | none =>
    if t.arm.reload then
      if t.arm.count = 0 then { t with state := .runnable, count := 0, fire := some nullMsg }
      else { t with state := .armed, count := t.arm.count }.applyPend
    else { t with state := .idle, count := 0 }

/-- The message that a task returns, in the place that it has kept in the home core's queue (13 R287); where `mq.pop` left none
current, a null message (log 33). -/
def Trigger.returned (t : Trigger) (m : Option Msg) : Msg :=
  match m, t.away with
  | some x, some y => { x with place := y.place }
  | some x, none => x
  | none, _ => nullMsg

/-- Puts the message of an aborted task back (R99 steps 1 and 2). -/
def Trigger.giveBack (t : Trigger) (m : Option Msg) : Trigger :=
  { t with state := .armed, count := 1, ret := true, fire := none, away := none, pend := t.returned m :: t.pend }

/-- The return mark clears: the returned message fires the entry (R99 step 4), and the count that `trig.rd` shows is then 0
(log 94). -/
def Trigger.reopen (t : Trigger) : Trigger :=
  match t.ret, t.pend with
  | true, m :: ms => { t with ret := false, state := .runnable, count := 0, fire := some m, pend := ms }
  | _, _ => t

/-- The returned message is discarded and the entry follows R98 (R99, 12 R274). -/
def Trigger.discard (t : Trigger) : Trigger :=
  if t.ret then { t with ret := false, pend := t.pend.drop 1 }.finish else t

def State.modTrigger (s : State) (c : CoreRef) (e : BitVec 8) (f : Trigger → Trigger) : State :=
  s.setCore c ((s.core c).setTrigger e (f ((s.core c).trigger e)))

/-- Return marks clear where dispatch opens (05 R99 step 4). -/
def State.settle (s : State) (h : HoldRef) (c : CoreRef) : State :=
  if s.open h c then s.setCore c { s.core c with trig := (s.core c).trig.map fun (e, t) => (e, t.reopen) } else s

/-! ## Queues of seeds (05 R99 to R103) -/

def State.readyRoom (s : State) (d : DieId) : Bool := (s.image d).ready.length < Config.readySeeds
def State.pushReady (s : State) (d : DieId) (x : Seed) : State :=
  s.setImage d { s.image d with ready := (s.image d).ready ++ [x] }
def State.dequeRoom (s : State) (c : CoreRef) : Bool := (s.core c).deque.length < Config.dequeSeeds
def State.pushDeque (s : State) (c : CoreRef) (x : Seed) : State :=
  s.setCore c { s.core c with deque := (s.core c).deque ++ [x] }

/-- A seed of steal domain 0 that leaves its core's deque for the ready queue is bound to the core (R104). -/
def Seed.pinned (x : Seed) (c : CoreRef) : Seed :=
  if domainOf x.cw = 0 ∧ x.bound.isNone ∧ x.mig.isNone then { x with bound := some c.idx } else x

/-- The restore place of a slot takes a seed, behind those that guests of the slot have left there (log 95). -/
def State.keepSeed (s : State) (r : SlotRef) (x : Seed) : State :=
  s.setSlot r { s.slot r with restore := (s.slot r).restore ++ [x] }

/-- The ladder of R99 for a restored seed: deque, ready queue, restore place. A migrating seed goes to the ready queue of
its home die (12 R272). -/
def State.restoreSeed (s : State) (r : SlotRef) (x : Seed) : State :=
  if x.mig.isNone ∧ s.dequeRoom r.core then s.pushDeque r.core x
  else if s.readyRoom r.core.die then s.pushReady r.core.die (x.pinned r.core)
  else s.keepSeed r x

/-- A seed that leaves a retired core (21 R438): steal domain at least 2, not held, bound to no core. -/
def Seed.freed (x : Seed) : Seed :=
  { x with held := false, bound := none, mig := none, cw := if domainOf x.cw < 2 then (x.cw &&& ~~~(0xC000000 : Word)) ||| 0x8000000 else x.cw }

/-- A seed of a retired core goes to the ready queue of its die; while the queue lacks room, it waits in the core's deque (R438). -/
def State.freeSeed (s : State) (c : CoreRef) (x : Seed) : State :=
  if s.readyRoom c.die then s.pushReady c.die x.freed else s.pushDeque c x.freed

/-! ## Yokes (05 R111, R112, R122) -/

/-- A task in a slot is single-stepped (12 R270). -/
def State.steps (s : State) (r : SlotRef) : Bool :=
  let dbg := (s.core r.core).regs.dbg
  bit dbg 0 && decide (bits dbg 2 1 = r.slot.val) && !(s.slot r).halted

/-- Marks a step of the instruction at `pc` that retires in another slot's turn. -/
def State.markStep (s : State) (r : SlotRef) (pc : Word) (fetchFirst : Bool) : State :=
  if s.steps r then s.modTask r fun t => { t with stepped := some (pc, fetchFirst) } else s

/-- Releases a dissenter that waits in `reyoke`: it jumps to its own target. -/
def State.release (s : State) (d : DieId) (cl : Fin 60) (m : Nat × SlotId) : State :=
  let r : SlotRef := ⟨⟨d, clusterCore cl m.1⟩, m.2⟩
  match s.task r with
  | some t => match t.reyoke with
    | some pc => (s.setTask r { t with pc := pc, reyoke := none, waiting := false, parts := [] }).markStep r t.pc true
    | none => s
  | none => s

/-- A yoke dissolves: its members continue alone and its dissenters are released. -/
def State.dissolve (s : State) (d : DieId) (cl : Fin 60) (y : Yoke) : State :=
  let s := s.setCluster d cl { s.cluster d cl with yokes := (s.cluster d cl).yokes.filter (· ≠ y) }
  (y.attached ++ y.loose).foldl (fun s m => s.release d cl m) s

/-- The yoke that holds a slot, attached or as a dissenter. -/
def State.yokeOf (s : State) (r : SlotRef) : Option Yoke :=
  (s.cluster r.core.die (clusterOf r.core.idx)).yokes.find? fun y =>
    y.attached.contains (cidxOf r.core.idx, r.slot) || y.loose.contains (cidxOf r.core.idx, r.slot)

/-- A slot leaves its yoke: the leader dissolves it (R112), another member leaves alone. -/
def State.leaveYoke (s : State) (r : SlotRef) : State :=
  match s.yokeOf r with
  | none => s
  | some y =>
    let me := (cidxOf r.core.idx, r.slot)
    let d := r.core.die
    let cl := clusterOf r.core.idx
    if y.attached.head? = some me then s.dissolve d cl y
    else
      let y' := { y with attached := y.attached.filter (· ≠ me), loose := y.loose.filter (· ≠ me) }
      s.setCluster d cl { s.cluster d cl with yokes := (s.cluster d cl).yokes.map fun z => if z = y then y' else z }

/-! ## Migration, the way back (12 R272) -/

/-- The registers of a core with those that a migrated task wrote, taken from its target core. -/
def CoreRegs.copyBack (home guest : CoreRegs) (wrote : NSet) : CoreRegs :=
  { home with
    fmtA := if wrote.contains 0x020 then guest.fmtA else home.fmtA
    fmtB := if wrote.contains 0x021 then guest.fmtB else home.fmtB
    sclA := if wrote.contains 0x022 then guest.sclA else home.sclA
    sclB := if wrote.contains 0x023 then guest.sclB else home.sclB
    plWt := if wrote.contains 0x024 then guest.plWt else home.plWt
    gbpEps := if wrote.contains 0x030 then guest.gbpEps else home.gbpEps
    geo0 := if wrote.contains 0x1000 then guest.geo0 else home.geo0
    geo1 := if wrote.contains 0x1001 then guest.geo1 else home.geo1
    geo2 := if wrote.contains 0x1002 then guest.geo2 else home.geo2 }

/-- A migrated task writes a register of its target core, which goes home with it (12 R272). -/
def Core.noteReg (c : Core) (home : Option HomeRef) (n : Nat) : Core :=
  { c with saved := c.saved.map fun sv => if home = some sv.home then { sv with wrote := NSet.insert sv.wrote n } else sv }

/-- Copies a line of 64 bytes with its poison; the line is dirty in the copy. -/
def Pool.copyLine (dst src : Pool) (l : Nat) : Pool :=
  let p := dst.write (64 * l) (Memory.read src.bytes (64 * l) 64)
  { p with poison := if src.poison.contains l then NSet.insert p.poison l else NSet.erase p.poison l }

/-- The lines of a pool that a migration carries: mailbox, scratchpad and accumulators, not the register images. -/
def carried (p : Word) (l : Nat) : Bool := 64 * l + 64 ≤ imagesBase p ∨ scratchBase p ≤ 64 * l

/-- The lines and registers that a migrated task wrote replace those of its home core. -/
def State.copyHome (s : State) (r : SlotRef) (t : Task) : State :=
  match t.home, (s.core r.core).saved with
  | some h, some sv =>
    let guest := s.core r.core
    let hc := s.homeCore h
    let home := s.core hc
    let lines := sv.lines.filter (carried guest.part)
    let s := s.setCore hc { home with
      pool := lines.foldl (fun p l => p.copyLine guest.pool l) home.pool
      regs := home.regs.copyBack guest.regs sv.wrote }
    s.setCore r.core { s.core r.core with saved := some { sv with lines := [], wrote := [] } }
  | _, _ => s

/-- A migrated task leaves its target core: what it wrote goes home, and the target core's saved state is restored, the target's own
fault registers among it, so that a report of a local trap made meanwhile is lost there (12 R264, R272; log 120). The task's engine
operations that still run go on reading and writing the target core's own pool (log 119). -/
def State.copyBack (s : State) (r : SlotRef) (t : Task) : State :=
  match t.home, (s.core r.core).saved with
  | some _, some sv =>
    let s := s.copyHome r t
    let guest := s.core r.core
    let handles := if sv.part = guest.part then guest.handles else Vector.replicate 16 {}
    s.setCore r.core { guest with pool := sv.pool, poolOf := sv.poolOf, regs := sv.regs, part := sv.part, handles := handles, saved := none }
  | _, _ => s

/-! ## Leaving a slot -/

/-- The origin of an operation keeps what its fault report needs of the issuing task (12 R265). -/
def Task.stamp (t : Task) (o : Origin) : Origin :=
  if t.is o.task then { o with ident := identWord t.reported.1 t.reported.2, emitted := emittedWord t.emitted } else o

/-- The engine operations that a task issued keep what their fault reports need of it. -/
def Core.stamp (c : Core) (t : Task) : Core :=
  { c with
    plq := c.plq.map fun x => { x with origin := t.stamp x.origin }
    drq := c.drq.map fun x => { x with origin := t.stamp x.origin } }

/-- Reports a fault of an engine operation whose task has ended or is halted: a record with disposition N (12 R261, R264). -/
def State.postAsync (s : State) (c : CoreRef) (o : Origin) (ended : Bool) (cause : BitVec 8) (info addr : Word) : State :=
  let h := match o.home with | some x => x.hold | none => s.holdOf c
  let home := match o.home with | some x => s.homeCore x | none => c
  let slot := match o.home with | some x => x.slot | none => o.slot
  let xy := match o.home with | some x => coordOn x.hdie x.core | none => (s.coord c).getD ⟨0, 0⟩
  let cw := causeWord slot xy o.home.isSome false ended true false false cause
  let s := s.setFlt home cw o.pc addr info
  s.post h #v[cw, o.pc, addr, info, o.ident, o.emitted, o.cw, s.time]

/-- The engine causes that a task had not yet taken when it ended or was halted are only recorded (12 R261). -/
def State.postPending (s : State) (c : CoreRef) (t : Task) (ended : Bool) : State :=
  t.async.foldl (fun s a => s.postAsync c (t.stamp a.origin) ended a.cause a.info a.addr) s

/-- Translation requests of a slot are abandoned: what is outstanding is only cached, what has failed is dropped
(10 R224). -/
def State.abandon (s : State) (die : DieId) (who : Waiter) : State :=
  let keep := (s.die die).ats.filter fun q => !(q.who = who && (match q.stage with | .failed _ => true | _ => false))
  s.setDie die { s.die die with ats := keep.map fun q => if q.who = who then { q with who := .gone } else q }

/-- Nobody waits any more for the page requests of a holding's loader. -/
def State.dropLoader (s : State) (h : HoldRef) : State := (List.finRange 32).foldl (fun s d => s.abandon d (.loader h)) s

/-- A task leaves its slot: its yoke, its translation requests and, on a migration target, the target core. The engine causes
that it has not taken are recorded, before the record of a trap that ends it (log 129). -/
def State.vacate (s : State) (r : SlotRef) (t : Task) : State :=
  let s := if t.home.isSome then s.flush r else s
  let s := s.leaveYoke r
  let s := s.abandon r.core.die (.slot r.core.idx r.slot)
  let s := s.setCore r.core ((s.core r.core).stamp t)
  let s := s.copyBack r t
  let s := s.postPending r.core t true
  let sl := s.slot r
  s.setSlot r { sl with task := none, reserved := if t.tag = sl.reserved then none else sl.reserved }

/-- The abort of a task (05 R99, R102, R107, R108): buffered sends are discarded, the message returns to the entry or the
seed is restored; under disposition P the home slot is parked. Where the home core of a migrated task has retired, its message
is returned and its seed leaves that core (21 R438). -/
def State.abort (s : State) (r : SlotRef) (park : Bool) : State :=
  match s.task r with
  | none => s
  | some t =>
    let home := s.homeSlot r t
    let s := s.vacate r t
    match t.reported with
    | (.triggered e, m) =>
      if s.retired home.core then
        let xy := match t.home with | some x => coordOn x.hdie x.core | none => ⟨0, 0⟩
        m.toList.foldl (fun s m => s.postReturn (s.taskHold r t) xy m) s
      else
        let s := s.modTrigger home.core e (·.giveBack m)
        if park then s.setSlot home { s.slot home with parked := true, parkedEntry := (s.slot home).parkedEntry ++ [e] }
        else s.settle (s.taskHold r t) home.core
    | (.seeded sd, _) =>
      if s.retired home.core then s.freeSeed home.core sd
      else if park then
        let s := s.keepSeed home sd
        s.setSlot home { s.slot home with parked := true }
      else s.restoreSeed home sd

/-! ## Taking a trap (12 R260 to R266, R271) -/

/-- Dispositions (12 R262). -/
inductive Disp where
  | park
  | halt
  | migrate
  | drain
  | note
deriving DecidableEq, Repr

/-- The disposition of a cause raised in a task (12 R263). -/
def disposition (cause : BitVec 8) : Disp :=
  if cause = 0x50 ∨ cause = 0x53 then .halt
  else if cause = 0x40 then .migrate
  else if cause = 0x46 then .drain
  else if cause = 0x4B ∨ cause = 0x57 then .note
  else .park

/-- A trap: its cause, address and information (12 R264, R266). -/
structure Trap where
  cause : BitVec 8
  info : Word := 0
  addr : Word := 0
deriving DecidableEq, Repr

/-- The home of a task that migrates (12 R271): its slot, or the home that it had already. -/
def State.homeRef (s : State) (r : SlotRef) (t : Task) : HomeRef :=
  match t.home with
  | some h => h
  | none => ⟨s.taskHold r t, match s.holdAt r.core.die with | some (_, k) => k | none => 0, r.core.idx, r.slot⟩

/-- The message of a task that migrates stays away from its entry, in the place of the home core's queue that it has held since it
came (13 R287). -/
def Trigger.leave (x : Trigger) (m : Option Msg) : Trigger :=
  { x with away := m.map fun y => match x.away with | some z => { y with place := z.place } | none => y }

/-- The seed with which a task migrates, and its message (12 R271, 05 R99): the entry keeps the message's place in the home
core's queue (log 40). -/
def State.migrant (s : State) (r : SlotRef) (t : Task) (set : BitVec 8) : Seed :=
  let c := s.core (s.homeSlot r t).core
  let home := s.homeRef r t
  match t.reported with
  | (.triggered e, m) =>
    { pc := (c.trigger e).arm.handler, args := #v[word e.toNat, 0, 0, 0], cw := t.reportedCw, part := c.part, tag := t.tag
      mig := some ⟨home, set, some e, m.map fun x => { x with place := .none }⟩ }
  | (.seeded sd, _) => { sd with mig := some ⟨home, set, none, none⟩ }

/-- A record about a task of a kind with a current message and a control doubleword (12 R265). -/
def State.recordOf (s : State) (t : Task) (k : TaskKind) (m : Option Msg) (own cw pc addr info : Word) : Record :=
  #v[cw, pc, addr, info, identWord k m, emittedWord t.emitted, own, s.time]

/-- The record of a report about a task, which names the caller of an inline child (R265, 05 R102). -/
def State.taskRecord (s : State) (t : Task) (cw pc addr info : Word) : Record :=
  s.recordOf t t.reported.1 t.reported.2 t.reportedCw cw pc addr info

/-- Takes a cause in the task of a slot, reported at `pc`: the accesses before it stand, then the fault registers, the abort, and
the disposition, in this order (12 R260, R262). The fault registers are those of the task's home core (log 96). `async` marks a cause of an engine operation (R261); `next` is the next program counter that a halt saves
(R269). For cause 0x40, `info` names the capability set; a migrated task whose home core has retired meanwhile leaves as at an abort.
The core that parks is that of the home slot, and for a halted task the one on which it is halted. -/
def State.takeTrap (s : State) (r : SlotRef) (tr : Trap) (pc next : Word) (async : Bool) : State :=
  match s.task r with
  | none => s
  | some t =>
    let s := s.flush r
    let home := s.homeSlot r t
    let xy := s.taskCoord r t
    let h := s.taskHold r t
    let halts := disposition tr.cause = .halt ∧ t.caller.isNone
    let parks := (disposition tr.cause = .park ∨ disposition tr.cause = .halt) ∧ (halts ∨ !s.retired home.core)
    let cw := causeWord home.slot xy t.home.isSome false false async halts parks tr.cause
    let info := if tr.cause = 0x40 then 0 else tr.info
    let s := s.setFlt home.core cw pc tr.addr info
    let rec_ := s.taskRecord t cw pc tr.addr info
    let at_ := if halts then r.core else home.core
    let tell := fun (s : State) => if s.supervisor h = some at_ then s.hostEvent 0 else s
    match disposition tr.cause with
    | .halt =>
      if t.caller.isNone then
        let s := s.saveImage r t next
        let s := s.setSlot r { s.slot r with
          parked := true, halted := true, task := some { t with pc := next, waiting := false, async := [] } }
        (tell ((s.leaveYoke r).post h rec_)).postPending r.core t false
      else tell ((s.abort r true).post h rec_)
    | .park => tell ((s.abort r true).post h rec_)
    | .migrate =>
      if s.retired home.core then s.abort r false
      else
      let sd := s.migrant r t (BitVec.ofNat 8 tr.info.toNat)
      let s := s.vacate r t
      let s := match t.reported with
        | (.triggered e, m) => s.modTrigger home.core e (·.leave m)
        | (.seeded _, _) => s
      s.setSlot r { s.slot r with migrating := some sd }
    | .drain => s.abort r false
    | .note => s.post h rec_

/-- An engine operation raises a cause (12 R261): it waits for the next instruction of the issuing task if that task occupies
its slot and is not halted, and is only recorded otherwise. -/
def State.engineFault (s : State) (c : CoreRef) (o : Origin) (cause : BitVec 8) (info addr : Word) : State :=
  let r : SlotRef := ⟨c, o.slot⟩
  match s.task r with
  | some t =>
    if t.is o.task then
      if (s.slot r).halted then s.postAsync c (t.stamp o) false cause info addr
      else s.setTask r { t with async := t.async ++ [⟨cause, o, info, addr⟩] }
    else s.postAsync c o true cause info addr
  | none => s.postAsync c o true cause info addr

/-! ## The return from a trap (12 R274) -/

/-- Every core of the dies on which an estate stands, sparse: the cores whose state is not that of a fresh core. -/
def State.listedCores (s : State) : List CoreRef :=
  (List.finRange 32).flatMap fun d => (s.image d).cores.map fun (i, _) => ⟨d, coreIdx i⟩

/-- The slot in which a migrated task of a home slot is halted (log 34). -/
def State.haltedGuest (s : State) (h : HomeRef) : Option SlotRef :=
  (s.listedCores.flatMap fun c => (List.finRange 4).map fun i => (⟨c, i⟩ : SlotRef)).find? fun r =>
    (s.slot r).halted && (match s.task r with | some t => t.home = some h | none => false)

/-- The parked mark of a slot clears. -/
def State.clearMark (s : State) (r : SlotRef) : State :=
  s.setSlot r { s.slot r with parked := false, halted := false, parkedEntry := [] }

/-- A halted task continues from its image, or is discarded. -/
def State.unhalt (s : State) (r : SlotRef) (t : Task) (discard : Bool) : State :=
  if discard then
    let home := s.homeSlot r t
    let s := (s.vacate r t).clearMark r
    match t.reported with
    | (.triggered e, _) => s.modTrigger home.core e Trigger.finish
    | (.seeded _, _) => s
  else (s.setTask r { t.load (s.imageBytes r) with kept := [], parts := [] }).clearMark r

/-- What aborted tasks left in a parked slot is discarded or released: returned messages, and a restored seed. Another task
may run in the slot meanwhile (log 95). -/
def State.releaseWork (s : State) (r : SlotRef) (discard : Bool) : State :=
  let sl := s.slot r
  if discard then
    let s := s.setSlot r { sl with restore := [] }
    (sl.parkedEntry.foldl (fun s e => s.modTrigger r.core e Trigger.discard) s).clearMark r
  else sl.restore.foldl (fun s x => s.restoreSeed r x) ((s.setSlot r { sl with restore := [] }).clearMark r)

/-- Releases one parked slot: a halted task continues from its image or is discarded; returned messages or a restored
seed are released or discarded; the mark clears, and dispatch opens when none remain. -/
def State.unpark (s : State) (h : HoldRef) (r : SlotRef) (discard : Bool) : State :=
  let sl := s.slot r
  if !sl.parked then s
  else
    let s := match sl.task with
      | some t => if sl.halted then (s.releaseWork r discard).unhalt r t discard else s.releaseWork r discard
      | none => s.releaseWork r discard
    s.settle h r.core

/-- `resume` on holding coordinates (12 R274): the slot named, or the slot in which its migrated task is halted. A guest halted on a
fallow partner die whose image has come to stand on a retired core continues there (log 111). -/
def State.resumeAt (s : State) (h : HoldRef) (x y : Nat) (slot : SlotId) (discard : Bool) : State :=
  let c := s.coreAt h x y
  if (s.slot ⟨c, slot⟩).parked then s.unpark h ⟨c, slot⟩ discard
  else match s.haltedGuest ⟨h, x / 20, c.idx, slot⟩ with
    | some r => s.unpark h r discard
    | none => s

/-! ## Starting tasks (05 R91) -/

/-- A new task in a slot: every register zero, the event bit clear, the watchdog exponent of the holding. -/
def State.start (s : State) (h : HoldRef) (r : SlotRef) (t : Task) : State :=
  let w := (s.hold h).w
  let s := s.setSlot r { s.slot r with event := false, task := some { t with id := s.nextId, w := w } }
  { s with nextId := s.nextId + 1 }

/-- Starts a seed in a slot of a core of its holding. -/
def State.startSeed (s : State) (h : HoldRef) (r : SlotRef) (x : Seed) : State :=
  s.start h r { pc := x.pc, args := x.args, cw := x.cw, kind := .seeded x, tag := x.tag }

/-- Dispatches a RUNNABLE entry in a slot (05 R91, R96). -/
def State.startTrigger (s : State) (h : HoldRef) (r : SlotRef) (e : BitVec 8) : State :=
  let t := (s.core r.core).trigger e
  let s := s.modTrigger r.core e fun t => { t with state := .running, fire := none }
  s.start h r { pc := t.arm.handler, args := #v[word e.toNat, 0, 0, 0], cw := t.arm.cw, kind := .triggered e, tag := t.arm.tag,
                msg := t.fire }

end Sys2Proof.Machine
end

