-- ==== Sys2Proof/Machine/Operands.lean ====
section
/-! DEFINITION. Register operands: plain registers, the furrow and the ports (06 R123 to R128), and the one frame in which
every instruction word runs: port checks, waits, pops, the effect, the push of the result (R125). -/

namespace Sys2Proof.Machine

/-! ## Neighbours (06 R126, R127, R128) -/

def Dir.index : Dir → Fin 4
  | .north => 0
  | .east => 1
  | .south => 2
  | .west => 3
def Dir.opposite : Dir → Dir
  | .north => .south
  | .east => .west
  | .south => .north
  | .west => .east

/-- Coordinates one tile in a direction, or none beyond the north or west edge. -/
def moveCoord (c : Coord) : Dir → Option Coord
  | .north => if c.hy = 0 then none else some ⟨c.hx, c.hy - 1⟩
  | .south => some ⟨c.hx, c.hy + 1⟩
  | .east => some ⟨c.hx + 1, c.hy⟩
  | .west => if c.hx = 0 then none else some ⟨c.hx - 1, c.hy⟩

/-- The core that a port faces: none beyond the holding grid, at a retired core, or on a die that holds none (R128, 12
R272). -/
def State.neighbour (s : State) (c : CoreRef) (d : Dir) : Option CoreRef :=
  match s.holdAt c.die with
  | none => none
  | some (h, k) =>
    match moveCoord (coordOn k c.idx) d with
    | none => none
    | some xy =>
      let n := s.coreAt h xy.hx xy.hy
      if s.inGrid h xy.hx xy.hy && !s.retired n then some n else none

/-- The successor of a core in the furrow ring: the next non-retired index of its cluster (R126). -/
def State.successor (s : State) (c : CoreRef) : CoreRef :=
  let at_ := fun i => (⟨c.die, clusterCore (clusterOf c.idx) i⟩ : CoreRef)
  match cyclic 8 (cidxOf c.idx + 1) fun i => !s.retired (at_ i) with
  | some i => at_ i
  | none => c

/-! ## Queues that registers name -/

/-- The queue that a register field names: the furrow or a port (R123). -/
inductive Chan where
  | furrow
  | port (d : Dir)
deriving DecidableEq, Repr

def chanOf (r : Reg) : Option Chan :=
  match r.toNat with
  | 26 => some .furrow
  | 27 => some (.port .north)
  | 28 => some (.port .east)
  | 29 => some (.port .south)
  | 30 => some (.port .west)
  | _ => none

/-- Index of a channel in the emitted counts (12 R265). -/
def Chan.index : Chan → Fin 5
  | .furrow => 0
  | .port .north => 1
  | .port .east => 2
  | .port .south => 3
  | .port .west => 4

/-- The words that wait to be popped. -/
def Core.inbound (c : Core) : Chan → List Word
  | .furrow => c.fwIn
  | .port d => c.portIn[d.index]

def Core.setInbound (c : Core) (q : Chan) (ws : List Word) : Core :=
  match q with
  | .furrow => { c with fwIn := ws }
  | .port d => { c with portIn := vset c.portIn d.index ws }

/-- The first port of a list of fields that faces no core (R128). -/
def State.deadPort (s : State) (c : CoreRef) : List Reg → Option Dir
  | [] => none
  | r :: rs =>
    match chanOf r with
    | some (.port d) => if (s.neighbour c d).isNone then some d else s.deadPort c rs
    | _ => s.deadPort c rs

/-- The value of a storage register; g0 reads 0 (R123). -/
def Task.reg (t : Task) (r : Reg) : Word := if r = 0 then 0 else t.g[r.toNat]'r.isLt
def Task.setReg (t : Task) (r : Reg) (v : Word) : Task :=
  if r = 0 then t else { t with g := t.g.set r.toNat v r.isLt }

/-- Reads register fields in order, each field of a channel taking the next word; none while a word is missing (R125). -/
def readFields (t : Task) (c : Core) : List Reg → Option (List Word × Core)
  | [] => some ([], c)
  | r :: rs =>
    match chanOf r with
    | none => (readFields t c rs).map fun (vs, c') => (t.reg r :: vs, c')
    | some q =>
      match c.inbound q with
      | [] => none
      | w :: ws => (readFields t (c.setInbound q ws) rs).map fun (vs, c') => (w :: vs, c')

/-- The core and the channel into which a write of a register pushes (R126, R127). -/
def State.pushTarget (s : State) (c : CoreRef) : Chan → Option (CoreRef × Chan)
  | .furrow => some (s.successor c, .furrow)
  | .port d => (s.neighbour c d).map fun n => (n, .port d.opposite)

/-- Places of an inbound queue (R126, R127). -/
def Chan.places : Chan → Nat
  | .furrow => 4
  | .port _ => 2

/-- The queue that a destination pushes has room. -/
def State.roomFor (s : State) (c : CoreRef) (d : Reg) : Bool :=
  match chanOf d with
  | none => true
  | some q => match s.pushTarget c q with
    | some (n, q') => ((s.core n).inbound q').length < q'.places
    | none => true

def Task.emit (t : Task) (q : Chan) : Task := { t with emitted := vset t.emitted q.index (t.emitted[q.index] + 1) }

/-- Writes a result: stores it, pushes it, or discards it at g0 (R123). -/
def State.writeReg (s : State) (r : SlotRef) (d : Reg) (v : Word) : State :=
  match chanOf d with
  | none => s.modTask r fun t => t.setReg d v
  | some q => match s.pushTarget r.core q with
    | none => s
    | some (n, q') =>
      let s := s.setCore n ((s.core n).setInbound q' ((s.core n).inbound q' ++ [v]))
      s.modTask r fun t => t.emit q

/-! ## The frame of an instruction -/

/-- What the effect of an instruction does: it completes with a result, completes with a next fetch address, waits (for
translations, if any, or with a change of its own), traps, or leaves its slot to another task or to
none. -/
inductive Eff where
  | done (s : State) (v : Word)
  | jump (s : State) (v pc : Word)
  | wait (reqs : List AtsReq)
  | waitWith (f : State → State)
  | trap (t : Trap)
  | gone (s : State)

/-- An instruction that cannot complete yet: its slot waits at the same address. -/
def State.waitAt (s : State) (r : SlotRef) (reqs : List AtsReq) : State :=
  (reqs.foldl (fun s q => s.addReq r.core.die q) s).modTask r fun t => { t with waiting := true, on := none, met := false }

/-- The state in which an effect runs: the sources are popped and the next fetch address is that of the next word. -/
def State.retire (s : State) (r : SlotRef) (c : Core) (t : Task) : State :=
  (s.setCore r.core c).setTask r { t with pc := t.pc + 4, waiting := false, on := none, met := false, parts := [] }

/-- The wait of a task on a condition has been met. -/
def Task.hasMet (t : Task) (w : WaitOn) : Bool := t.met && decide (t.on = some w)

/-- Runs an instruction of the slot `cur` with source fields `srcs`, destination field `dst` and an effect on the values
read (R125). -/
def runOp (srcs : List Reg) (dst : Reg) (f : State → SlotRef → Task → List Word → Eff) (s : State) :
    Host.Outcome State Fault Refusal :=
  let r := s.cur
  match s.task r with
  | none => .fault .noTask
  | some t =>
    match s.deadPort r.core (srcs ++ [dst]) with
    | some d => .next (s.takeTrap r { cause := 0x47, info := word d.index.val } t.pc (t.pc + 4) false)
    | none =>
      match readFields t (s.core r.core) srcs with
      | none => .next (s.waitAt r [])
      | some (vs, c) =>
        if !s.roomFor r.core dst then .next (s.waitAt r [])
        else
          match f (s.retire r c t) r t vs with
          | .done s' v => .next (s'.writeReg r dst v)
          | .jump s' v pc => .next ((s'.modTask r fun t => { t with pc := pc }).writeReg r dst v)
          | .wait reqs => .next (s.waitAt r reqs)
          | .waitWith g => .next (g (s.waitAt r []))
          | .trap tr => .next (s.takeTrap r tr t.pc (t.pc + 4) false)
          | .gone s' => .next s'

/-- An instruction that computes a value from its source values. -/
def valueOp (srcs : List Reg) (dst : Reg) (f : List Word → Word) (s : State) : Host.Outcome State Fault Refusal :=
  runOp srcs dst (fun s _ _ vs => .done s (f vs)) s

/-- An instruction that reads the device's state to form its value. -/
def readOp (srcs : List Reg) (dst : Reg) (f : State → SlotRef → Task → List Word → Word) (s : State) :
    Host.Outcome State Fault Refusal :=
  runOp srcs dst (fun s r t vs => .done s (f s r t vs)) s

/-- Continues an access: waits and causes pass on, with the instruction word and the address in the report (12 R266). -/
def Got.eff {α : Type} (g : Got α) (info addr : Word) (f : α → Eff) : Eff :=
  match g with
  | .ok x => f x
  | .wait r => .wait [r]
  | .trap c => .trap { cause := c, info := info, addr := addr }

/-- A write of a task that is performed at once, after the slot's earlier stores (11 R246). -/
def State.storeNow (s : State) (r : SlotRef) (t : Task) (l : Loc) (bs : List Byte) : State :=
  (s.noteGuest t.home l).writeLoc (s.taskHold r t) l bs

/-- A load follows the slot's own stores that touch one of its bytes (11 R246). -/
def State.loads (s : State) (r : SlotRef) (ls : List Loc) (f : State → Eff) : Eff := f (s.flushFor r ls)

/-- An atomic, an indivisible write or a release follows every earlier store of the slot (11 R246, R249). -/
def State.fences (s : State) (r : SlotRef) (f : State → Eff) : Eff := f (s.flush r)

/-- A wait of which the machine keeps what it waits for. -/
def waitFor (r : SlotRef) (w : WaitOn) : Eff := .waitWith fun s => s.modTask r fun t => { t with on := some w, met := false }

/-- An instruction word as trap information (12 R266). -/
def wordInfo (w : W32) : Word := w.setWidth 64

/-! ## Instruction fetch (06 R145, 10 R220, R227) -/

/-- The word at the task's program counter: 0x10 where the address is not a multiple of 4, not canonical, in pool space, or
lacks a translation or a permission; 0x52 where the word is poisoned. A word that the task fetched ahead stays what it was
then (11 R442); its translation and its poison are looked up again at each execution (log 118). -/
def State.fetch (s : State) (r : SlotRef) (t : Task) : Got W32 :=
  if bits t.pc 1 0 ≠ 0 ∨ inPoolSpace t.pc ∨ !canonical t.pc then .trap 0x10
  else
    match s.translateRange r.core.die (.slot r.core.idx r.slot) (ownerOf t.cw) t.pc.toNat { read := true, exec := true } 4 with
    | .wait q => .wait q
    | .trap _ => .trap 0x10
    | .ok ks =>
      if ks.any fun k => s.memPoison.contains (k / 64) then .trap 0x52
      else .ok (FMap.get (BitVec.ofNat 32 (ofBytes (ks.map fun k => Memory.get s.mem k))) t.kept t.pc.toNat)

/-- The task of a slot fetches a word ahead of its execution and keeps it, or forgets it (11 R442). -/
def State.fetchAhead (s : State) (r : SlotRef) (pc : Word) (keep : Bool) : State :=
  match s.task r with
  | none => s
  | some t =>
    let kept := FMap.erase t.kept pc.toNat
    if !keep then s.setTask r { t with kept := kept }
    else match s.fetch r { t with pc := pc, kept := kept } with
      | .ok w => s.setTask r { t with kept := FMap.set kept pc.toNat w }
      | _ => s

/-- Takes a cause of a fetch, which is reported at the address that was to be fetched. For 0x10, 12 R266 gives the
instruction word, and there is none: a free value (log 35). -/
def State.fetchTrap (s : State) (r : SlotRef) (t : Task) (cause : BitVec 8) : State :=
  let info := if cause = 0x10 then Config.freeWord s.freshCount else 0
  let s := { s with freshCount := s.freshCount + 1 }
  s.takeTrap r { cause := cause, info := info, addr := t.pc } t.pc t.pc false

/-- The capability check of decode (03 R55, R57): an opcode of a set that a lean die lacks raises 0x40 there. -/
def onFull (set : BitVec 8) (s : State) (k : State → Host.Outcome State Fault Refusal) : Host.Outcome State Fault Refusal :=
  let r := s.cur
  match s.task r with
  | none => .fault .noTask
  | some t =>
    if lean r.core.die then .next (s.takeTrap r { cause := 0x40, info := set.setWidth 64 } t.pc (t.pc + 4) false) else k s

end Sys2Proof.Machine
end

