-- ==== Sys2Proof/Machine/Alu.lean ====
section
/-! DEFINITION. Integer arithmetic and logic, major 0x01 (06 R137 to R140), and the immediate forms (R141, R142). -/

namespace Sys2Proof.Machine

/-- Shift and rotate amounts use B[5:0] (R137). -/
def shiftAmount (b : Word) : Nat := bits b 5 0

/-- Quotients and remainders truncated toward zero, with the results of R138 for B = 0; the signed forms wrap for the most
negative dividend and divisor -1. The natural forms have no special case there, and the quotient is 0: the table's cell for `divn`
gives 2⁶³ beside these words, and A = quotient × B + remainder with its remainder 2⁶³ gives 0 (log 115). -/
def quotS {n : Nat} (a b : BitVec n) : BitVec n := if b = 0 then BitVec.ofInt n (-1) else BitVec.ofInt n (a.toInt.tdiv b.toInt)
def quotN {n : Nat} (a b : BitVec n) : BitVec n := if b = 0 then BitVec.ofInt n (-1) else BitVec.ofNat n (a.toNat / b.toNat)
def remS {n : Nat} (a b : BitVec n) : BitVec n := if b = 0 then a else BitVec.ofInt n (a.toInt.tmod b.toInt)
def remN {n : Nat} (a b : BitVec n) : BitVec n := if b = 0 then a else BitVec.ofNat n (a.toNat % b.toNat)

/-- The number of zero bits above the highest one bit of an n-bit number (R137). -/
def leadingZeros : (n x : Nat) → Nat
  | 0, _ => 0
  | n + 1, x => if x.testBit n then 0 else leadingZeros n x + 1
/-- The number of zero bits below the lowest one bit. -/
def trailingZeros : (n x : Nat) → Nat
  | 0, _ => 0
  | n + 1, x => if x % 2 = 1 then 0 else trailingZeros n (x / 2) + 1
/-- The number of one bits. -/
def ones : (n x : Nat) → Nat
  | 0, _ => 0
  | n + 1, x => x % 2 + ones n (x / 2)

/-- `bext` (R139): the field of position B[5:0] and length B[13:8] + 1. -/
def extractField (a b : Word) : Word := zext (a >>> bits b 5 0) (bits b 13 8 + 1)
/-- `bins` (R139). -/
def insertField (d a b : Word) : Word :=
  let p := bits b 5 0
  let mask := word ((2 ^ (bits b 13 8 + 1) - 1) * 2 ^ p)
  (d &&& ~~~mask) ||| ((a <<< p) &&& mask)

/-- A value of two source values. -/
def two (f : Word → Word → Word) : List Word → Word
  | [a, b] => f a b
  | _ => 0
/-- A value of one source value. -/
def one (f : Word → Word) : List Word → Word
  | [a] => f a
  | _ => 0
/-- A value of three source values. -/
def three (f : Word → Word → Word → Word) : List Word → Word
  | [a, b, d] => f a b d
  | _ => 0

/-- `add` (R137). -/
def execAdd (d a b : Reg) (_ : BitVec 1) (s : State) : Host.Outcome State Fault Refusal :=
  valueOp [a, b] d (two fun a b => a + b) s

/-- `sub` (R137). -/
def execSub (d a b : Reg) (_ : BitVec 1) (s : State) : Host.Outcome State Fault Refusal :=
  valueOp [a, b] d (two fun a b => a - b) s

/-- `and` (R137). -/
def execAnd (d a b : Reg) (_ : BitVec 1) (s : State) : Host.Outcome State Fault Refusal :=
  valueOp [a, b] d (two fun a b => a &&& b) s

/-- `or` (R137). -/
def execOr (d a b : Reg) (_ : BitVec 1) (s : State) : Host.Outcome State Fault Refusal :=
  valueOp [a, b] d (two fun a b => a ||| b) s

/-- `xor` (R137). -/
def execXor (d a b : Reg) (_ : BitVec 1) (s : State) : Host.Outcome State Fault Refusal :=
  valueOp [a, b] d (two fun a b => a ^^^ b) s

/-- `andn` (R137). -/
def execAndn (d a b : Reg) (_ : BitVec 1) (s : State) : Host.Outcome State Fault Refusal :=
  valueOp [a, b] d (two fun a b => a &&& ~~~b) s

/-- `sll` (R137). -/
def execSll (d a b : Reg) (_ : BitVec 1) (s : State) : Host.Outcome State Fault Refusal :=
  valueOp [a, b] d (two fun a b => a <<< shiftAmount b) s

/-- `srl` (R137). -/
def execSrl (d a b : Reg) (_ : BitVec 1) (s : State) : Host.Outcome State Fault Refusal :=
  valueOp [a, b] d (two fun a b => a >>> shiftAmount b) s

/-- `sra` (R137). -/
def execSra (d a b : Reg) (_ : BitVec 1) (s : State) : Host.Outcome State Fault Refusal :=
  valueOp [a, b] d (two fun a b => a.sshiftRight (shiftAmount b)) s

/-- `rotl` (R137). -/
def execRotl (d a b : Reg) (_ : BitVec 1) (s : State) : Host.Outcome State Fault Refusal :=
  valueOp [a, b] d (two fun a b => a.rotateLeft (shiftAmount b)) s

/-- `slt` (R137). -/
def execSlt (d a b : Reg) (_ : BitVec 1) (s : State) : Host.Outcome State Fault Refusal :=
  valueOp [a, b] d (two fun a b => ofBool (ltS a b)) s

/-- `sltn` (R137). -/
def execSltn (d a b : Reg) (_ : BitVec 1) (s : State) : Host.Outcome State Fault Refusal :=
  valueOp [a, b] d (two fun a b => ofBool (ltN a b)) s

/-- `min` (R137). -/
def execMin (d a b : Reg) (_ : BitVec 1) (s : State) : Host.Outcome State Fault Refusal :=
  valueOp [a, b] d (two fun a b => if ltS a b then a else b) s

/-- `max` (R137). -/
def execMax (d a b : Reg) (_ : BitVec 1) (s : State) : Host.Outcome State Fault Refusal :=
  valueOp [a, b] d (two fun a b => if ltS a b then b else a) s

/-- `minn` (R137). -/
def execMinn (d a b : Reg) (_ : BitVec 1) (s : State) : Host.Outcome State Fault Refusal :=
  valueOp [a, b] d (two fun a b => if ltN a b then a else b) s

/-- `maxn` (R137). -/
def execMaxn (d a b : Reg) (_ : BitVec 1) (s : State) : Host.Outcome State Fault Refusal :=
  valueOp [a, b] d (two fun a b => if ltN a b then b else a) s

/-- `mul` (R137). -/
def execMul (d a b : Reg) (_ : BitVec 1) (s : State) : Host.Outcome State Fault Refusal :=
  valueOp [a, b] d (two fun a b => a * b) s

/-- `mulh` (R137). -/
def execMulh (d a b : Reg) (_ : BitVec 1) (s : State) : Host.Outcome State Fault Refusal :=
  valueOp [a, b] d (two fun a b => BitVec.ofInt 64 (a.toInt * b.toInt / 2 ^ 64)) s

/-- `mulhn` (R137). -/
def execMulhn (d a b : Reg) (_ : BitVec 1) (s : State) : Host.Outcome State Fault Refusal :=
  valueOp [a, b] d (two fun a b => word (a.toNat * b.toNat / 2 ^ 64)) s

/-- `div` (R138). -/
def execDiv (d a b : Reg) (_ : BitVec 1) (s : State) : Host.Outcome State Fault Refusal :=
  valueOp [a, b] d (two fun a b => quotS a b) s

/-- `divn` (R138). -/
def execDivn (d a b : Reg) (_ : BitVec 1) (s : State) : Host.Outcome State Fault Refusal :=
  valueOp [a, b] d (two fun a b => quotN a b) s

/-- `rem` (R138). -/
def execRem (d a b : Reg) (_ : BitVec 1) (s : State) : Host.Outcome State Fault Refusal :=
  valueOp [a, b] d (two fun a b => remS a b) s

/-- `remn` (R138). -/
def execRemn (d a b : Reg) (_ : BitVec 1) (s : State) : Host.Outcome State Fault Refusal :=
  valueOp [a, b] d (two fun a b => remN a b) s

/-- `bext` (R139). -/
def execBext (d a b : Reg) (_ : BitVec 1) (s : State) : Host.Outcome State Fault Refusal :=
  valueOp [a, b] d (two fun a b => extractField a b) s

/-- `sext` (R139). -/
def execSext (d a b : Reg) (_ : BitVec 1) (s : State) : Host.Outcome State Fault Refusal :=
  valueOp [a, b] d (two fun a b => sext a (bits b 5 0 + 1)) s

/-- `zext` (R139). -/
def execZext (d a b : Reg) (_ : BitVec 1) (s : State) : Host.Outcome State Fault Refusal :=
  valueOp [a, b] d (two fun a b => zext a (bits b 5 0 + 1)) s

/-- `add.w` (R140). -/
def execAddW (d a b : Reg) (_ : BitVec 1) (s : State) : Host.Outcome State Fault Refusal :=
  valueOp [a, b] d (two fun a b => sext32 (lo32 a + lo32 b)) s

/-- `sub.w` (R140). -/
def execSubW (d a b : Reg) (_ : BitVec 1) (s : State) : Host.Outcome State Fault Refusal :=
  valueOp [a, b] d (two fun a b => sext32 (lo32 a - lo32 b)) s

/-- `sll.w` (R140). -/
def execSllW (d a b : Reg) (_ : BitVec 1) (s : State) : Host.Outcome State Fault Refusal :=
  valueOp [a, b] d (two fun a b => sext32 (lo32 a <<< bits b 4 0)) s

/-- `srl.w` (R140). -/
def execSrlW (d a b : Reg) (_ : BitVec 1) (s : State) : Host.Outcome State Fault Refusal :=
  valueOp [a, b] d (two fun a b => sext32 (lo32 a >>> bits b 4 0)) s

/-- `sra.w` (R140). -/
def execSraW (d a b : Reg) (_ : BitVec 1) (s : State) : Host.Outcome State Fault Refusal :=
  valueOp [a, b] d (two fun a b => sext32 ((lo32 a).sshiftRight (bits b 4 0))) s

/-- `mul.w` (R140). -/
def execMulW (d a b : Reg) (_ : BitVec 1) (s : State) : Host.Outcome State Fault Refusal :=
  valueOp [a, b] d (two fun a b => sext32 (lo32 a * lo32 b)) s

/-- `div.w` (R140). -/
def execDivW (d a b : Reg) (_ : BitVec 1) (s : State) : Host.Outcome State Fault Refusal :=
  valueOp [a, b] d (two fun a b => sext32 (quotS (lo32 a) (lo32 b))) s

/-- `divn.w` (R140). -/
def execDivnW (d a b : Reg) (_ : BitVec 1) (s : State) : Host.Outcome State Fault Refusal :=
  valueOp [a, b] d (two fun a b => sext32 (quotN (lo32 a) (lo32 b))) s

/-- `rem.w` (R140). -/
def execRemW (d a b : Reg) (_ : BitVec 1) (s : State) : Host.Outcome State Fault Refusal :=
  valueOp [a, b] d (two fun a b => sext32 (remS (lo32 a) (lo32 b))) s

/-- `remn.w` (R140). -/
def execRemnW (d a b : Reg) (_ : BitVec 1) (s : State) : Host.Outcome State Fault Refusal :=
  valueOp [a, b] d (two fun a b => sext32 (remN (lo32 a) (lo32 b))) s

/-- `clz` (R137). -/
def execClz (d a : Reg) (_ : BitVec 1) (s : State) : Host.Outcome State Fault Refusal :=
  valueOp [a] d (one fun a => word (leadingZeros 64 a.toNat)) s

/-- `ctz` (R137). -/
def execCtz (d a : Reg) (_ : BitVec 1) (s : State) : Host.Outcome State Fault Refusal :=
  valueOp [a] d (one fun a => word (trailingZeros 64 a.toNat)) s

/-- `popc` (R137). -/
def execPopc (d a : Reg) (_ : BitVec 1) (s : State) : Host.Outcome State Fault Refusal :=
  valueOp [a] d (one fun a => word (ones 64 a.toNat)) s

/-- `bins` (R139), which reads D after A and B (R125). -/
def execBins (d a b : Reg) (_ : BitVec 1) (s : State) : Host.Outcome State Fault Refusal :=
  valueOp [a, b, d] d (three fun a b d => insertField d a b) s

/-- `csel` (R137): A if B is not 0, else D. -/
def execCsel (d a b : Reg) (_ : BitVec 1) (s : State) : Host.Outcome State Fault Refusal :=
  valueOp [a, b, d] d (three fun a b d => if b ≠ 0 then a else d) s

/-- `addi` (R141). -/
def execAddi (d a : Reg) (i : BitVec 16) (s : State) : Host.Outcome State Fault Refusal :=
  valueOp [a] d (one fun a => a + simm i) s

/-- `andi` (R141). -/
def execAndi (d a : Reg) (i : BitVec 16) (s : State) : Host.Outcome State Fault Refusal :=
  valueOp [a] d (one fun a => a &&& i.setWidth 64) s

/-- `ori` (R141). -/
def execOri (d a : Reg) (i : BitVec 16) (s : State) : Host.Outcome State Fault Refusal :=
  valueOp [a] d (one fun a => a ||| i.setWidth 64) s

/-- `xori` (R141). -/
def execXori (d a : Reg) (i : BitVec 16) (s : State) : Host.Outcome State Fault Refusal :=
  valueOp [a] d (one fun a => a ^^^ i.setWidth 64) s

/-- `slti` (R141). -/
def execSlti (d a : Reg) (i : BitVec 16) (s : State) : Host.Outcome State Fault Refusal :=
  valueOp [a] d (one fun a => ofBool (ltS a (simm i))) s

/-- `sltni` (R141). -/
def execSltni (d a : Reg) (i : BitVec 16) (s : State) : Host.Outcome State Fault Refusal :=
  valueOp [a] d (one fun a => ofBool (ltN a (simm i))) s

/-- `addi.w` (R141). -/
def execAddiW (d a : Reg) (i : BitVec 16) (s : State) : Host.Outcome State Fault Refusal :=
  valueOp [a] d (one fun a => sext32 (lo32 a + i.signExtend 32)) s

/-- `slli` (R142). -/
def execSlli (d a : Reg) (n : BitVec 6) (s : State) : Host.Outcome State Fault Refusal :=
  valueOp [a] d (one fun a => a <<< n.toNat) s

/-- `srli` (R142). -/
def execSrli (d a : Reg) (n : BitVec 6) (s : State) : Host.Outcome State Fault Refusal :=
  valueOp [a] d (one fun a => a >>> n.toNat) s

/-- `srai` (R142). -/
def execSrai (d a : Reg) (n : BitVec 6) (s : State) : Host.Outcome State Fault Refusal :=
  valueOp [a] d (one fun a => a.sshiftRight n.toNat) s

/-- `slli.w` (R142). -/
def execSlliW (d a : Reg) (n : BitVec 6) (s : State) : Host.Outcome State Fault Refusal :=
  valueOp [a] d (one fun a => sext32 (lo32 a <<< n.toNat)) s

/-- `srli.w` (R142). -/
def execSrliW (d a : Reg) (n : BitVec 6) (s : State) : Host.Outcome State Fault Refusal :=
  valueOp [a] d (one fun a => sext32 (lo32 a >>> n.toNat)) s

/-- `srai.w` (R142). -/
def execSraiW (d a : Reg) (n : BitVec 6) (s : State) : Host.Outcome State Fault Refusal :=
  valueOp [a] d (one fun a => sext32 ((lo32 a).sshiftRight n.toNat)) s

/-- `lhi` (R141): sext(imm16) times 2^16. -/
def execLhi (d : Reg) (i : BitVec 16) (s : State) : Host.Outcome State Fault Refusal :=
  valueOp [] d (fun _ => simm i <<< 16) s

/-- `addpc` (R141): the address of the instruction plus sext(imm16) times 2^16. -/
def execAddpc (d : Reg) (i : BitVec 16) (s : State) : Host.Outcome State Fault Refusal :=
  readOp [] d (fun _ _ t _ => t.pc + (simm i <<< 16)) s

end Sys2Proof.Machine
end

