-- ==== Sys2Proof/Machine/Atomics.lean ====
section
/-! DEFINITION. Atomics (10 R240, R241) and ordering instructions (11 R256 to R259). -/

namespace Sys2Proof.Machine

/-! ## Atomics -/

/-- Bytes of the operand: 4 for `.32`, 8 for `.64`. -/
def amSize (z : BitVec 1) : Nat := if z = 1 then 8 else 4

/-- The old value as the instruction returns it: zero-extended for `minn` and `maxn`, sign-extended otherwise. -/
def amResult (unsigned : Bool) (n x : Nat) : Word := if unsigned then zext (word x) (8 * n) else sext (word x) (8 * n)

/-- One indivisible read-modify-write of `n` bytes that returns the old value (R240). `f` gives the new value from the old one and
the operands, or none where nothing is written. -/
def atomic (unsigned : Bool) (w : W32) (z : BitVec 1) (srcs : List Reg) (d : Reg) (f : Nat → Nat → List Nat → Option Nat) (s : State) :
    Host.Outcome State Fault Refusal :=
  let n := amSize z
  runOp srcs d (fun s r t vs =>
    let ea := vs.headD 0
    if ea.toNat % n ≠ 0 then .trap { cause := 0x11, info := wordInfo w, addr := ea }
    else (s.locate r (ownerOf t.cw) ea n { read := true, write := true }).eff (wordInfo w) ea fun l =>
      s.fences r fun s =>
      if s.poisoned l then .trap { cause := 0x52, addr := ea }
      else
        let x := ofBytes (s.readLoc l)
        let s' := match f (8 * n) x ((vs.drop 1).map fun v => v.toNat % 2 ^ (8 * n)) with
          | some y => s.storeNow r t l (toBytes n y)
          | none => s
        .done s' (amResult unsigned n x)) s

/-- A posted atomic (R240, R241): it leaves its slot at once as a store, and is done where it is performed (`State.perform`). -/
def postedAtomic (k : AmKind) (w : W32) (z : BitVec 1) (a b : Reg) (s : State) : Host.Outcome State Fault Refusal :=
  let n := amSize z
  runOp [a, b] 0 (fun s r t vs =>
    let ea := vs.headD 0
    if ea.toNat % n ≠ 0 then .trap { cause := 0x11, info := wordInfo w, addr := ea }
    else (s.locate r (ownerOf t.cw) ea n { read := true, write := true }).eff (wordInfo w) ea fun l =>
      .done (s.buffer r { hold := s.taskHold r t, home := t.home, loc := l, bytes := toBytes n (vs.getD 1 0).toNat, am := some k }) 0) s

/-- A new value of two operands of `k` bits. -/
def amTwo (g : Nat → Nat → Nat → Nat) (k x : Nat) : List Nat → Option Nat
  | b :: _ => some (g k x b)
  | [] => none

def amSwapF (_ _ b : Nat) : Nat := b
/-- `cas`: the second operand is the expected value. -/
def amCasF (_ x : Nat) : List Nat → Option Nat
  | [b, e] => if x = e then some b else none
  | _ => none

/-- `am.add` (R240). -/
def execAmAdd (d a b : Reg) (h z : BitVec 1) (s : State) : Host.Outcome State Fault Refusal :=
  atomic false (encAM d a b h 0 z 0) z [a, b] d (amTwo amAddF) s

/-- `am.and` (R240). -/
def execAmAnd (d a b : Reg) (h z : BitVec 1) (s : State) : Host.Outcome State Fault Refusal :=
  atomic false (encAM d a b h 0 z 1) z [a, b] d (amTwo amAndF) s

/-- `am.or` (R240). -/
def execAmOr (d a b : Reg) (h z : BitVec 1) (s : State) : Host.Outcome State Fault Refusal :=
  atomic false (encAM d a b h 0 z 2) z [a, b] d (amTwo amOrF) s

/-- `am.xor` (R240). -/
def execAmXor (d a b : Reg) (h z : BitVec 1) (s : State) : Host.Outcome State Fault Refusal :=
  atomic false (encAM d a b h 0 z 3) z [a, b] d (amTwo amXorF) s

/-- `am.min` (R240). -/
def execAmMin (d a b : Reg) (h z : BitVec 1) (s : State) : Host.Outcome State Fault Refusal :=
  atomic false (encAM d a b h 0 z 4) z [a, b] d (amTwo amMinF) s

/-- `am.max` (R240). -/
def execAmMax (d a b : Reg) (h z : BitVec 1) (s : State) : Host.Outcome State Fault Refusal :=
  atomic false (encAM d a b h 0 z 5) z [a, b] d (amTwo amMaxF) s

/-- `am.minn` (R240). -/
def execAmMinn (d a b : Reg) (h z : BitVec 1) (s : State) : Host.Outcome State Fault Refusal :=
  atomic true (encAM d a b h 0 z 6) z [a, b] d (amTwo amMinnF) s

/-- `am.maxn` (R240). -/
def execAmMaxn (d a b : Reg) (h z : BitVec 1) (s : State) : Host.Outcome State Fault Refusal :=
  atomic true (encAM d a b h 0 z 7) z [a, b] d (amTwo amMaxnF) s

/-- `am.swap` (R240). -/
def execAmSwap (d a b : Reg) (h z : BitVec 1) (s : State) : Host.Outcome State Fault Refusal :=
  atomic false (encAM d a b h 0 z 8) z [a, b] d (amTwo amSwapF) s

/-- `am.cas` (R240). -/
def execAmCas (d a b : Reg) (h z : BitVec 1) (s : State) : Host.Outcome State Fault Refusal :=
  atomic false (encAM d a b h 0 z 9) z [a, b, d] d amCasF s

/-- `am.add.ps` (R240). -/
def execAmAddPs (a b : Reg) (h z : BitVec 1) (s : State) : Host.Outcome State Fault Refusal :=
  postedAtomic .add (encAM 0 a b h 1 z 0) z a b s

/-- `am.and.ps` (R240). -/
def execAmAndPs (a b : Reg) (h z : BitVec 1) (s : State) : Host.Outcome State Fault Refusal :=
  postedAtomic .and (encAM 0 a b h 1 z 1) z a b s

/-- `am.or.ps` (R240). -/
def execAmOrPs (a b : Reg) (h z : BitVec 1) (s : State) : Host.Outcome State Fault Refusal :=
  postedAtomic .or (encAM 0 a b h 1 z 2) z a b s

/-- `am.xor.ps` (R240). -/
def execAmXorPs (a b : Reg) (h z : BitVec 1) (s : State) : Host.Outcome State Fault Refusal :=
  postedAtomic .xor (encAM 0 a b h 1 z 3) z a b s

/-- `am.min.ps` (R240). -/
def execAmMinPs (a b : Reg) (h z : BitVec 1) (s : State) : Host.Outcome State Fault Refusal :=
  postedAtomic .min (encAM 0 a b h 1 z 4) z a b s

/-- `am.max.ps` (R240). -/
def execAmMaxPs (a b : Reg) (h z : BitVec 1) (s : State) : Host.Outcome State Fault Refusal :=
  postedAtomic .max (encAM 0 a b h 1 z 5) z a b s

/-- `am.minn.ps` (R240). -/
def execAmMinnPs (a b : Reg) (h z : BitVec 1) (s : State) : Host.Outcome State Fault Refusal :=
  postedAtomic .minn (encAM 0 a b h 1 z 6) z a b s

/-- `am.maxn.ps` (R240). -/
def execAmMaxnPs (a b : Reg) (h z : BitVec 1) (s : State) : Host.Outcome State Fault Refusal :=
  postedAtomic .maxn (encAM 0 a b h 1 z 7) z a b s

/-! ## Ordering

A slot's buffered stores become visible to every agent at one moment (log 24): an ordering instruction of whatever scope
performs those that wait. -/

/-- `fence` (11 R257). -/
def execFence (_ : BitVec 1) (_ : BitVec 3) (s : State) : Host.Outcome State Fault Refusal :=
  runOp [] 0 (fun s r _ _ => s.fences r fun s => .done s 0) s

/-- An access of 8 bytes at g[a] (11 R259). -/
def acqRelWord (d a : Reg) (h : BitVec 1) (ord scope : BitVec 3) : Word := wordInfo (encOR d a h ord scope)

/-- `ld.acq` (11 R259). -/
def execLdAcq (d a : Reg) (h : BitVec 1) (scope : BitVec 3) (s : State) : Host.Outcome State Fault Refusal :=
  let w := acqRelWord d a h 1 scope
  runOp [a] d (fun s r t vs =>
    let ea := vs.headD 0
    if ea.toNat % 8 ≠ 0 then .trap { cause := 0x11, info := w, addr := ea }
    else (s.locate r (ownerOf t.cw) ea 8 { read := true }).eff w ea fun l =>
      s.loads r [l] fun s => if s.poisoned l then .trap { cause := 0x52, addr := ea } else .done s (word (ofBytes (s.readLoc l)))) s

/-- `st.rel` (11 R259): it follows the slot's earlier stores, in whose order the slot's stores are performed. -/
def execStRel (d a : Reg) (h : BitVec 1) (scope : BitVec 3) (s : State) : Host.Outcome State Fault Refusal :=
  let w := acqRelWord d a h 2 scope
  runOp [a, d] 0 (fun s r t vs =>
    let ea := vs.headD 0
    if ea.toNat % 8 ≠ 0 then .trap { cause := 0x11, info := w, addr := ea }
    else (s.locate r (ownerOf t.cw) ea 8 { write := true }).eff w ea fun l =>
      .done (s.buffer r { hold := s.taskHold r t, home := t.home, loc := l, bytes := toBytes 8 (vs.getD 1 0).toNat, release := true }) 0) s

/-- FenceEng (11 R258): performs the slot's stores, and waits until its operations of the named engines are complete. -/
def fenceEng (dr pl : Bool) (s : State) : Host.Outcome State Fault Refusal :=
  let s := if (s.task s.cur).isSome then s.flush s.cur else s
  runOp [] 0 (fun s r _ _ =>
    let c := s.core r.core
    if pl && c.plq.any fun o => o.origin.slot = r.slot then waitFor r .plough
    else if dr && c.drq.any fun o => o.origin.slot = r.slot then .wait []
    else .done s 0) s

/-- `fence.eng.dr` (11 R258). -/
def execFenceEngDr (_ : BitVec 1) (s : State) : Host.Outcome State Fault Refusal := fenceEng true false s

/-- `fence.eng.pl` (11 R258). -/
def execFenceEngPl (_ : BitVec 1) (s : State) : Host.Outcome State Fault Refusal := fenceEng false true s

/-- `fence.eng` (11 R258). -/
def execFenceEng (_ : BitVec 1) (s : State) : Host.Outcome State Fault Refusal := fenceEng true true s

end Sys2Proof.Machine
end

