-- ==== Sys2Proof/Machine/Barrier.lean ====
section
/-! DEFINITION. The barrier tree (15): membership, arrivals, releases, and the barrier instructions. -/

namespace Sys2Proof.Machine

/-! ## A barrier as one object (R315 to R317) -/

/-- The core is a member: its excused bit is 0. -/
def Core.member (c : Core) (k : BitVec 4) : Bool := !c.excused.getLsbD k.toNat
def Core.hasArrived (c : Core) (k : BitVec 4) : Bool := c.arrived.getLsbD k.toNat

/-- Sets or clears one bit of 16. -/
def setBit16 (v : BitVec 16) (k : BitVec 4) (b : Bool) : BitVec 16 :=
  let m : BitVec 16 := BitVec.ofNat 16 (2 ^ k.toNat)
  if b then v ||| m else v &&& ~~~m

def Core.setExcused (c : Core) (k : BitVec 4) (b : Bool) : Core := { c with excused := setBit16 c.excused k b }
/-- A core's arrival is set or cleared; a wait completes at the first moment at which it is clear (R320). -/
def Core.setArrived (c : Core) (k : BitVec 4) (b : Bool) : Core :=
  let c := { c with arrived := setBit16 c.arrived k b }
  if b then c else c.wake fun w => w = .barrier k

/-- The cores of a die that may be members: a core that the image does not list is excused everywhere. -/
def State.membersOn (s : State) (d : DieId) (k : BitVec 4) : List CoreIdx :=
  (s.image d).cores.filterMap fun (i, c) => if c.member k then some (coreIdx i) else none

/-- The members of a barrier, by holding die index. -/
def State.members16 (s : State) (h : HoldRef) (k : BitVec 4) : List (Nat × CoreRef) :=
  (List.range (s.hold h).dies).flatMap fun j => (s.membersOn (s.dieOf h j) k).map fun i => (j, ⟨s.dieOf h j, i⟩)

/-- Clears every arrival of a barrier on a die. -/
def Image.clearArrivals (im : Image) (k : BitVec 4) : Image :=
  { im with cores := im.cores.map fun (i, c) => (i, c.setArrived k false) }

/-- The release, if its condition holds (R316): at least one member, and every member has arrived. -/
def State.settleBarrier (s : State) (h : HoldRef) (k : BitVec 4) : State :=
  let ms := s.members16 h k
  if !ms.isEmpty && ms.all fun (_, c) => (s.core c).hasArrived k then
    let s := (s.diesOf h).foldl (fun s d => s.setImage d ((s.image d).clearArrivals k)) s
    s.modHold h fun x => { x with barG := x.barG.set k.toNat (x.barG[k.toNat]'k.isLt + 1) k.isLt }
  else s

/-- The excused bit of one core changes; setting it clears the arrival. A retired core stays excused (R317). -/
def State.excuse (s : State) (c : CoreRef) (k : BitVec 4) (ex : Bool) : State :=
  if s.retired c then s
  else if ex then s.setCore c (((s.core c).setExcused k true).setArrived k false)
  else s.setCore c ((s.core c).setExcused k false)

/-- A core retires from every barrier (R317): one event of each, which may complete a release. -/
def State.leaveBarriers (s : State) (h : HoldRef) (c : CoreRef) : State :=
  let s := s.setCore c ({ s.core c with excused := 0xFFFF, arrived := 0 }.wake fun w => match w with | .barrier _ => true | _ => false)
  (List.range 16).foldl (fun s k => s.settleBarrier h (BitVec.ofNat 4 k)) s

/-! ## Taking part (R318) -/

/-- The task runs on a migration target. -/
def barMigrated (t : Task) : Bool := t.home.isSome
/-- The task may act on barriers: class concurrent, not migrated. -/
def barAllowed (t : Task) : Bool := classOf t.cw = 2 && !barMigrated t

/-- `bar.arrive` (R319, R327): a release at holding scope. -/
def execBarArrive (h : BitVec 1) (k : BitVec 4) (s : State) : Host.Outcome State Fault Refusal :=
  runOp [] 0 (fun s r t _ =>
    let c := s.core r.core
    if !barAllowed t || !c.member k then .trap { cause := 0x4A, info := wordInfo (encRR 0x35 0 0 0 h k 0x08) }
    else s.fences r fun s =>
      if (s.core r.core).hasArrived k then .done s 0
      else .done ((s.setCore r.core ((s.core r.core).setArrived k true)).settleBarrier (s.taskHold r t) k) 0) s

/-- `bar.wait` (R320, R327): it completes at the first moment at which the core's arrival is clear. -/
def execBarWait (h : BitVec 1) (k : BitVec 4) (s : State) : Host.Outcome State Fault Refusal :=
  runOp [] 0 (fun s r t _ =>
    if !barAllowed t then .trap { cause := 0x4A, info := wordInfo (encRR 0x35 0 0 0 h k 0x09) }
    else if (s.core r.core).hasArrived k && !t.hasMet (.barrier k) then waitFor r (.barrier k)
    else .done s 0) s

/-! ## Membership (R328) -/

/-- The rectangle of a `bar.mask` descriptor is refused. -/
def rectRefused (v : Word) (dies : Nat) : Bool :=
  bits v 63 49 ≠ 0 || bit v 47 || decide (20 * dies ≤ bits v 15 0 + bits v 41 32) || decide (23 < bits v 31 16 + bits v 46 42)

/-- The coordinates of a rectangle, row by row. -/
def rectCoords (v : Word) : List (Nat × Nat) :=
  (List.range (bits v 46 42 + 1)).flatMap fun j => (List.range (bits v 41 32 + 1)).map fun i => (bits v 15 0 + i, bits v 31 16 + j)

/-- `bar.mask` (R328): one event for the rectangle. -/
def execBarMask (a : Reg) (h : BitVec 1) (k : BitVec 4) (s : State) : Host.Outcome State Fault Refusal :=
  runOp [a] 0 (fun s r t vs =>
    let v := vs.headD 0
    let hold := s.taskHold r t
    if !barAllowed t || rectRefused v (s.hold hold).dies then
      .trap { cause := 0x4A, info := wordInfo (encRR 0x35 0 a 0 h k 0x0A) }
    else
      let s := (rectCoords v).foldl (fun s xy => s.excuse (s.coreAt hold xy.1 xy.2) k (bit v 48)) s
      .done (s.settleBarrier hold k) 0) s

/-! ## Status (R323, R329) -/

/-- The band of a round's members (R323). -/
def bandOf (ms : List (Nat × Bool)) : Nat :=
  match ms.map Prod.fst with
  | [] => 0
  | j :: js =>
    let lo := js.foldl Nat.min j
    let hi := js.foldl Nat.max j
    if hi = lo then (if ms.all (·.2) || ms.all (!·.2) then 0 else 1) else if hi = lo + 1 then 2 else 3

/-- The value of `bar.stat`. -/
def State.barStat (s : State) (r : SlotRef) (t : Task) (k : BitVec 4) : Word :=
  let h := s.taskHold r t
  let c := s.core r.core
  let band := bandOf ((s.members16 h k).map fun (j, m) => (j, isSouth m.idx))
  (0 : BitVec 44) ++ BitVec.ofNat 2 band ++ flag (!c.member k) ++ flag (c.hasArrived k) ++ (s.hold h).barG[k.toNat]'k.isLt

/-- `bar.stat` (R329): of any class, but not on a migration target. -/
def execBarStat (d : Reg) (h : BitVec 1) (k : BitVec 4) (s : State) : Host.Outcome State Fault Refusal :=
  runOp [] d (fun s r t _ =>
    if barMigrated t then .trap { cause := 0x4A, info := wordInfo (encRR 0x35 d 0 0 h k 0x0B) }
    else .done s (s.barStat r t k)) s

end Sys2Proof.Machine
end

