-- ==== Sys2Proof/Machine/Engine.lean ====
section
/-! DEFINITION. What the plough and the drill share: pool bytes by window, range-lock entries, the issue of an operation, and
its completion, failure and cancellation (09 R193, R207, R208; 10 R229 to R232, R237). -/

namespace Sys2Proof.Machine

/-- Bytes of pool space: eight windows (07 R153). -/
def poolSpaceBytes : Nat := 8 * Config.poolBytes

/-- A run of pool bytes: the core whose pool holds it, the offset in that pool, its length, and the offset in pool space. -/
structure Piece where
  core : CoreRef
  off : Nat
  len : Nat
  at_ : Nat
deriving DecidableEq, Repr

/-- The pieces of a range of pool space, one for each window that it reaches. -/
def pieces (c : CoreRef) (off len : Nat) : List Piece :=
  (List.range 8).filterMap fun w =>
    let lo := max off (w * Config.poolBytes)
    let hi := min (off + len) ((w + 1) * Config.poolBytes)
    if lo < hi then some ⟨windowCore c lo, lo % Config.poolBytes, hi - lo, lo⟩ else none

/-- The placement rule (09 R199, 10 R235): a row lies in one window, in the mailbox or scratchpad region of a pool that is
not a retired core's. -/
def State.rowOk (s : State) (c : CoreRef) (off len : Nat) : Bool :=
  off + len ≤ poolSpaceBytes && (s.poolRange c off len).isSome

/-- The bytes of a range of pool space. A byte beyond pool space is a free value (log 37). -/
def State.poolBytes (s : State) (c : CoreRef) (off len : Nat) : List Byte :=
  let bs := (pieces c off len).flatMap fun p => Memory.read (s.core p.core).pool.bytes p.off p.len
  bs ++ (List.range (len - bs.length)).map fun i => Config.freeByte s.freshCount (off + bs.length + i)

/-- The pool-space address of the first poisoned byte of a range. -/
def State.poolPoison (s : State) (c : CoreRef) (off len : Nat) : Option Word :=
  (pieces c off len).findSome? fun p =>
    ((linesOf p.off p.len).find? fun l => (s.core p.core).pool.poison.contains l).map fun l =>
      poolSpace + word (p.at_ + (max p.off (64 * l) - p.off))

/-! ## Reads of the own scratchpad by an instruction -/

/-- The range lies wholly in the issuing core's own scratchpad, at a multiple of `align`. -/
def ownScratch (part a : Word) (len align : Nat) : Bool :=
  inPoolSpace a && a.toNat % align = 0 && scratchBase part ≤ poolOffset a && poolOffset a + len ≤ Config.poolBytes

/-- The cause of a thread's read of own pool bytes by loads of `step` bytes, and the address of the load that raises it: a
lock, or poison. -/
def State.ownRead (s : State) (c : CoreRef) (a : Word) (len step : Nat) : Option (BitVec 8 × Word) :=
  (List.range (len / step)).findSome? fun i =>
    let off := poolOffset a + step * i
    if s.lockedAt c (.pool c.idx) off step then some (0x30, addr a (step * i))
    else if s.poisoned (.pool c off step) then some (0x52, addr a (step * i))
    else none

/-- The bytes of the own pool from an address of pool space on. -/
def ownLoc (c : CoreRef) (a : Word) (len : Nat) : Loc := .pool c (poolOffset a) len

/-! ## Range-lock entries -/

/-- Widens the entry of a space by an interval, or adds an entry. -/
def addSpan (sp : LockSpace) (first last : Nat) (write : Bool) : List Lock → List Lock
  | [] => [⟨sp, first, last, write⟩]
  | l :: ls =>
    if l.space = sp then { l with first := min l.first first, last := max l.last last } :: ls
    else l :: addSpan sp first last write ls

/-- The entries of one side of an operation: for each pool that its rows reach, the smallest interval that holds every row
byte there. -/
def poolLocks (c : CoreRef) (write : Bool) (rows : List (Nat × Nat)) : List Lock :=
  (rows.flatMap fun x => pieces c x.1 x.2).foldl
    (fun ls p => addSpan (.pool p.core.idx) p.off (p.off + p.len - 1) write ls) []

/-- Two entries overlap, and one is a write. -/
def Lock.conflicts (a b : Lock) : Bool :=
  a.space = b.space ∧ a.first ≤ b.last ∧ b.first ≤ a.last ∧ (a.write ∨ b.write)

/-- An entry of the earlier operations given conflicts with one of these. -/
def blockedBy (mine : List Lock) (seq : Nat) (others : List (Nat × List Lock)) : Bool :=
  others.any fun o => decide (o.1 < seq) && o.2.any fun l => mine.any fun m => m.conflicts l

/-- An operation's free places: the queue's, and the table's. -/
def Core.lockRoom (c : Core) (n : Nat) : Bool := decide (c.locks.length + n ≤ Config.lockEntries)

/-! ## Suspension (09 R211) -/

/-- A block-form operation that came to a lean die suspends its core's queue until the core stands on a full die again
(09 R211). -/
def State.suspended (s : State) (c : CoreRef) : Bool := (s.core c).plHeld

/-- The suspension of a core's queue as its holding comes to a die (09 R211). -/
def Core.holdPl (c : Core) (d : DieId) : Core := { c with plHeld := lean d && (c.plHeld || c.plq.any (·.blk)) }

/-- The suspensions of the cores of a die that an image has come to. -/
def State.holdDie (s : State) (d : DieId) : State :=
  s.setImage d { s.image d with cores := (s.image d).cores.map fun (i, c) => (i, c.holdPl d) }

/-! ## Who issued an operation -/

/-- The origin of an operation that the task of a slot issues. -/
def Task.origin (t : Task) (slot : SlotId) (seq : Nat) : Origin :=
  { seq := seq, slot := slot, task := t.id, pc := t.pc, cw := t.reportedCw, tag := t.tag, home := t.home }

/-- Sets the event-pending bit of a slot (05 R110). -/
def State.setEvent (s : State) (r : SlotRef) : State := s.setSlot r { s.slot r with event := true }

/-- The engines of a die stand still: between the move and the resume of a headland, or of a gang switch of its holding. -/
def State.frozen (s : State) (die : DieId) : Bool :=
  match s.holdAt die, (s.estate (estOf s.mode die.val)).phase with
  | some (h, _), _ => s.frozenHold h
  | none, .moved _ march _ _ => march
  | none, _ => false

/-- No drill row starts on a die: from the start of a drain to the resume (10 R238). -/
def State.drillPaused (s : State) (die : DieId) : Bool :=
  match s.holdAt die, (s.estate (estOf s.mode die.val)).phase with
  | some (h, _), _ => s.paused h
  | none, .draining _ _ march _ _ => march
  | none, .moved _ march _ _ => march
  | none, .running => false

end Sys2Proof.Machine
end

