-- ==== Sys2Proof/Machine/Messages.lean ====
section
/-! DEFINITION. The network and messages (13): headers, the send buffer, delivery, the fault queue's offers (12 R267), and the
message instructions. -/

namespace Sys2Proof.Machine

/-! ## Headers (R283) -/

def hdrHx (h : Word) : Nat := bits h 9 0
def hdrHy (h : Word) : Nat := bits h 14 10
def hdrEntry (h : Word) : Nat := bits h 23 16
def hdrHandle (h : Word) : BitVec 4 := BitVec.ofNat 4 (bits h 19 16)
def hdrDec (h : Word) : Nat := bits h 39 24
def hdrClass (h : Word) : Nat := bits h 41 40
def hdrN (h : Word) : Nat := bits h 45 42
def hdrRing (h : Word) : Bool := bit h 46
def hdrRoute (h : Word) : Nat := bits h 50 47
def hdrRouted (h : Word) : Bool := bit h 51

/-- The header of a message to a trigger entry, on no route. -/
def mkHeader (dest : Coord) (entry dec cls n : Nat) : Word :=
  word (dest.hx + dest.hy * 2 ^ 10 + entry * 2 ^ 16 + dec * 2 ^ 24 + cls * 2 ^ 40 + n * 2 ^ 42)

/-! ## Places of a message queue (R287) -/

/-- The class whose places a message takes: task for a null message (05 R97). -/
def Msg.cls (m : Msg) : Nat := if m.payload.isEmpty then 2 else hdrClass m.header

/-- The messages that a core's queue holds. -/
def Core.queued (c : Core) : List Msg :=
  (c.trig.flatMap fun (_, t) => t.pend ++ t.fire.toList ++ t.away.toList) ++
    c.slots.toList.flatMap fun sl => match sl.task with
      | some t => t.msg.toList ++ (match t.caller with | some k => k.msg.toList | none => [])
      | none => []

/-- A place for a message of a class: a reserved one if one is free, otherwise a shared one (log 136). -/
def Core.findPlace (c : Core) (cls : Nat) : Option Place :=
  let ms := c.queued
  if (ms.filter fun m => m.place = .reserved && m.cls == cls).length < 8 then some .reserved
  else if (ms.filter fun m => m.place = .shared).length < 32 then some .shared
  else none

/-- The decrement of a message does not fire the entry and leaves nothing pending: the message is consumed (05 R97). -/
def Trigger.consumes (t : Trigger) (m : Msg) : Bool := t.state = .armed && !t.ret && m.dec.toNat < t.count.toNat

/-- Accepts a message at a trigger entry with the core's next arrival serial (12 R265). -/
def Core.accept (c : Core) (e : BitVec 8) (m : Msg) (p : Place) : Core :=
  { c.setTrigger e ((c.trigger e).arrive { m with serial := c.serial, place := p }) with serial := c.serial + 1 }

/-- Sets the event-pending bits of all four slots (05 R110). -/
def Core.eventAll (c : Core) : Core := { c with slots := c.slots.map fun sl => { sl with event := true } }

/-! ## Leaving (05 R108, R290) -/

/-- The place of a core in a holding's grid, or one beyond it for a core of a partner die (12 R272). -/
def State.sender (s : State) (h : HoldRef) (r : SlotRef) : Coord :=
  match s.holdAt r.core.die with
  | some (h', k) => if h' = h then coordOn k r.core.idx else coordOn (s.hold h).dies r.core.idx
  | none => coordOn (s.hold h).dies r.core.idx

/-- The class that a message takes in the network (R279). -/
def Msg.netClass (m : Msg) : Nat := hdrClass m.header

/-- The routers on the way from a core have room for a message of a class: its reserved space, and what they share (R279, R280,
16 R336; log 79). -/
def State.netRoom (s : State) (h : HoldRef) (src : Coord) (cls : Nat) : Bool :=
  let n := ((s.hold h).net.filter fun p => p.src = src && p.msg.netClass == cls).length
  decide (n = 0) || decide (n ≤ Config.routerShared src.hx src.hy cls)

/-- Every message of a list has room in its class, so that none of them holds another back. -/
def State.allRoom (s : State) (h : HoldRef) (src : Coord) (ms : List Msg) : Bool := ms.all fun m => s.netRoom h src m.netClass

/-- Messages leave a core, in order. -/
def State.leave (s : State) (h : HoldRef) (src : Coord) (ms : List Msg) : State :=
  s.modHold h fun x => { x with net := x.net ++ ms.map fun m => ⟨src, m, false⟩ }

/-- A closed draft as the message that leaves. -/
def Draft.toMsg (d : Draft) : Msg := { header := d.header, payload := d.payload, dec := BitVec.ofNat 16 (hdrDec d.header) }

/-! ## Delivery (R288, R290) -/

/-- The flow that R290 keeps in order: sender, destination, class, route setting. Messages from beyond the holding's grid, those
of a partner die, travel on no route whatever their headers say (R286). -/
def Packet.flow (p : Packet) (dies : Nat) : Coord × Coord × Nat × Nat :=
  let h := p.msg.header
  (p.src, ⟨hdrHx h, hdrHy h⟩, hdrClass h, if p.src.hx < 20 * dies then bits h 51 47 else 0)

/-- Packet `n` is the first of its flow. -/
def firstOfFlow (dies : Nat) (net : List Packet) (n : Nat) (p : Packet) : Bool := (net.take n).all fun q => q.flow dies ≠ p.flow dies

/-- Removes packet `n`, or marks that it waits at its destination. -/
def State.dropPacket (s : State) (h : HoldRef) (n : Nat) : State := s.modHold h fun x => { x with net := removeAt x.net n }
def State.keepPacket (s : State) (h : HoldRef) (n : Nat) (p : Packet) : State :=
  s.modHold h fun x => { x with net := setAt x.net n { p with arrived := true } }

/-- Writes payload doublewords into ring slots from slot `t` on, modulo the ring's size (07 R161). -/
def State.ringWrite (s : State) (c : CoreRef) (x : Handle) : Nat → List Word → State
  | _, [] => s
  | t, w :: ws =>
    let off := poolOffset (x.base + word (x.size * (t % x.slots)))
    State.ringWrite (s.writePool c off (toBytes 8 w.toNat)) c x (t + 1) ws

/-- Delivers packet `n` at a live destination core. -/
def State.deliverAt (s : State) (h : HoldRef) (n : Nat) (p : Packet) (c : CoreRef) : State :=
  let s := if p.arrived then s else s.setCore c (s.core c).eventAll
  let k := s.core c
  let m := p.msg
  if hdrRing m.header then
    let x := k.handle (hdrHandle m.header)
    let len := m.payload.length
    if x.slots < len || !x.init || x.prod ≠ 1 || x.size ≠ 8 then
      (s.dropPacket h n).postReturn h ⟨hdrHx m.header, hdrHy m.header⟩ m
    else if x.slots - x.fill < len then s.keepPacket h n p
    else
      let s := (s.dropPacket h n).ringWrite c x x.tail m.payload
      let k := s.core c
      s.setCore c { k.setHandle (hdrHandle m.header) { x with tail := (x.tail + len) % x.slots, fill := x.fill + len } with serial := k.serial + 1 }
  else
    let e := BitVec.ofNat 8 (hdrEntry m.header)
    if (k.trigger e).consumes m then (s.dropPacket h n).setCore c (k.accept e m .none)
    else match k.findPlace m.cls with
      | some pl => (s.dropPacket h n).setCore c (k.accept e m pl)
      | none => s.keepPacket h n p

/-- The network of a holding runs: it stands on its dies and no headland or gang switch has frozen it (16 R335). -/
def State.networkRuns (s : State) (h : HoldRef) : Bool :=
  ((s.hold h).state = .running || (s.hold h).state = .stopped) && !s.paused h

/-- DELIVER (R288): packet `n` of a holding's network, if it is the first of its flow. -/
def execDeliver (h : HoldRef) (n : Nat) (s : State) : Host.Outcome State Fault Refusal :=
  match (s.hold h).net[n]? with
  | none => .next s
  | some p =>
    if !s.networkRuns h || !firstOfFlow (s.hold h).dies (s.hold h).net n p then .next s
    else
      let c := s.coreAt h (hdrHx p.msg.header) (hdrHy p.msg.header)
      if s.retired c then .next ((s.dropPacket h n).postReturn h ⟨hdrHx p.msg.header, hdrHy p.msg.header⟩ p.msg)
      else .next (s.deliverAt h n p c)

/-! ## The fault queue (12 R267) -/

/-- A record as the message that entry 255 receives. -/
def recordMsg (dest : Coord) (dec : BitVec 16) (r : Record) : Msg :=
  { header := mkHeader dest 255 dec.toNat 2 8, payload := r.toList, dec := dec }

/-- FAULT_RECORD_OFFER (12 R267): the oldest record fires entry 255 of the supervisor core, while that entry is ARMED with
its return mark clear. -/
def execFaultRecordOffer (h : HoldRef) (s : State) : Host.Outcome State Fault Refusal :=
  match s.supervisor h, (s.hold h).faultQ with
  | some c, r :: rs =>
    let t := (s.core c).trigger 255
    if (s.hold h).placed && !s.frozenHold h && decide (t.state = .armed) && !t.ret then
      let m := recordMsg ((s.coord c).getD ⟨0, 0⟩) t.count r
      let s := s.modHold h fun x => { x with faultQ := rs }
      .next (s.setCore c ((s.core c).eventAll.accept 255 m .none))
    else .next s
  | _, _ => .next s

/-! ## Static routes (R285, R286) -/

/-- What a route check finds: the index of the leg that fails, or the tile at which the route ends. -/
inductive RouteEnd where
  | fails (leg : Nat)
  | ends (at_ : Coord)
deriving DecidableEq, Repr

/-- Moves tile by tile; none where a tile lies outside the grid or is retired. -/
def State.walkLeg (s : State) (h : HoldRef) (d : Dir) : Nat → Coord → Option Coord
  | 0, c => some c
  | n + 1, c => match moveCoord c d with
    | none => none
    | some x => if s.inGrid h x.hx x.hy && !s.retired (s.coreAt h x.hx x.hy) then s.walkLeg h d n x else none

/-- Follows legs in order; a count of 0 ends the route (02 R43). -/
def State.walk (s : State) (h : HoldRef) : (leg : Nat) → List Leg → Coord → RouteEnd
  | _, [], c => .ends c
  | i, l :: ls, c =>
    if l.count = 0 then .ends c
    else match s.walkLeg h l.dir l.count c with
      | none => .fails i
      | some x => s.walk h (i + 1) ls x

/-- The route of a task's launch (02 R47). -/
def State.routeOf (s : State) (h : HoldRef) (tag : Option Nat) (n : Nat) : Option (List Leg) :=
  tag.bind fun k => ((s.hold h).serving.launches.find? fun l => l.key = k).bind fun l => (l.routes.find? fun r => r.1 = n).map (·.2)

/-- The information of cause 0x49, where the route is refused (R294). -/
def State.routeRefused (s : State) (h : HoldRef) (src : Coord) (tag : Option Nat) (hd : Word) : Option Word :=
  match s.routeOf h tag (hdrRoute hd) with
  | none => some (word (hdrRoute hd + 2 ^ 7))
  | some legs => match s.walk h 0 legs src with
    | .fails i => some (word (hdrRoute hd + i * 2 ^ 4))
    | .ends x => if x = ⟨hdrHx hd, hdrHy hd⟩ then none else some (word (hdrRoute hd + 2 ^ 8))

/-! ## Building (R292, R296 to R298) -/

/-- The form of a header (R296), before the destination is looked at. -/
def headerBad (hd : Word) (one : Bool) : Bool :=
  bits hd 63 52 ≠ 0 || bit hd 15 || decide (hdrN hd = 0) || decide (8 < hdrN hd) || (one && hdrN hd ≠ 1) ||
    (!hdrRouted hd && hdrRoute hd ≠ 0) || (hdrRing hd && (bits hd 23 20 ≠ 0 || hdrDec hd ≠ 0))

/-- TakeHeader (R296): the cause of a refused header with its information. -/
def State.takeHeader (s : State) (r : SlotRef) (t : Task) (hd : Word) (one : Bool) (info : Word) : Option Trap :=
  let h := s.taskHold r t
  let src := s.sender h r
  if headerBad hd one || !s.inGrid h (hdrHx hd) (hdrHy hd) then some { cause := 0x48, info := info }
  else if s.retired (s.coreAt h (hdrHx hd) (hdrHy hd)) then some { cause := 0x48, info := info }
  else match (if hdrRouted hd && s.inGrid h src.hx src.hy then s.routeRefused h src t.tag hd else none) with
    | some x => some { cause := 0x49, info := x }
    | none => if Config.sendPlaces ≤ t.buf.length then some { cause := 0x45, info := info } else none

/-- A message of the slot is open. -/
def Task.isOpen (t : Task) : Bool := t.buf.any fun d => !d.closed

/-- Appends a message to the send buffer. -/
def State.draft (s : State) (r : SlotRef) (d : Draft) : State := s.modTask r fun t => { t with buf := t.buf ++ [d] }

/-- `msg.h` (R296). -/
def execMsgH (a : Reg) (h : BitVec 1) (s : State) : Host.Outcome State Fault Refusal :=
  let w := wordInfo (encRR 0x33 0 a 0 h 0 0x00)
  runOp [a] 0 (fun s r t vs =>
    let hd := vs.headD 0
    if t.isOpen then .trap { cause := 0x48, info := w }
    else match s.takeHeader r t hd false w with
      | some tr => .trap tr
      | none => .done (s.draft r ⟨hd, List.replicate (hdrN hd) 0, false, t.caller.isSome⟩) 0) s

/-- `msg.to` (R296). -/
def execMsgTo (a b : Reg) (h : BitVec 1) (s : State) : Host.Outcome State Fault Refusal :=
  let w := wordInfo (encRR 0x33 0 a b h 0 0x03)
  runOp [a, b] 0 (fun s r t vs =>
    let hd := vs.headD 0
    match s.takeHeader r t hd true w with
    | some tr => .trap tr
    | none => .done (s.draft r ⟨hd, [vs.getD 1 0], true, t.caller.isSome⟩) 0) s

/-- Changes the open message of a slot: for an inline child as well the one that its caller has left open, if there is one (log 123). -/
def State.modOpen (s : State) (r : SlotRef) (f : Draft → Draft) : State :=
  s.modTask r fun t => { t with buf := t.buf.map fun d => if d.closed then d else f d }

/-- `msg.d` (R297). -/
def execMsgD (a : Reg) (h : BitVec 1) (k : BitVec 4) (s : State) : Host.Outcome State Fault Refusal :=
  let w := wordInfo (encRR 0x33 0 a 0 h k 0x01)
  runOp [a] 0 (fun s r t vs =>
    match t.buf.find? fun d => !d.closed with
    | none => .trap { cause := 0x48, info := w }
    | some d =>
      if d.payload.length ≤ k.toNat then .trap { cause := 0x48, info := w }
      else .done (s.modOpen r fun d => { d with payload := setAt d.payload k.toNat (vs.headD 0) }) 0) s

/-- `msg.go` (R298). -/
def execMsgGo (h : BitVec 1) (s : State) : Host.Outcome State Fault Refusal :=
  runOp [] 0 (fun s r t _ =>
    if t.isOpen then .done (s.modOpen r fun d => { d with closed := true }) 0
    else .trap { cause := 0x48, info := wordInfo (encRR 0x33 0 0 0 h 0 0x02) }) s

/-! ## Reading (R299 to R301) -/

/-- `mq.peek` (R299). -/
def execMqPeek (d : Reg) (_ : BitVec 1) (s : State) : Host.Outcome State Fault Refusal :=
  readOp [] d (fun _ _ t _ => match t.msg with | some m => m.header ||| 0x8000 | none => 0) s

/-- `mq.rd` (R300). -/
def execMqRd (d : Reg) (_ : BitVec 1) (k : BitVec 4) (s : State) : Host.Outcome State Fault Refusal :=
  readOp [] d (fun _ _ t _ => match t.msg with | some m => m.payload.getD k.toNat 0 | none => 0) s

/-- The current message is gone, and with it its place in the home core's queue (R287). -/
def State.dropMsg (s : State) (r : SlotRef) (t : Task) (e : BitVec 8) : State :=
  let s := if t.home.isSome then s.modTrigger (s.homeSlot r t).core e fun x => { x with away := none } else s
  s.modTask r fun t => { t with msg := none }

/-- The second and third arms of MqPop (R301). -/
def State.popPend (s : State) (r : SlotRef) (t : Task) (e : BitVec 8) (pend : List Msg) : State :=
  match pend with
  | m :: ms =>
    if t.home.isNone then
      (s.modTrigger r.core e fun x => { x with pend := ms }).modTask r fun t => { t with msg := some m }
    else s.dropMsg r t e
  | [] => s.dropMsg r t e

/-- MqPop (R301): the next current message, taken from the fault queue or from the entry's pending list. -/
def State.popMsg (s : State) (r : SlotRef) (t : Task) (e : BitVec 8) : State :=
  let h := s.taskHold r t
  let c := s.core r.core
  match (s.hold h).faultQ, (c.trigger e).pend with
  | x :: xs, pend =>
    if e = 255 ∧ s.supervisor h = some r.core then
      let m := recordMsg ((s.coord r.core).getD ⟨0, 0⟩) (c.trigger e).count x
      let s := (s.modHold h fun x => { x with faultQ := xs }).dropMsg r t e
      let s := s.setCore r.core { s.core r.core with serial := c.serial + 1 }
      s.modTask r fun t => { t with msg := some { m with serial := c.serial } }
    else s.popPend r t e pend
  | [], pend => s.popPend r t e pend
/-- `mq.pop` (R301). -/
def execMqPop (_ : BitVec 1) (s : State) : Host.Outcome State Fault Refusal :=
  runOp [] 0 (fun s r t _ =>
    match t.msg, t.kind with
    | some _, .triggered e => .done (s.popMsg r t e) 0
    | _, _ => .done s 0) s

end Sys2Proof.Machine
end

