-- ==== Sys2Proof/Machine/Seeds.lean ====
section
/-! DEFINITION. Seeds: their form (05 R93 to R95), steering (R103, 12 R271), placing (R101), inline execution (R102), and the
end of a task (R108). -/

namespace Sys2Proof.Machine

/-! ## Form (R93 to R95) -/

/-- A program counter that R94 and R120 admit. -/
def pcOk (pc : Word) : Bool := pc.toNat % 4 = 0 && canonical pc

/-- Capability bits other than 1 and 2 are clear. -/
def capOk (cap : Nat) : Bool := cap / 8 = 0 && cap % 2 = 0

/-- A seed breaks R94 in a holding of `dies` dies. -/
def illFormed (x : Seed) (dies : Nat) : Bool :=
  !pcOk x.pc || bits x.cw 43 40 ≠ 0 || bits x.cw 25 8 ≠ 0 || (affOf x.cw ≠ 0xFF && decide (dies ≤ affOf x.cw)) ||
    classOf x.cw = 3 || !capOk (capOf x.cw)

/-- The control doubleword of a sown seed (R95): owner and class of the issuer, capability and affinity as given. -/
def sownCw (image issuer : Word) (cap aff : Nat) : Word :=
  let cls := if classOf issuer = 2 then 1 else classOf issuer
  word ((ownerOf issuer).toNat * 2 ^ 44 + bits image 43 40 * 2 ^ 40 + aff * 2 ^ 32 + cls * 2 ^ 30 + bits image 29 26 * 2 ^ 26 +
    bits image 25 8 * 2 ^ 8 + cap)

/-! ## Steering (R103, 12 R271) -/

/-- The holding-die index of a die of a holding. -/
def State.indexIn (s : State) (h : HoldRef) (d : DieId) : Option Nat :=
  match s.holdAt d with
  | some (h', k) => if h' = h then some k else none
  | none => none

/-- The fallow full die at the estate's partner position (12 R271, 19 R395). -/
def State.partnerDie (s : State) (e : Fin 4) : Option DieId :=
  let p := (s.estate e).partner
  let d := dieAt s.mode e (bits p 4 0)
  if bit p 7 && decide (bits p 4 0 < courseLen s.mode e) && (s.holdAt d).isNone && !lean d then some d else none

/-- The indices of a holding by rising distance from `k`, the lower first among equals. -/
def byDistance (k n : Nat) : List Nat :=
  k :: (List.range n).flatMap fun i => (if i + 1 ≤ k then [k - (i + 1)] else []) ++ [k + (i + 1)]

/-- Step 3 of R271: the full holding die nearest to index `k`, else the partner die. -/
def State.fullDie (s : State) (h : HoldRef) (k : Nat) : Option DieId :=
  let n := (s.hold h).dies
  match (byDistance k n).find? fun j => decide (j < n) && !lean (s.dieOf h j) with
  | some j => some (s.dieOf h j)
  | none => s.partnerDie h.est

/-- A seed asks for a set that lean dies lack (03 R57). -/
def Seed.wantsFull (x : Seed) : Bool :=
  match x.mig with
  | some m => m.set ≠ 0
  | none => capOf x.cw ≠ 0

/-- The die to which a seed on a die must go first, if it must: capability before affinity (R103). A seed on a die that is not
its holding's goes home (log 41), and an affinity that names a lean die does not draw away a seed that needs a full one (log 66). -/
def State.steer (s : State) (h : HoldRef) (d : DieId) (homeDie : Nat) (x : Seed) : Option DieId :=
  match s.indexIn h d with
  | none => some (s.dieOf h homeDie)
  | some k =>
    if x.wantsFull && lean d then some ((s.fullDie h k).getD d)
    else if affOf x.cw ≠ 0xFF && affOf x.cw ≠ k && !(x.wantsFull && lean (s.dieOf h (affOf x.cw))) then some (s.dieOf h (affOf x.cw))
    else none

/-- A seed that leaves its holding's dies for the partner die carries a home (log 41). -/
def State.withHome (s : State) (h : HoldRef) (from_ : CoreRef) (slot : SlotId) (d : DieId) (x : Seed) : Seed :=
  match x.mig, s.indexIn h d, s.indexIn h from_.die with
  | none, none, some k => { x with mig := some ⟨⟨h, k, from_.idx, slot⟩, 1, none, none⟩ }
  | _, _, _ => x

/-! ## The partition word of a seed and the pool data of its launch (07 R150, R104, 02 R48) -/

/-- A core is quiescent (07 R150); reservations of the launch `own` itself do not count (05 R105). -/
def Core.quiescentFor (c : Core) (own : Option Nat) : Bool :=
  (c.slots.toList.all fun sl => sl.task.isNone && (sl.reserved.isNone || decide (sl.reserved = own))) &&
    (c.trig.all fun (_, t) => t.state ≠ .runnable && t.state ≠ .running) && c.deque.isEmpty && c.plq.isEmpty && c.drq.isEmpty

def Core.quiescent (c : Core) : Bool := c.quiescentFor none

/-- Writes the pool data of a launch into a core's scratchpad, unless the data last written there was this launch's. -/
def State.loadPool (s : State) (h : HoldRef) (c : CoreRef) (tag : Option Nat) : State :=
  match tag.bind fun k => (s.hold h).serving.launches.find? fun l => l.key = k with
  | none => s
  | some l =>
    if (s.core c).poolOf = some l.key || l.poolData.isEmpty then s
    else
      let s := s.writePool c (scratchBase (s.core c).part) l.poolData
      s.setCore c { s.core c with poolOf := some l.key }

/-- A core adopts the partition word of a seed (R150): the handles become uninitialised, and every byte of the pool stays. -/
def State.adopt (s : State) (h : HoldRef) (c : CoreRef) (x : Seed) : State :=
  (s.setCore c { s.core c with part := x.part, handles := Vector.replicate 16 {} }).loadPool h c x.tag

/-- A core can dispatch a seed under R150. -/
def Core.accepts (c : Core) (x : Seed) : Bool := c.part = x.part || c.quiescent

/-- Dispatches a seed in a slot: the change of partition word first, and for a marked seed the pool data (R104, 02 R48). -/
def State.dispatchSeed (s : State) (h : HoldRef) (r : SlotRef) (x : Seed) : State :=
  let s := if (s.core r.core).part = x.part then s else s.adopt h r.core x
  let s := if x.shipped then s.loadPool h r.core x.tag else s
  s.startSeed h r { x with shipped := false }

/-! ## Placing (R101, R102) -/

/-- A task in a slot becomes the inline caller of a seed: its image is saved, and the child shares its buffer, its watchdog
count and its emitted counts. -/
def State.runInline (s : State) (r : SlotRef) (t : Task) (x : Seed) : State :=
  let s := s.saveImage r t t.pc
  let child : Task :=
    { id := s.nextId, pc := x.pc, args := x.args, cw := x.cw, kind := .seeded x, tag := x.tag, buf := t.buf, wd := t.wd, w := t.w
      emitted := t.emitted, home := t.home, deferring := t.deferring, async := t.async
      caller := some ⟨t.id, t.kind, t.msg, t.cw, t.tag, t.deferring, t.kept⟩ }
  { s.setSlot r { s.slot r with event := false, task := some child } with nextId := s.nextId + 1 }

/-- The die in whose ready queue a task's seed is appended: its own, or the home die of a guest on a die that is not its holding's (log
41). -/
def State.queueDie (s : State) (r : SlotRef) (t : Task) : DieId :=
  match t.home, s.indexIn (s.taskHold r t) r.core.die with
  | some k, none => s.dieOf k.hold k.hdie
  | _, _ => r.core.die

/-- Place from the inline step on; none is a stall. -/
def State.placeInline (s : State) (r : SlotRef) (x : Seed) : Option State :=
  match s.task r with
  | none => none
  | some t =>
    if t.caller.isNone then some (s.runInline r t x)
    else if 2 ≤ domainOf x.cw ∧ s.readyRoom (s.queueDie r t) then some (s.pushReady (s.queueDie r t) x)
    else none

/-- Place (R101); none is a stall. A seed that needs steering stalls while the ready queue of its die is full (log 98). A ready queue
holds no held seeds: the hold mark is of a deque alone (DEDUCED, log 108). -/
def State.placeTask (s : State) (r : SlotRef) (t : Task) (x : Seed) : Option State :=
  let h := s.taskHold r t
  let homeDie := match t.home with | some k => k.hdie | none => 0
  match s.steer h r.core.die homeDie x with
  | some d => if s.readyRoom d then some (s.pushReady d (s.withHome h r.core r.slot d { x with held := false })) else none
  | none =>
    if s.dequeRoom r.core then some (s.pushDeque r.core x)
    else if x.held then none
    else match (s.core r.core).freeSlot with
      | some i => if s.open h r.core then some (s.dispatchSeed h ⟨r.core, i⟩ x) else s.placeInline r x
      | none => s.placeInline r x

/-! ## The end of a task (R108, R102) -/

/-- The join message of `end` (R117, 13 R284). -/
def joinMsg (w : Word) : Msg :=
  { header := mkHeader ⟨bits w 15 0, bits w 31 16⟩ (bits w 39 32) (bits w 55 40) 2 1, payload := [w], dec := BitVec.ofNat 16 (bits w 55 40) }

/-- The messages that leave at an end: the closed ones in the order built, then the join. -/
def Task.outgoing (t : Task) (join : Word) : List Msg :=
  ((t.buf.filter (·.closed)).map Draft.toMsg) ++ (if join = 0 then [] else [joinMsg join])

/-- The stores that must be visible before the messages of an `end` leave: with a join word, or where a migrated task ends, every store of
the slot (R108, 12 R272); otherwise those that stand before a release of the slot (11 R252). -/
def State.showEnd (s : State) (r : SlotRef) (t : Task) (join : Word) : State :=
  if join ≠ 0 || t.home.isSome then s.flush r
  else if (t.outgoing join).isEmpty then s
  else s.flushReleased r

/-- What `end` does before its task leaves (R108): its stores become visible as far as a rule orders them; what a migrated task wrote goes
home (12 R272); and its messages leave, in the order built, then the join. -/
def State.sendEnd (s : State) (r : SlotRef) (t : Task) (join : Word) : State :=
  ((s.showEnd r t join).copyHome r t).leave (s.taskHold r t) (s.sender (s.taskHold r t) r) (t.outgoing join)

/-- The caller of an inline child continues from its register image, with the message that it had open (R102, 13 R292), its own mark of
`hl.defer` (16 R348) and the words that it had fetched (11 R442). -/
def State.restoreCaller (s : State) (r : SlotRef) (t : Task) (c : Caller) : State :=
  let t' := t.load (s.imageBytes r)
  s.setTask r { t' with
    id := c.id, kind := c.kind, msg := c.msg, tag := c.tag, caller := none, waiting := false, kept := c.kept
    deferring := c.deferring
    buf := t.buf.filter fun d => !d.closed && !d.inner }

/-- A task whose messages have left completes (R108). The operations of an inline child keep what their fault reports
need of it (12 R265). -/
def State.finish (s : State) (r : SlotRef) (t : Task) : State :=
  let home := s.homeSlot r t
  match t.caller with
  | some c => (s.setCore r.core ((s.core r.core).stamp t)).restoreCaller r t c
  | none =>
    let s := s.vacate r t
    match t.kind with
    | .triggered e => s.modTrigger home.core e Trigger.finish
    | .seeded _ => s

end Sys2Proof.Machine
end

