-- ==== Sys2Proof/Machine/Serving.lean ====
section
/-! DEFINITION. Rings and completions (18 R367 to R375), sequence slots, key-value pages and the retire walker (R376 to
R380), and the serving instructions (R385 to R391). -/

namespace Sys2Proof.Machine

/-! ## Rings (R367, R368) -/

def Ring.size (x : Ring) : Nat := 2 ^ x.lsize.toNat
/-- The index after `i` in a ring. -/
def Ring.next (x : Ring) (i : BitVec 16) : BitVec 16 := BitVec.ofNat 16 ((i.toNat + 1) % x.size)
/-- A ring is full when the index after its tail is its head (R375). -/
def Ring.full (x : Ring) : Bool := x.next x.tail = x.head

def State.serving (s : State) (h : HoldRef) : Serving := (s.hold h).serving
def State.modServing (s : State) (h : HoldRef) (f : Serving → Serving) : State :=
  s.modHold h fun x => { x with serving := f x.serving }

/-! ## Completions (R374, R375) -/

/-- The 32 bytes of a completion. -/
def Completion.bytes (c : Completion) (phase : Bool) : List Byte :=
  bytesOf [place (if phase then 1 else 0) 63 ||| place c.number.toNat 16 ||| place c.status.toNat 8 ||| word c.kind.toNat, c.dw1, c.dw2, c.time]

/-- No completion can be written: the ring is disabled or full, or a write failed and waits for SV.CQ.HEAD. -/
def Serving.cqClosed (v : Serving) : Bool := !v.cq.en || v.cq.full || v.cqStuck

/-- Writes a completion at the tail and signals vector 0; none where it must wait. -/
def State.cqWrite (s : State) (h : HoldRef) (c : Completion) : Option State :=
  let v := s.serving h
  if v.cqClosed then none
  else (s.sysWrite h.est v.cq.pasid (v.cq.base.toNat + 32 * v.cq.tail.toNat) (c.bytes v.cqPhase)).map fun s =>
    let t := v.cq.next v.cq.tail
    let s := s.modServing h fun v => { v with cq := { v.cq with tail := t }, cqPhase := if t = 0 then !v.cqPhase else v.cqPhase }
    s.signal (vfOf (s.hold h)) 0

/-- A completion write has failed its translation, if the ring was open. -/
def State.cqFailed (s : State) (h : HoldRef) : State :=
  if (s.serving h).cqClosed then s
  else s.modServing h fun v => { v with cqStuck := true, cq := { v.cq with fault := true } }

/-- Writes the completions that wait, oldest first, as far as the ring takes them. -/
def State.cqDrain (s : State) (h : HoldRef) : List Completion → State
  | [] => s.modServing h fun v => { v with waitingCq := [] }
  | c :: cs => match s.cqWrite h c with
    | some s' => s'.cqDrain h cs
    | none => (s.cqFailed h).modServing h fun v => { v with waitingCq := c :: cs }

/-- Writes the waiting completions of a holding. -/
def State.cqFlush (s : State) (h : HoldRef) : State := s.cqDrain h (s.serving h).waitingCq

/-- Queues a launch or request-refused completion behind those that wait, and writes what the ring takes. -/
def State.complete (s : State) (h : HoldRef) (c : Completion) : State :=
  (s.modServing h fun v => { v with waitingCq := v.waitingCq ++ [c] }).cqFlush h

/-- The list of waiting completions is full. -/
def Serving.listFull (v : Serving) : Bool := decide (64 ≤ v.waitingCq.length)

/-! ## Sequence slots (R376, R379) -/

def Serving.seq (v : Serving) (i : Nat) : SeqSlot := FMap.get {} v.seqs i
def Serving.setSeq (v : Serving) (i : Nat) (x : SeqSlot) : Serving := { v with seqs := FMap.set v.seqs i x }

/-- The slot of a handle, if the handle is current. -/
def Serving.current (v : Serving) (a : Word) : Option Nat :=
  let i := bits a 11 0
  if (v.seq i).active && decide ((v.seq i).gen.toNat = bits a 31 16) then some i else none

def Serving.walkerFull (v : Serving) : Bool := decide (64 ≤ v.walker.length)

/-- A retirement (R379): the slot is FREE at once, its pages go to the walker. -/
def Serving.retire (v : Serving) (i : Nat) (x : SeqSlot) (status index : BitVec 8) (time : Word) (tag : Option Nat) : Serving :=
  let r : Retirement := ⟨i, x.id, x.tokens, status, index, x.pages, x.pages.length, time, tag⟩
  { v.setSeq i { gen := x.gen } with walker := v.walker ++ [r] }

/-- Cause 0x58 with the instruction word (R384). -/
def refused58 (w : W32) : Eff := .trap { cause := 0x58, info := wordInfo w }

/-! ## sq.take and sq.admit (R386, R387) -/

/-- The outstanding launch of a tag. -/
def State.launchOf (s : State) (h : HoldRef) (tag : Option Nat) : Option Launch :=
  tag.bind fun k => (s.serving h).launches.find? fun l => l.key = k

/-- `sq.take` (R386). -/
def execSqTake (d a : Reg) (h : BitVec 1) (s : State) : Host.Outcome State Fault Refusal :=
  runOp [a] d (fun s r t vs =>
    let v := vs.headD 0
    match s.launchOf (s.taskHold r t) t.tag with
    | some l => if bits v 63 2 ≠ 0 then refused58 (encRR 0x37 d a 0 h 0 0x00)
      else .done s (l.shape[bits v 1 0]'(by unfold bits; exact Nat.mod_lt _ (by decide)))
    | none => refused58 (encRR 0x37 d a 0 h 0 0x00)) s

/-- A request entry (R377) is ill-formed. -/
def requestBad (bs : List Byte) : Bool :=
  field bs 33 1 ≠ 0 || field bs 44 20 ≠ 0 || decide (6 < field bs 32 1) || decide (field bs 34 2 = 0) || decide (512 < field bs 34 2)

/-- The fields of a request entry in an ACTIVE slot of the next generation. -/
def SeqSlot.occupy (x : SeqSlot) (bs : List Byte) : SeqSlot :=
  { active := true, gen := x.gen + 1, id := word (field bs 0 8)
    stops := (List.range (field bs 32 1)).map fun j => BitVec.ofNat 32 (field bs (8 + 4 * j) 4)
    tlimit := BitVec.ofNat 32 (field bs 36 4), tokens := 0, plimit := field bs 34 2, pages := [] }

/-- The slot that `sq.admit` chooses: the named one if it is FREE, or the lowest FREE one. -/
def Serving.chooseSlot (v : Serving) (a : Word) : Option Nat :=
  if bit a 12 then (List.range 4096).find? fun i => !(v.seq i).active
  else if (v.seq (bits a 11 0)).active then none else some (bits a 11 0)

/-- The admission of R387 after its operand checks. -/
def State.admitRequest (s : State) (h : HoldRef) (a : Word) : State × Word :=
  let v := s.serving h
  if !v.rq.en || decide (v.rq.head = v.rq.tail) then (s, 0x1000)
  else match v.chooseSlot a with
    | none => (s, 0x2000)
    | some i =>
      match s.sysRead h.est v.rq.pasid (v.rq.base.toNat + 64 * v.rq.head.toNat) 64 with
      | none => (s.modServing h fun v => { v with rq := { v.rq with fault := true } }, 0x4000)
      | some bs =>
        let adv := fun (v : Serving) => { v with rq := { v.rq with head := v.rq.next v.rq.head } }
        if requestBad bs then
          if v.listFull then (s, 0x2000)
          else ((s.modServing h adv).complete h ⟨3, 0, v.rq.head, word (field bs 0 8), 0, s.time⟩, 0x3000)
        else
          let x := (v.seq i).occupy bs
          (s.modServing h fun v => (adv v).setSeq i x, place (field bs 40 4) 32 ||| place x.gen.toNat 16 ||| word i)

/-- `sq.admit` (R387). -/
def execSqAdmit (d a : Reg) (h : BitVec 1) (s : State) : Host.Outcome State Fault Refusal :=
  runOp [a] d (fun s r t vs =>
    let v := vs.headD 0
    if bits v 15 13 ≠ 0 || (bit v 12 && bits v 11 0 ≠ 0) then refused58 (encRR 0x37 d a 0 h 0 0x01)
    else
      let (s', w) := s.admitRequest (s.taskHold r t) v
      .done s' w) s

/-! ## stop.test and sq.retire (R388, R389) -/

/-- What a token does to a sequence: it goes on, or ends with a status and an index. -/
def SeqSlot.test (x : SeqSlot) (token : W32) : Option (BitVec 8 × Nat) :=
  match indexOf (· == token) x.stops with
  | some j => some (0, j)
  | none => if x.tlimit ≠ 0 && decide (x.tlimit.toNat ≤ x.tokens.toNat) then some (1, (Config.limitIndex x.tokens).toNat) else none

/-- `stop.test` (R388). -/
def execStopTest (d a b : Reg) (h : BitVec 1) (s : State) : Host.Outcome State Fault Refusal :=
  runOp [a, b] d (fun s r t vs =>
    let ha := vs.headD 0
    let tok := vs.getD 1 0
    let hold := s.taskHold r t
    let v := s.serving hold
    if bits ha 15 12 ≠ 0 || bits tok 63 32 ≠ 0 then refused58 (encRR 0x37 d a b h 0 0x0A)
    else match v.current ha with
      | none => .done s 3
      | some i =>
        let x := { v.seq i with tokens := (v.seq i).tokens + 1 }
        let n := place x.tokens.toNat 32
        match x.test (lo32 tok) with
        | none => .done (s.modServing hold fun v => v.setSeq i x) n
        | some (st, j) =>
          if v.walkerFull then .wait []
          else s.fences r fun s => .done (s.modServing hold fun v => v.retire i x st (BitVec.ofNat 8 j) s.time t.tag)
            (n ||| (if st = 0 then place j 8 ||| 1 else 2))) s

/-- `sq.retire` (R389). -/
def execSqRetire (a : Reg) (h : BitVec 1) (s : State) : Host.Outcome State Fault Refusal :=
  runOp [a] 0 (fun s r t vs =>
    let v := vs.headD 0
    let hold := s.taskHold r t
    let sv := s.serving hold
    if bits v 63 40 ≠ 0 || bits v 15 12 ≠ 0 then refused58 (encRR 0x37 0 a 0 h 0 0x02)
    else match sv.current v with
      | none => .done s 0
      | some i =>
        if sv.walkerFull then .wait []
        else s.fences r fun s => .done (s.modServing hold fun x => x.retire i (x.seq i) 2 (BitVec.ofNat 8 (bits v 39 32)) s.time t.tag) 0) s

/-! ## kv.get and kv.put (R390, R391) -/

/-- `kv.get` (R390). -/
def execKvGet (d a : Reg) (h : BitVec 1) (s : State) : Host.Outcome State Fault Refusal :=
  runOp [a] d (fun s r t vs =>
    let ha := vs.headD 0
    let hold := s.taskHold r t
    let v := s.serving hold
    if bits ha 15 12 ≠ 0 then refused58 (encRR 0x37 d a 0 h 0 0x08)
    else match v.current ha, v.kvFree with
      | none, _ => .done s 3
      | some i, free =>
        let x := v.seq i
        if x.plimit ≤ x.pages.length then .done s 2
        else match free with
          | [] => .done s 1
          | p :: ps =>
            .done (s.modServing hold fun v => { v.setSeq i { x with pages := x.pages ++ [p] } with kvFree := ps })
              (v.kvBaseTaken + word (65536 * p))) s

/-- The page at an address of the key-value area, if the address is one (R369, R384). -/
def Serving.pageAt (v : Serving) (a : Word) : Option Nat :=
  let p := (a.toNat - v.kvBaseTaken.toNat) / 65536
  if a.toNat % 65536 = 0 ∧ v.kvBaseTaken.toNat ≤ a.toNat ∧ p < v.kvCount.toNat then some p else none

/-- `kv.put` (R391). -/
def execKvPut (a b : Reg) (h : BitVec 1) (s : State) : Host.Outcome State Fault Refusal :=
  runOp [a, b] 0 (fun s r t vs =>
    let ha := vs.headD 0
    let hold := s.taskHold r t
    let v := s.serving hold
    match (if bits ha 15 12 ≠ 0 then none else v.pageAt (vs.getD 1 0)), v.current ha with
    | none, _ => refused58 (encRR 0x37 0 a b h 0 0x09)
    | some _, none => .done s 0
    | some p, some i =>
      let x := v.seq i
      if x.pages.contains p then
        s.fences r fun s => .done (s.modServing hold fun v => { v.setSeq i { x with pages := x.pages.erase p } with kvFree := p :: v.kvFree }) 0
      else .done s 0) s

end Sys2Proof.Machine
end

