-- ==== Sys2Proof/Machine/Scheduler.lean ====
section
/-! DEFINITION. The steps of the scheduler (05 R92, R99, R103 to R105, R109; 07 R150; 12 R271, R272; 16 R344; 19 R403):
DISPATCH, PARTITION_CHANGE, CONCURRENT_DISPATCH, the two GLEANs, RESTORE_SEED_MOVE, HANDLER_WATCHDOG and MIGRATE. -/

namespace Sys2Proof.Machine

/-! ## Sorting -/

/-- Inserts before the first element of a larger key. -/
def insertBy {α : Type} (key : α → Nat) (x : α) : List α → List α
  | [] => [x]
  | y :: ys => if key x < key y then x :: y :: ys else y :: insertBy key x ys

/-- A stable sort by rising key. -/
def sortBy {α : Type} (key : α → Nat) (xs : List α) : List α := xs.foldl (fun ys x => insertBy key x ys) []

/-! ## A core's own candidates (05 R92) -/

/-- The candidates of a core with their priorities: entries 0 to 255 and the deque as 256. -/
def Core.candidates (c : Core) : List (Nat × Nat) :=
  (c.trig.filterMap fun (e, t) => if t.state = .runnable ∧ !t.mask then some (e, t.arm.prio.toNat) else none) ++
    match c.deque.getLast? with
    | some x => if x.held then [] else [(256, prioOf x.cw)]
    | none => []

/-- The candidate that the core picks: highest priority, then the round-robin pointer. -/
def Core.pick (c : Core) : Option Nat :=
  let cs := c.candidates
  let top := cs.foldl (fun p x => Nat.max p x.2) 0
  cyclic 257 c.rr.val fun i => cs.contains (i, top)

/-- The pointer stops one place past the last choice. -/
def Core.passed (c : Core) (i : Nat) : Core := { c with rr := ⟨(i + 1) % 257, Nat.mod_lt _ (by decide)⟩ }

/-! ## The order of the ready queue (05 R103, 19 R403) -/

/-- Rank of an owner in the cyclic visits: the owner being visited while dispatches of the visit are left, then the owners
above it, then those from the lowest. -/
def visitRank (cur left o : Nat) : Nat := if o = cur ∧ 0 < left then 0 else if cur < o then 1 + o else 2 ^ 20 + 1 + o

/-- The seeds of a ready queue in the order in which the scheduler offers them, with their places. -/
def Image.offers (im : Image) : List (Nat × Seed) :=
  sortBy (fun x => visitRank im.visitPasid.toNat im.visitLeft (ownerOf x.2.cw).toNat * 4 + (3 - prioOf x.2.cw))
    (im.ready.zipIdx.map fun (x, i) => (i, x))

/-- The weight of an owner (R403): the lowest-numbered entry of several that name it (log 143). -/
def Holding.weight (h : Holding) (o : BitVec 20) : Nat :=
  match h.weights.toList.find? fun w => w.extractLsb' 20 4 ≠ 0 && w.extractLsb' 0 20 = o with
  | some w => (w.extractLsb' 20 4).toNat
  | none => 1

/-- A dispatch of an owner's seed uses up one of its visit. -/
def Image.visited (im : Image) (o : BitVec 20) (weight : Nat) : Image :=
  let left := if im.visitPasid = o ∧ 0 < im.visitLeft then im.visitLeft else weight
  { im with visitPasid := o, visitLeft := left - 1 }

/-! ## What the scheduler does with a seed for a core -/

inductive Offer where
  | pass
  | forward (d : DieId)
  | start (h : HoldRef)
  /-- A migrating seed starts on its home core as an ordinary task (16 R344). -/
  | home (m : Migrant)
  /-- A migrating seed starts on its target core (12 R271). -/
  | guest (m : Migrant)
deriving DecidableEq, Repr

/-- A core that may take a migrating seed: quiescent, not retired, dispatch open. -/
def State.guestOk (s : State) (h : HoldRef) (c : CoreRef) : Bool := (s.core c).quiescent && s.open h c

/-- The core of a target die to which a migrating seed is offered (12 R271): the one at the home core's place, otherwise the
first in row-major order. -/
def State.guestCore (s : State) (m : HomeRef) (d : DieId) : Option CoreRef :=
  if s.guestOk m.hold ⟨d, m.core⟩ then some ⟨d, m.core⟩
  else ((List.range 480).map fun i => (⟨d, coreIdx i⟩ : CoreRef)).find? fun c => s.guestOk m.hold c

/-- A die implements the set that a migrating seed needs. -/
def Migrant.runsOn (m : Migrant) (d : DieId) : Bool := m.set = 0 || !lean d

/-- No engine operation of a slot is outstanding. -/
def Core.engineIdle (c : Core) (i : SlotId) : Bool :=
  (c.plq.all fun o => o.origin.slot ≠ i) && (c.drq.all fun o => o.origin.slot ≠ i)

/-- The offer of a migrating seed (16 R344, 12 R271), while dispatch is open for its holding. It starts once the engine operations of its home slot are complete, also
where a move has sent it to the queue before (09 R212, 10 R238). -/
def State.offerMigrant (s : State) (c : CoreRef) (x : Seed) (m : Migrant) : Offer :=
  let hd := s.dieOf m.home.hold m.home.hdie
  if !s.holdOpen m.home.hold then .pass
  else if m.runsOn hd then
    if c.die ≠ hd then .forward hd
    else if c = s.homeCore m.home && (s.core c).engineIdle m.home.slot && s.open m.home.hold c && (s.core c).accepts x then .home m
    else .pass
  else match s.fullDie m.home.hold m.home.hdie with
    | none => if c.die = hd then .pass else .forward hd
    | some d =>
      if d ≠ c.die then .forward d
      else if (s.core (s.homeCore m.home)).engineIdle m.home.slot && decide (s.guestCore m.home d = some c) then .guest m
      else .pass

/-- The offer of a queued seed to a core (R103, 07 R150). A seed that waits for the start of its concurrent launch is offered to
none (R105). -/
def State.offerSeed (s : State) (c : CoreRef) (x : Seed) : Offer :=
  if x.waits then .pass
  else match x.mig, s.holdAt c.die with
  | some m, _ => s.offerMigrant c x m
  | none, none => .pass
  | none, some (h, _) => match s.steer h c.die 0 x with
    | some d => if d = c.die then .pass else .forward d
    | none => if x.bound.isSome && x.bound ≠ some c.idx then .pass else if s.open h c && (s.core c).accepts x then .start h else .pass

/-- The partition word that a core has once an offer has started. -/
def State.offerPart (s : State) (x : Seed) : Offer → Word
  | .guest m => (s.core (s.homeCore m.home)).part
  | _ => x.part

/-- An offer can be carried out on a core: room in the die that is forwarded to, a free slot under the word it will have. -/
def State.canOffer (s : State) (c : CoreRef) (x : Seed) (o : Offer) : Bool :=
  match o with
  | .pass => false
  | .forward d => s.readyRoom d
  | o => (List.finRange 4).any fun i => (s.core c).slotFreeUnder (s.offerPart x o) i

/-- The first queued seed that the scheduler can offer to a core, with its place in the queue. -/
def State.firstOffer (s : State) (c : CoreRef) : Option (Nat × Seed) :=
  (s.image c.die).offers.find? fun (_, x) => s.canOffer c x (s.offerSeed c x)

/-- A core takes work: it is not retired, no slot of it is parked, and dispatch is open for the holding that stands there, if one does. -/
def State.coreOpen (s : State) (c : CoreRef) : Bool :=
  !s.retired c && !(s.core c).parked && match s.holdAt c.die with | some (h, _) => s.holdOpen h | none => true

/-- A core qualifies for the scheduler: it takes work, and it has a free slot, no candidate, and a seed for it. -/
def State.qualifies (s : State) (c : CoreRef) : Bool :=
  s.coreOpen c && (s.core c).pick.isNone && (List.finRange 4).any (fun i => (s.core c).slotFreeUnder (s.core c).part i) && (s.firstOffer c).isSome

/-- The core that the scheduler of a die serves: row-major from the core after the last served (R103). -/
def State.serves (s : State) (d : DieId) : Option CoreRef :=
  (cyclic 480 ((s.image d).served.val + 1) fun i => s.qualifies ⟨d, coreIdx i⟩).map fun i => ⟨d, coreIdx i⟩

/-! ## Migration (12 R271, R272) -/

/-- A seed at the head of its priority in a ready queue. -/
def State.pushFront (s : State) (d : DieId) (x : Seed) : State :=
  s.setImage d { s.image d with ready := x :: (s.image d).ready }

/-- Forwards a seed: a migrating one to the head of its priority; another is no longer bound to a core of the die that it
leaves. -/
def State.forwardTo (s : State) (d : DieId) (x : Seed) : State :=
  if x.mig.isSome then s.pushFront d x else s.pushReady d { x with bound := none }

/-- The preparation of a target core for a task from `from_` (R272). The lines that it receives are dirty where they are at
home. -/
def Core.prepare (c home : Core) (from_ : HomeRef) (part : Word) : Core :=
  let keep := carried home.part
  { c with
    saved := some { home := from_, lines := [], pool := c.pool, poolOf := c.poolOf, regs := c.regs, part := c.part, wrote := [] }
    part := part
    poolOf := home.poolOf
    handles := if c.part = part then c.handles else Vector.replicate 16 {}
    pool := { bytes := home.pool.bytes.filter fun b => keep (b.1 / 64), dirty := home.pool.dirty.filter keep
              poison := home.pool.poison.filter keep }
    regs := { c.regs with
      fmtA := home.regs.fmtA, fmtB := home.regs.fmtB, sclA := home.regs.sclA, sclB := home.regs.sclB, plWt := home.regs.plWt
      gbpEps := home.regs.gbpEps, geo0 := home.regs.geo0, geo1 := home.regs.geo1, geo2 := home.regs.geo2 } }

/-- The task of a migrating seed: triggered or seed-started as it was, with its message. -/
def migrantTask (x : Seed) (m : Migrant) (home : Option HomeRef) : Task :=
  { pc := x.pc, args := x.args, cw := x.cw, tag := x.tag, msg := m.msg, home := home
    kind := match m.entry with
      | some e => .triggered e
      | none => .seeded (if home.isSome then x else { x with mig := none }) }

/-- The message of a migrating seed in its own place of the home core's queue, which the entry has kept (13 R287). -/
def State.reclaim (s : State) (c : CoreRef) (m : Migrant) : State × Migrant :=
  match m.entry with
  | some e =>
    let kept := ((s.core c).trigger e).away
    (s.modTrigger c e fun x => { x with away := none },
      { m with msg := m.msg.map fun x => { x with place := match kept with | some y => y.place | none => x.place } })
  | none => (s, m)

/-- Carries out a start in a slot. -/
def State.startOffer (s : State) (r : SlotRef) (x : Seed) : Offer → State
  | .start h => s.dispatchSeed h r x
  | .home m =>
    let s := if (s.core r.core).part = x.part then s else s.adopt m.home.hold r.core x
    let (s, m) := s.reclaim r.core m
    s.start m.home.hold r (migrantTask x m none)
  | .guest m =>
    let s := s.flushCore r.core
    let home := s.core (s.homeCore m.home)
    (s.setCore r.core ((s.core r.core).prepare home m.home home.part)).start m.home.hold r (migrantTask x m (some m.home))
  | _ => s

/-! ## DISPATCH (R92) -/

def State.setServed (s : State) (d : DieId) (c : CoreIdx) : State := s.setImage d { s.image d with served := c }

/-- Removes the seed at a place of a die's ready queue. -/
def State.takeReady (s : State) (d : DieId) (n : Nat) : State :=
  s.setImage d { s.image d with ready := removeAt (s.image d).ready n }

/-- The holding for which an offer starts a task. -/
def Offer.hold : Offer → Option HoldRef
  | .start h => some h
  | .home m => some m.home.hold
  | .guest m => some m.home.hold
  | _ => none

/-- The scheduler serves a core: it forwards the first seed that it can offer, or starts it in the slot. -/
def State.serve (s : State) (r : SlotRef) : State :=
  let d := r.core.die
  match s.firstOffer r.core with
  | none => s
  | some (n, x) =>
    match s.offerSeed r.core x with
    | .pass => s
    | .forward d' => (s.takeReady d n).forwardTo d' x
    | o =>
      if !(s.core r.core).slotFreeUnder (s.offerPart x o) r.slot then s
      else
        let w := match o.hold with | some h => (s.hold h).weight (ownerOf x.cw) | none => 1
        let s := (s.takeReady d n).setServed d r.core.idx
        let s := s.setImage d ((s.image d).visited (ownerOf x.cw) w)
        s.startOffer r x o

/-- The tail seed of the deque, taken for a slot: it is forwarded where the checks of R103 and R150 say so. -/
def State.takeTail (s : State) (h : HoldRef) (r : SlotRef) : State :=
  match (s.core r.core).deque.getLast? with
  | none => s
  | some x =>
    let drop := fun (s : State) => s.setCore r.core { (s.core r.core).passed 256 with deque := (s.core r.core).deque.dropLast }
    match s.steer h r.core.die 0 x with
    | some d => if s.readyRoom d then (drop s).forwardTo d (s.withHome h r.core r.slot d x) else s
    | none =>
      if x.part = (s.core r.core).part then (drop s).dispatchSeed h r x
      else if s.readyRoom r.core.die then (drop s).pushReady r.core.die (x.pinned r.core) else s

/-- DISPATCH (R92): a free slot starts its highest-priority candidate, or a seed of the die's scheduler. -/
def execDispatch (r : SlotRef) (s : State) : Host.Outcome State Fault Refusal :=
  let c := s.core r.core
  if !s.coreOpen r.core then .next s
  else match c.pick, s.holdAt r.core.die with
    | some 256, some (h, _) => .next (if c.slotFree r.slot then s.takeTail h r else s)
    | some e, some (h, _) =>
      .next (if c.slotFree r.slot then (s.setCore r.core (c.passed e)).startTrigger h r (BitVec.ofNat 8 e) else s)
    | _, _ => .next (if s.serves r.core.die = some r.core then s.serve r else s)

/-! ## PARTITION_CHANGE (07 R150) and CONCURRENT_DISPATCH (R105) -/

/-- A seed of a concurrent launch that waits in the ready queue for its core. -/
def Seed.waitsFor (x : Seed) (c : CoreIdx) : Bool := x.waits && decide (x.bound = some c)

/-- The first seed of a concurrent launch that waits for a core. -/
def State.reservedSeed (s : State) (c : CoreRef) : Option Seed := (s.image c.die).ready.find? fun x => x.waitsFor c.idx

/-- PARTITION_CHANGE: a quiescent core adopts the word of the seed that it is next to start. -/
def execPartitionChange (c : CoreRef) (s : State) : Host.Outcome State Fault Refusal :=
  match s.holdAt c.die with
  | none => .next s
  | some (h, _) =>
    let k := s.core c
    if !s.open h c then .next s
    else match (if k.quiescent then s.firstOffer c else none) with
      | some (_, x) =>
        match s.offerSeed c x with
        | .start _ => .next (if x.part = k.part then s else s.adopt h c x)
        | _ => .next s
      | none => match s.reservedSeed c with
        | some x => .next (if x.part ≠ k.part && k.quiescentFor x.tag then s.adopt h c x else s)
        | none => .next s

/-- The slot that a launch has reserved on a core. -/
def Core.reservedSlot (c : Core) (key : Nat) : Option SlotId := (List.finRange 4).find? fun i => c.slots[i].reserved = some key

/-- The place of the seed of a concurrent launch in the ready queue of its core's die. -/
def State.concSeed (s : State) (c : CoreRef) (key : Nat) : Option Nat :=
  indexOf (fun x => x.waitsFor c.idx && decide (x.tag = some key)) (s.image c.die).ready

/-- The seed of a concurrent launch for the core at given coordinates can start in its reserved slot. -/
def State.concReady (s : State) (h : HoldRef) (key : Nat) (p : Coord) : Bool :=
  let c := s.coreAt h p.hx p.hy
  let k := s.core c
  match k.reservedSlot key, (s.concSeed c key).bind fun n => (s.image c.die).ready[n]? with
  | some i, some x =>
    let sl := k.slots[i]
    sl.task.isNone && sl.restore.isEmpty && !sl.parked && sl.migrating.isNone && s.open h c &&
      (k.part = x.part || k.quiescentFor (some key))
  | _, _ => false

/-- Starts the seed of a concurrent launch in its reserved slot. -/
def State.concStart (s : State) (h : HoldRef) (key : Nat) (p : Coord) : State :=
  let c := s.coreAt h p.hx p.hy
  match (s.core c).reservedSlot key, s.concSeed c key with
  | some i, some n => match (s.image c.die).ready[n]? with
    | some x => (s.takeReady c.die n).dispatchSeed h ⟨c, i⟩ { x with waits := false }
    | none => s
  | _, _ => s

/-- CONCURRENT_DISPATCH (R105): all seeds of an accepted concurrent launch start together. -/
def execConcurrentDispatch (h : HoldRef) (tag : Nat) (s : State) : Host.Outcome State Fault Refusal :=
  match (s.serving h).launches.find? fun l => l.key = tag with
  | none => .next s
  | some l =>
    if l.seeds.all fun p => s.concReady h tag p then
      let s := l.seeds.foldl (fun s p => s.concStart h tag p) s
      .next (s.modServing h fun v => { v with launches := v.launches.map fun x => if x.key = tag then { x with seeds := [] } else x })
    else .next s

/-! ## Gleaning (R104) -/

/-- The place of the oldest seed of a deque that a sibling may glean. -/
def gleanable (c : Core) (x : Seed) : Bool :=
  !x.held && decide (1 ≤ domainOf x.cw) && classOf x.cw ≠ 2 && x.bound.isNone && c.accepts x

/-- The first sibling, from index c + 1 upward, with a seed that core `c` may take, and the seed's place. -/
def State.gleanVictim (s : State) (c : CoreRef) : Option (CoreRef × Nat) :=
  ((List.range 7).map fun i => (⟨c.die, clusterCore (clusterOf c.idx) (cidxOf c.idx + 1 + i)⟩ : CoreRef)).findSome? fun v =>
    if s.retired v || (s.core v).parked then none
    else (indexOf (gleanable (s.core c)) (s.core v).deque).map fun n => (v, n)

/-- GLEAN_CLUSTER: an idle core takes one seed from a sibling and starts it; a seed that needs steering is forwarded instead, as
before any dispatch (R103). -/
def execGleanCluster (c : CoreRef) (s : State) : Host.Outcome State Fault Refusal :=
  match s.holdAt c.die with
  | none => .next s
  | some (h, _) =>
    let k := s.core c
    if !s.open h c || k.pick.isSome || (s.firstOffer c).isSome || k.freeSlot.isNone then .next s
    else match s.gleanVictim c with
      | none => .next s
      | some (v, n) =>
        match (s.core v).deque[n]? with
        | none => .next s
        | some x =>
          let drop := fun (s : State) => s.setCore v { s.core v with deque := removeAt (s.core v).deque n }
          match (List.finRange 4).find? (k.slotFreeUnder x.part), s.steer h c.die 0 x with
          | some i, none => .next ((drop s).dispatchSeed h ⟨c, i⟩ { x with shipped := true })
          | some i, some d => .next (if s.readyRoom d then (drop s).forwardTo d (s.withHome h c i d { x with shipped := true }) else s)
          | none, _ => .next s

/-- A queued seed that a neighbouring die may glean from holding die `i`. -/
def farGleanable (i : Nat) (x : Seed) : Bool :=
  domainOf x.cw = 3 && !x.held && x.bound.isNone && classOf x.cw ≠ 2 && affOf x.cw ≠ i && x.mig.isNone

/-- The neighbours of holding die `k`, in the alternating order. -/
def gleanNeighbours (k n : Nat) (up : Bool) : List (Nat × Bool) :=
  let down := if 0 < k then [(k - 1, true)] else []
  let above := if k + 1 < n then [(k + 1, false)] else []
  if up then above ++ down else down ++ above

/-- GLEAN_HOLDING: an idle scheduler takes seeds from the ready queue of a neighbouring die. -/
def execGleanHolding (d : DieId) (s : State) : Host.Outcome State Fault Refusal :=
  match s.holdAt d with
  | none => .next s
  | some (h, k) =>
    let im := s.image d
    let idle := (List.range 480).any fun i => s.open h ⟨d, coreIdx i⟩ && ((s.core ⟨d, coreIdx i⟩).freeSlot).isSome
    if !im.ready.isEmpty || !idle then .next s
    else match (gleanNeighbours k (s.hold h).dies im.gleanUp).find? fun v => (s.image (s.dieOf h v.1)).ready.any (farGleanable v.1) with
      | none => .next s
      | some (v, up) =>
        let vd := s.dieOf h v
        let q := (s.image vd).ready
        let e := (q.filter (farGleanable v)).length
        let n := Nat.min 64 (ceilDiv e 2)
        let taken := (q.filter (farGleanable v)).take n
        let rest := (q.foldl (fun (acc : List Seed × Nat) x =>
          if farGleanable v x && decide (acc.2 < n) then (acc.1, acc.2 + 1) else (acc.1 ++ [x], acc.2)) ([], 0)).1
        let s := s.setImage vd { s.image vd with ready := rest }
        .next (s.setImage d { s.image d with ready := taken.map fun x => { x with shipped := true }, gleanUp := up })

/-! ## RESTORE_SEED_MOVE (R99) -/

/-- RESTORE_SEED_MOVE: a restored seed leaves its restore place, the deque first. On a retired core, the seeds of its deque
move to the ready queue as room appears (21 R438). -/
def execRestoreSeedMove (r : SlotRef) (s : State) : Host.Outcome State Fault Refusal :=
  let sl := s.slot r
  let frozen := match s.holdAt r.core.die with | some (h, _) => s.frozenHold h | none => false
  if frozen then .next s
  else if s.retired r.core then
    match (s.core r.core).deque with
    | x :: xs => .next (if s.readyRoom r.core.die then (s.setCore r.core { s.core r.core with deque := xs }).pushReady r.core.die x else s)
    | [] => .next s
  else match sl.restore with
    | x :: xs => .next (if sl.parked then s else (s.setSlot r { sl with restore := xs }).restoreSeed r x)
    | [] => .next s

/-! ## HANDLER_WATCHDOG (R109) and MIGRATE (12 R271) -/

/-- The task of a slot has occupied it for as long as its watchdog admits. -/
def Task.overdue (t : Task) : Bool := decide (2 ^ t.w ≤ t.wd)

/-- A task is aborted by its watchdog with cause 0x43. -/
def State.overrun (s : State) (r : SlotRef) (t : Task) : State :=
  s.takeTrap r { cause := 0x43, info := word (2 ^ t.w) } t.pc t.pc false

/-- HANDLER_WATCHDOG: a task that has occupied its slot for 2^w cycles is aborted. -/
def execHandlerWatchdog (r : SlotRef) (s : State) : Host.Outcome State Fault Refusal :=
  match s.task r with
  | none => .next s
  | some t => .next (if !(s.slot r).halted && t.overdue then s.overrun r t else s)

/-- MIGRATE: once the slot's engine operations are complete, the seed goes to its target die, or waits on its home die. -/
def execMigrate (r : SlotRef) (s : State) : Host.Outcome State Fault Refusal :=
  match (s.slot r).migrating with
  | none => .next s
  | some x =>
    let m := x.mig.map Migrant.home
    let frozen := match m with | some h => s.frozenHold h.hold | none => false
    let target := match m with | some h => (s.fullDie h.hold h.hdie).getD (s.dieOf h.hold h.hdie) | none => r.core.die
    if !(s.core r.core).engineIdle r.slot || frozen || !s.readyRoom target then .next s
    else .next ((s.setSlot r { s.slot r with migrating := none }).pushFront target x)

end Sys2Proof.Machine
end

