-- ==== Sys2Proof/Machine/Steward.lean ====
section
/-! DEFINITION. The gates on the physical function's registers (20 R412, R415, 21 R439) and the steward block (20 R413, R414):
STEWARD_CLAIM, STEWARD_RESIGN, STEWARD_HANDOVER, STW_BEAT, STEWARD_LAPSE and STW_STAT_READ. -/

namespace Sys2Proof.Machine

/-! ## Gates -/

/-- The register space beside the boot, security and steward blocks is open (21 R439). -/
def State.isOpen (s : State) : Bool := decide (7 ≤ s.bootStage.toNat)

/-- A port is steward, and its lease has not expired (R414). -/
def State.led (s : State) : Bool := s.steward.valid && decide (s.panelNs < s.steward.deadline)
def State.isSteward (s : State) (port : BitVec 1) : Bool := s.led && s.steward.port = port

/-- A dropped write is counted, saturating (R413, R415). -/
def State.countDenied (s : State) : State :=
  { s with steward := { s.steward with denied := BitVec.ofNat 16 (saturate (s.steward.denied.toNat + 1) 65535) } }

/-- A write of a register of the boot, steward or security block: it needs the steward only. -/
def State.stewardWrite (s : State) (port : BitVec 1) (f : State → State) : State := if s.isSteward port then f s else s.countDenied

/-- A write of any other register of the physical function: it also needs stage 7 of bring-up. -/
def State.pfWrite (s : State) (port : BitVec 1) (f : State → State) : State := if s.isOpen then s.stewardWrite port f else s

/-- A write of a register of an estate's blocks: a block that the mode lacks ignores it (R412). -/
def State.estWrite (s : State) (port : BitVec 1) (e : Fin 4) (f : State → State) : State :=
  s.pfWrite port fun s => if e.val < estateCount s.mode then f s else s

/-- A write through a port reaches a virtual function: port 0 presents those up to NumVFs (20 R411), once stage 7 is done (21
R439). -/
def State.vfOpen (s : State) (fn : Fin 64) (port : BitVec 1) : Bool :=
  fn ≠ 0 && port = 0 && s.isOpen && decide (fn.val ≤ s.numVfs.toNat)

/-- A write of a register that every function has. -/
def State.fnWrite (s : State) (fn : Fin 64) (port : BitVec 1) (f : State → State) : State :=
  if fn = 0 then s.pfWrite port f else if s.vfOpen fn port then f s else s

/-- The holding that a virtual function is bound to (19 R392). -/
def State.holdOfFn (s : State) (fn : Fin 64) : Option HoldRef :=
  if fn = 0 then none else allHolds.find? fun h => (s.hold h).state ≠ .absent && decide ((s.hold h).vf.toNat = fn.val)

/-- A write of a register of the holding that a virtual function is bound to; an unbound function's write has no effect. -/
def State.vfWrite (s : State) (fn : Fin 64) (port : BitVec 1) (f : HoldRef → State → State) : State :=
  match s.holdOfFn fn with
  | some h => if s.vfOpen fn port then f h s else s
  | none => s

/-! ## The steward (R414) -/

/-- The end of a lease that begins now: the lease is in ms. -/
def State.leaseEnd (s : State) : Nat := s.panelNs + s.steward.lease.toNat * 1000000

/-- The steward lapses: HOST.EVT is set, and pending commands run on. -/
def State.lapse (s : State) : State := { s with steward := { s.steward with valid := false } }.hostEvent 2

/-- The steward's lease has expired, and it has lapsed. -/
def State.expire (s : State) : State := if s.steward.valid && !s.led then s.lapse else s

/-- The claim that is elected among those of one device cycle: port 0 comes first. `other` is what the other port writes. -/
def elected (port : BitVec 1) (v : Word) (other : Option Word) : Option (BitVec 1 × Word) :=
  let claims := [(port, v)] ++ (other.map fun w => (~~~port, w)).toList
  (claims.filter fun c => bit c.2 16).find? (fun c => c.1 = 0) <|> claims.find? fun c => bit c.2 16

/-- STEWARD_CLAIM: claim = 1 while no port is steward. -/
def execStewardClaim (port : BitVec 1) (w : ClaimWrites) (s : State) : Host.Outcome State Fault Refusal :=
  let s := s.expire
  .next (match elected port w.v w.other with
    | some (p, v) => if s.steward.valid then s
      else { s with steward := { s.steward with valid := true, port := p, key := BitVec.ofNat 16 (bits v 15 0), deadline := s.leaseEnd } }
    | none => s)

/-- STEWARD_RESIGN: claim = 0 by the steward with its own key. -/
def execStewardResign (port : BitVec 1) (v : Word) (s : State) : Host.Outcome State Fault Refusal :=
  .next (if !bit v 16 && s.isSteward port && decide (bits v 15 0 = s.steward.key.toNat) then s.lapse else s)

/-- STEWARD_HANDOVER: go = 1 moves stewardship to the target port; the key and the lease stay, and the lease begins again. -/
def execStewardHandover (port : BitVec 1) (v : Word) (s : State) : Host.Outcome State Fault Refusal :=
  .next (s.stewardWrite port fun s =>
    if bit v 8 then { s with steward := { s.steward with port := BitVec.ofNat 1 (bits v 0 0), deadline := s.leaseEnd } }.hostEvent 3
    else s)

/-- STW_BEAT: a write by the steward renews its lease. -/
def execStwBeat (port : BitVec 1) (s : State) : Host.Outcome State Fault Refusal :=
  .next (s.stewardWrite port fun s => { s with steward := { s.steward with deadline := s.leaseEnd } })

/-- STEWARD_LAPSE: the lease has expired, or the steward's link enters DL_Down. -/
def execStewardLapse (linkDown : Bool) (s : State) : Host.Outcome State Fault Refusal :=
  .next (if s.steward.valid && (linkDown || decide (s.steward.deadline ≤ s.panelNs)) then s.lapse else s)

/-- STW_STAT_READ: the count of denied writes is read and cleared. -/
def State.readDenied (s : State) : State :=
  { s with outbox := s.outbox ++ [.register (s.steward.denied.setWidth 64)], steward := { s.steward with denied := 0 } }

def execStwStatRead (_ : BitVec 1) (s : State) : Host.Outcome State Fault Refusal := .next s.readDenied

end Sys2Proof.Machine
end

