-- ==== Sys2Proof/Machine/Launches.lean ====
section
/-! DEFINITION. Launches and the services of the rings (18 R367 to R381, 02 R42 to R48, R443, 05 R105, 19 R403, R404): LAUNCH_TAKE,
LAUNCH_COMPLETE, WALKER_PUSH, WALKER_COMPLETION, SV_CQ_HEAD_WRITE and KV_COUNT_WRITE. -/

namespace Sys2Proof.Machine

/-! ## Ring registers (R367 to R369) -/

/-- The index that a 16-bit head or tail names in a ring (log 56). -/
def Ring.index (x : Ring) (v : Word) : BitVec 16 := BitVec.ofNat 16 (bits v 15 0 % x.size)

/-- A write of a ring's control (R368). -/
def Ring.control (x : Ring) (v : Word) (launch : Bool) : Ring :=
  let l := bits v 4 0
  let y : Ring := { x with
    fault := x.fault && !bit v 21
    en := bit v 16
    pasid := if x.en then x.pasid else BitVec.ofNat 20 (bits v 51 32)
    lsize := if x.en || decide (l < 4) || decide (16 < l) then x.lsize else BitVec.ofNat 5 l
    tickets := if launch then (if bits v 31 24 = 0 then 1 else BitVec.ofNat 8 (bits v 31 24)) else x.tickets
    prio := if launch then BitVec.ofNat 2 (bits v 23 22) else x.prio }
  if bit v 16 && !x.en then { y with head := 0, tail := 0 } else y

def Serving.ring (v : Serving) : RingId → Ring
  | .request => v.rq
  | .completion => v.cq
  | .launch q => v.lq[q]
  | .collective => v.cr

def Serving.setRing (v : Serving) (r : RingId) (x : Ring) : Serving :=
  match r with
  | .request => { v with rq := x }
  | .completion => { v with cq := x }
  | .launch q => { v with lq := vset v.lq q x }
  | .collective => { v with cr := x }

def isLaunch : RingId → Bool
  | .launch _ => true
  | _ => false

/-- A control write on a ring of a holding. -/
def State.writeControl (s : State) (h : HoldRef) (r : RingId) (v : Word) : State :=
  s.modServing h fun x => x.setRing r ((x.ring r).control v (isLaunch r))

/-- SV_CQ_HEAD_WRITE (R375): room is freed, and what waits is written. -/
def execSvCqHeadWrite (fn : Fin 64) (v : Word) (s : State) : Host.Outcome State Fault Refusal :=
  .next (s.vfWrite fn 0 fun h s =>
    (s.modServing h fun x => { x with cq := { x.cq with head := x.cq.index v }, cqStuck := false }).cqFlush h)

/-- KV_COUNT_WRITE (R369). -/
def execKvCountWrite (fn : Fin 64) (v : Word) (s : State) : Host.Outcome State Fault Refusal :=
  .next (s.vfWrite fn 0 fun h s => s.modServing h fun x =>
    if (x.seqs.any fun p => p.2.active) || !x.walker.isEmpty then { x with kvBusy := true }
    else
      { x with
        kvBusy := false, kvCount := BitVec.ofNat 20 (bits v 19 0), kvFree := List.range (bits v 19 0)
        kvBaseTaken := x.kvBase, kvPasidTaken := x.rq.pasid })

/-! ## The retire walker (R380) -/

/-- WALKER_PUSH: one page of the oldest retirement goes on top of the free list. -/
def execWalkerPush (h : HoldRef) (s : State) : Host.Outcome State Fault Refusal :=
  match (s.serving h).walker with
  | x :: xs => match x.left with
    | p :: ps => .next (s.modServing h fun v => { v with kvFree := p :: v.kvFree, walker := { x with left := ps } :: xs })
    | [] => .next s
  | [] => .next s

/-- The sequence completion of a retirement (R374). -/
def Retirement.completion (x : Retirement) : Completion :=
  ⟨2, x.status, BitVec.ofNat 16 x.slot, x.id, word (x.tokens.toNat + x.pages * 2 ^ 32 + x.index.toNat * 2 ^ 48), x.time⟩

/-- WALKER_COMPLETION: with every page pushed, the completion is written and the place freed. -/
def execWalkerCompletion (h : HoldRef) (s : State) : Host.Outcome State Fault Refusal :=
  match (s.serving h).walker with
  | x :: xs => match x.left with
    | [] => match s.cqWrite h x.completion with
      | some s' => .next (s'.modServing h fun v => { v with walker := xs })
      | none => .next (s.cqFailed h)
    | _ :: _ => .next s
  | [] => .next s

/-! ## The choice of a queue (R371, 19 R403, R404) -/

/-- The enabled launch queues with an entry waiting. -/
def Serving.contenders (v : Serving) : List (Fin 16) := (List.finRange 16).filter fun q => v.lq[q].en && decide (v.lq[q].head ≠ v.lq[q].tail)

/-- One lottery draw (R404). -/
def draw (x : W32) : W32 :=
  let x := x ^^^ (x <<< 13)
  let x := x ^^^ (x >>> 17)
  x ^^^ (x <<< 5)

/-- The queue whose ticket range contains `t`. -/
def ticketWalk (v : Serving) : List (Fin 16) → Nat → Option (Fin 16)
  | [], _ => none
  | q :: qs, t => if t < (v.lq[q]).tickets.toNat then some q else ticketWalk v qs (t - (v.lq[q]).tickets.toNat)

/-- The queue to take from next, and the holding after the choice: the owner's visit is used, and the lottery may draw. -/
def Holding.chooseQueue (x : Holding) : Option (Fin 16 × Holding) :=
  let v := x.serving
  match sortBy (fun q => visitRank v.launchVisit.toNat v.launchLeft (v.lq[q]).pasid.toNat) v.contenders with
  | [] => none
  | q :: qs =>
    let o := (v.lq[q]).pasid
    let mine := (q :: qs).filter fun q => (v.lq[q]).pasid = o
    let top := mine.foldl (fun p q => Nat.max p (v.lq[q]).prio.toNat) 0
    let cs := mine.filter fun q => (v.lq[q]).prio.toNat = top
    let left := if v.launchVisit = o ∧ 0 < v.launchLeft then v.launchLeft else x.weight o
    let y := { x with serving := { v with launchVisit := o, launchLeft := left - 1 } }
    match cs with
    | [c] => some (c, y)
    | _ =>
      let seed := draw x.lseed
      let total := cs.foldl (fun n q => n + (v.lq[q]).tickets.toNat) 0
      (ticketWalk v cs (seed.toNat % total)).map fun c => (c, { y with lseed := seed })

/-! ## The launch record (02 R47, R443) -/

/-- The fields of a record's header that a launch uses. -/
structure LaunchRec where
  entry : Nat
  args : Vector Word 4
  argMask : Nat
  cls : BitVec 2
  col0 : Nat
  row0 : Nat
  width : Nat
  height : Nat
  part : Word
  global : Nat
  globalSize : Nat
  poolSize : Nat
  relocs : Nat
  routes : List (Nat × List Leg)
deriving DecidableEq, Repr

/-- The legs of a route's eight bytes: a count of zero ends the route (02 R43). -/
def legsOf : List Byte → List Leg
  | [] => []
  | b :: bs =>
    if b.toNat % 64 = 0 then []
    else ⟨match b.toNat / 64 with | 0 => .north | 1 => .east | 2 => .south | _ => .west, b.toNat % 64⟩ :: legsOf bs

def routeBytes (bs : List Byte) (i : Nat) : List Byte := (bs.drop (112 + 8 * i)).take 8

def parseRecord (bs : List Byte) : LaunchRec where
  entry := field bs 8 8
  args := Vector.ofFn fun i => word (field bs (16 + 8 * i.val) 8)
  argMask := field bs 50 1
  cls := BitVec.ofNat 2 (field bs 49 1)
  col0 := field bs 52 2
  row0 := field bs 54 2
  width := field bs 56 2
  height := field bs 58 2
  part := word (field bs 64 8)
  global := field bs 80 8
  globalSize := field bs 88 8
  poolSize := field bs 96 8
  relocs := field bs 104 4
  routes := (List.range 16).filterMap fun i => if field bs 6 2 / 2 ^ i % 2 = 1 then some (i, legsOf (routeBytes bs i)) else none

/-- A header breaks R443 in a holding of `dies` dies; the relocation entries are checked apart. A class byte of 4 to 255, to which
the rule gives no meaning, is refused like 3 (DESIGN CHOICE, log 103). -/
def recordBad (bs : List Byte) (dies : Nat) : Bool :=
  let r := parseRecord bs
  let code := field bs 72 8
  decide (field bs 0 4 ≠ 0x4F4A4C4A) || decide (field bs 4 2 ≠ 1) ||
  decide (field bs 51 1 ≠ 0) || decide (field bs 60 4 ≠ 0) || decide (field bs 108 4 ≠ 0) || decide (16 ≤ r.argMask) ||
  ((List.range 16).any fun i => decide (field bs 6 2 / 2 ^ i % 2 = 0) && (routeBytes bs i).any fun b => decide (b ≠ 0)) ||
  decide (field bs 48 1 = 0) || decide (32 < field bs 48 1) || decide (dies < field bs 48 1) || decide (3 ≤ field bs 49 1) ||
  decide (code % 4 ≠ 0) || decide (r.entry % 4 ≠ 0) || decide (code ≤ r.entry) || decide (r.global ≠ ceilDiv code 4096 * 4096) ||
  !partValid r.part || decide (Config.poolBytes - scratchBase r.part < r.poolSize) ||
  decide (r.width = 0) || decide (r.height = 0) || decide (20 * dies < r.col0 + r.width) || decide (24 < r.row0 + r.height)

def LaunchRec.imageSize (r : LaunchRec) : Nat := r.global + r.globalSize
def LaunchRec.poolPadded (r : LaunchRec) : Nat := ceilDiv r.poolSize 8 * 8

/-- A relocation entry breaks R443. -/
def LaunchRec.relocBad (r : LaunchRec) (off : Nat) : Bool := decide (off % 8 ≠ 0) || decide (r.imageSize < off + 8)

/-! ## The loader (02 R48) -/

/-- An access that the loader cannot make yet: its address, and whether it writes. -/
structure Miss where
  ea : Nat
  write : Bool
deriving DecidableEq, Repr

/-- Copies bytes upward until one has no translation; the bytes already written stand. -/
def State.loadBytes (s : State) (e : Fin 4) (pasid : BitVec 20) : (dst : Nat) → List Byte → State × Option Miss
  | _, [] => (s, none)
  | dst, b :: bs => match s.sysWrite e pasid (dst % 2 ^ 64) [b] with
    | some s' => s'.loadBytes e pasid (dst + 1) bs
    | none => (s, some ⟨dst % 2 ^ 64, true⟩)

/-- Applies the relocations in place, to poisoned bytes as they stand (log 134). -/
def State.relocate (s : State) (e : Fin 4) (pasid : BitVec 20) (base : Word) : List Nat → State × Option Miss
  | [] => (s, none)
  | off :: offs =>
    let a := (base.toNat + off) % 2 ^ 64
    match s.sysRead e pasid a 8 with
    | none => (s, some ⟨s.sysMiss e pasid false a 8, false⟩)
    | some bs => match s.sysWrite e pasid a (toBytes 8 ((ofBytes bs + base.toNat) % 2 ^ 64)) with
      | some s' => s'.relocate e pasid base offs
      | none => (s, some ⟨s.sysMiss e pasid true a 8, true⟩)

/-- Steps 1 and 2 of R48 with the image bytes of a record. -/
def State.loadImage (s : State) (e : Fin 4) (pasid : BitVec 20) (base : Word) (image : List Byte) (offs : List Nat) :
    State × Option Miss :=
  match s.loadBytes e pasid base.toNat image with
  | (s', none) => s'.relocate e pasid base offs
  | r => r

/-! ## Placing a launch's seeds (02 R42, 05 R105) -/

/-- The coordinates of a region in row-major order. -/
def LaunchRec.region (r : LaunchRec) : List Coord :=
  (List.range r.height).flatMap fun y => (List.range r.width).map fun x => ⟨r.col0 + x, r.row0 + y⟩

/-- The cores of a region that are not retired. -/
def State.regionCores (s : State) (h : HoldRef) (r : LaunchRec) : List Coord :=
  r.region.filter fun c => !s.retired (s.coreAt h c.hx c.hy)

/-- The slot that a concurrent launch reserves on a core (log 45). -/
def Core.reserveSlot (c : Core) (p : Word) : Option SlotId :=
  match (List.finRange 4).find? fun i => c.slotFreeUnder p i with
  | some i => some i
  | none => (List.finRange 4).find? fun i => decide (i.val < partSlots p) && c.slots[i].reserved.isNone

/-- The dispatcher accepts a launch's progress class (R105). -/
def State.classOk (s : State) (h : HoldRef) (r : LaunchRec) : Bool :=
  r.cls ≠ 2 || (s.regionCores h r).all fun c => ((s.core (s.coreAt h c.hx c.hy)).reserveSlot r.part).isSome

/-- The seed that a launch places on every core of its region. -/
def LaunchRec.seed (r : LaunchRec) (pasid : BitVec 20) (base : Word) (key : Nat) (c : CoreIdx) : Seed :=
  { pc := base + word r.entry
    args := Vector.ofFn fun i => if r.argMask / 2 ^ i.val % 2 = 1 then r.args[i] + base else r.args[i]
    cw := word (pasid.toNat * 2 ^ 44 + 0xFF * 2 ^ 32 + r.cls.toNat * 2 ^ 30)
    part := r.part, tag := some key, bound := some c }

/-- The record of an ill-formed seed that a die scheduler takes from a launch queue (05 R94). -/
def State.discardSeed (s : State) (h : HoldRef) (xy : Coord) (x : Seed) : State :=
  s.post h #v[causeWord 0 xy false false false false false false 0x41, x.pc, 0, 0, 0, 0, x.cw, s.time]

/-- Writes the pool data on the cores whose word equals the launch's (02 R48). -/
def State.seedPool (s : State) (h : HoldRef) (r : LaunchRec) (key : Nat) (c : CoreRef) : State :=
  if (s.core c).part = r.part then s.loadPool h c (some key) else s

/-- Places one seed in the ready queue of its die, bound to its core; one of a concurrent launch waits there for the common
start, with a slot reserved. A core that works under another word receives the pool data before this seed starts, whichever seed
makes it adopt the launch's word (02 R48); so does a core on which a guest stands, if it has its own pool back by then (12 R272). -/
def State.placeSeed (s : State) (h : HoldRef) (r : LaunchRec) (pasid : BitVec 20) (base : Word) (key : Nat) (xy : Coord) : State :=
  let c := s.coreAt h xy.hx xy.hy
  let x := { r.seed pasid base key c.idx with shipped := decide ((s.core c).part ≠ r.part) || (s.core c).saved.isSome }
  if illFormed x (s.hold h).dies then s.discardSeed h xy x
  else if r.cls ≠ 2 then (s.seedPool h r key c).pushReady c.die x
  else match (s.core c).reserveSlot r.part with
    | none => s
    | some i =>
      let s := s.seedPool h r key c
      let s := (s.setSlot ⟨c, i⟩ { s.slot ⟨c, i⟩ with reserved := some key }).pushReady c.die { x with waits := true }
      s.modServing h fun v => { v with launches := v.launches.map fun l => if l.key = key then { l with seeds := l.seeds ++ [xy] } else l }

/-- Every die's ready queue has room for the seeds of a launch (log 57). -/
def State.launchRoom (s : State) (h : HoldRef) (r : LaunchRec) : Bool :=
  (s.diesOf h).all fun d =>
    let n := ((s.regionCores h r).filter fun c => (s.coreAt h c.hx c.hy).die = d).length
    decide ((s.image d).ready.length + n ≤ Config.readySeeds)

/-! ## LAUNCH_TAKE (R371) -/

/-- The outstanding launches of a holding: their tags are freed when their completions are written (R373). -/
def Serving.outstanding (v : Serving) : Nat := v.launches.length + (v.waitingCq.filter fun c => c.kind = 1).length

/-- A launch completion (R374). -/
def State.launchDone (s : State) (h : HoldRef) (q : Fin 16) (tag : Word) (status : BitVec 8) (placed : Nat) : State :=
  s.complete h ⟨1, status, BitVec.ofNat 16 q.val, tag, word placed, s.time⟩

/-- A refusal with ENTRY-FAULT also sets fault in the queue's control. -/
def State.entryFault (s : State) (h : HoldRef) (q : Fin 16) (tag : Word) : State :=
  (s.modServing h fun v => { v with lq := vset v.lq q { v.lq[q] with fault := true } }).launchDone h q tag 3 0

/-- Steps 4 and 5 with a loaded launch. -/
def State.placeLaunch (s : State) (h : HoldRef) (q : Fin 16) (pasid : BitVec 20) (bs : List Byte) (base : Word) (r : LaunchRec)
    (poolData : List Byte) : State :=
  let tag := word (field bs 16 8)
  if !s.classOk h r then s.launchDone h q tag 1 0
  else
    let cs := s.regionCores h r
    let l : Launch :=
      { key := s.nextId, etag := tag, queue := q, shape := Vector.ofFn fun i => word (field bs (32 + 8 * i.val) 8), cls := r.cls
        part := r.part, routes := r.routes, poolData := poolData, placed := cs.length, seeds := [] }
    let s := { s.modServing h fun v => { v with launches := v.launches ++ [l] } with nextId := s.nextId + 1 }
    cs.foldl (fun s c => s.placeSeed h r pasid base l.key c) s

/-- The entry that was being loaded is done with. -/
def State.loaded (s : State) (h : HoldRef) : State := (s.dropLoader h).modServing h fun v => { v with loading := none }

/-- An access of the loader that the host's page table does not admit goes through the translation requests of holding die 0 (10
R221, R222; log 104): the loader waits, or the launch is refused where the request has failed or the page lies outside the
estate's memory. An address that is not canonical or lies in pool space is treated alike: the host is asked for its page (02 R48 and
10 R219 do not say; log 112). -/
def State.loaderMiss (s : State) (h : HoldRef) (l : Loading) (tag : Word) (m : Miss) : State :=
  let d := s.dieOf h 0
  let q : AtsReq := ⟨.loader h, l.pasid, page4k m.ea, !m.write, m.write, false, .asked⟩
  let fault := (s.loaded h).entryFault h l.queue tag
  match (s.die d).ats.find? fun r => r.who = q.who ∧ r.pasid = q.pasid ∧ r.page = q.page with
  | some r => match r.stage with
    | .failed _ => fault
    | _ => s
  | none => match s.iommuMap l.pasid m.ea with
    | some t => if (entryOf t).grants ⟨!m.write, m.write, false⟩ then fault else s.addReq d q
    | none => s.addReq d q

/-- Steps 2 to 5 for an entry that passed step 1. The record's bytes are all read before the first byte of the image is written
(DESIGN CHOICE, log 84). A load waits while the ready queues lack room for seeds that the dispatcher accepts. -/
def State.takeRecord (s : State) (h : HoldRef) (l : Loading) (bs : List Byte) : State :=
  let rec_ := field bs 0 8
  let base := word (field bs 8 8)
  let tag := word (field bs 16 8)
  let read := fun ea len => s.sysRead h.est l.pasid ea len
  let miss := fun ea len => s.loaderMiss h l tag ⟨s.sysMiss h.est l.pasid false ea len, false⟩
  match read rec_ 240 with
  | none => miss rec_ 240
  | some hd =>
    let r := parseRecord hd
    if recordBad hd (s.hold h).dies then (s.loaded h).launchDone h l.queue tag 2 0
    else match read (rec_ + 240) (8 * r.relocs) with
      | none => miss (rec_ + 240) (8 * r.relocs)
      | some rel =>
        let offs := (wordsOf r.relocs rel).map (·.toNat)
        if offs.any r.relocBad then (s.loaded h).launchDone h l.queue tag 2 0
        else if s.classOk h r && !s.launchRoom h r then s
        else if field bs 24 4 % 2 = 1 then (s.loaded h).placeLaunch h l.queue l.pasid bs base r []
        else
          let at_ := rec_ + 240 + 8 * r.relocs
          match read at_ (r.poolPadded + r.imageSize) with
          | none => miss at_ (r.poolPadded + r.imageSize)
          | some rest => match s.loadImage h.est l.pasid base (rest.drop r.poolPadded) offs with
            | (s', none) => (s'.loaded h).placeLaunch h l.queue l.pasid bs base r (rest.take r.poolSize)
            | (s', some m) => s'.loaderMiss h l tag m

/-- Goes on with the entry that has been taken, from its first step: what an earlier turn has read and written is read and written
again (log 104). -/
def State.loadEntry (s : State) (h : HoldRef) (l : Loading) : State :=
  match s.sysRead h.est l.pasid l.entry 64 with
  | none => s.loaderMiss h l 0 ⟨s.sysMiss h.est l.pasid false l.entry 64, false⟩
  | some bs =>
    if decide (2 ≤ field bs 24 4) || decide (field bs 28 4 ≠ 0) || decide (field bs 0 8 % 8 ≠ 0) || decide (field bs 8 8 % 4096 ≠ 0) then
      (s.loaded h).launchDone h l.queue (word (field bs 16 8)) 2 0
    else s.takeRecord h l bs

/-- Takes the entry at the head of a queue: HEAD advances. -/
def State.takeEntry (s : State) (h : HoldRef) (q : Fin 16) : State :=
  let x := (s.serving h).lq[q]
  let l : Loading := ⟨q, x.base.toNat + 64 * x.head.toNat, x.pasid⟩
  (s.modServing h fun v => { v with lq := vset v.lq q { x with head := x.next x.head }, loading := some l }).loadEntry h l

/-- Launch-queue taking is open. -/
def State.takingOpen (s : State) (h : HoldRef) : Bool :=
  let x := s.hold h
  x.state = .running && !x.closed && !s.paused h && decide (x.serving.outstanding < 64) && !x.serving.listFull

/-- LAUNCH_TAKE (R371): the entry that is being loaded goes on, or the next is taken. -/
def execLaunchTake (h : HoldRef) (s : State) : Host.Outcome State Fault Refusal :=
  .next (if !s.takingOpen h then s
    else match (s.serving h).loading, (s.hold h).chooseQueue with
      | some l, _ => s.loadEntry h l
      | none, some (q, x) => (s.setHold h x).takeEntry h q
      | none, none => s)

/-! ## LAUNCH_COMPLETE (R373) -/

/-- The trigger entry bears a tag outside IDLE. -/
def Trigger.bears (t : Trigger) (k : Nat) : Bool :=
  t.state ≠ .idle && (t.arm.tag = some k || (match t.held with | some a => a.tag = some k | none => false))

def Task.bears (t : Task) (k : Nat) : Bool := t.tag = some k || (match t.caller with | some c => c.tag = some k | none => false)

def Slot.bears (x : Slot) (k : Nat) : Bool :=
  (match x.task with | some t => t.bears k | none => false) || x.restore.any (fun y => y.tag = some k) || x.migrating.any fun y => y.tag = some k

def Core.bears (c : Core) (k : Nat) : Bool :=
  c.deque.any (fun x => x.tag = some k) || c.trig.any (fun p => p.2.bears k) || c.slots.toList.any fun x => x.bears k

def Image.bears (im : Image) (k : Nat) : Bool := im.ready.any (fun x => x.tag = some k) || im.cores.any fun p => p.2.bears k

/-- Something bears the tag of a launch: a seed, a task, an entry outside IDLE, a retirement. -/
def State.work (s : State) (h : HoldRef) (l : Launch) : Bool :=
  s.images.toList.any (fun im => im.bears l.key) || (s.hold h).images.any (fun im => im.bears l.key) ||
    (s.serving h).walker.any fun r => r.tag = some l.key

/-- A fence at system scope over the stores of a holding's tasks. -/
def State.fenceHold (s : State) (h : HoldRef) : State :=
  s.listedCores.foldl (fun s c => (List.finRange 4).foldl (fun s i => s.flushHold ⟨c, i⟩ h) s) s

/-- LAUNCH_COMPLETE: with no work left, a fence orders the accesses of the launch's tasks, and the launch is over. -/
def execLaunchComplete (h : HoldRef) (tag : Nat) (s : State) : Host.Outcome State Fault Refusal :=
  match (s.serving h).launches.find? fun l => l.key = tag with
  | none => .next s
  | some l =>
    if s.work h l || (s.serving h).listFull then .next s
    else .next (((s.fenceHold h).modServing h fun v => { v with launches := v.launches.filter fun x => x.key ≠ tag }).launchDone h l.queue l.etag 0 l.placed)

end Sys2Proof.Machine
end

