-- ==== Sys2Proof/Machine/Float.lean ====
section
/-! DEFINITION. Number formats, rounding and the order of sums: the arithmetic of 04. -/

namespace Sys2Proof.Machine

/-! ## Exact values -/

/-- An exact value: a NaN, an infinity, or a sign, a mantissa and a power of two. A zero has mantissa 0 and keeps its sign. -/
inductive FVal where
  | nan
  | inf (neg : Bool)
  | fin (neg : Bool) (m : Nat) (e : Int)
deriving DecidableEq, Repr

/-- The scalar floating-point formats (R68). -/
inductive Fmt where
  | fp32
  | bf16
  | fp16
  | e4m3
  | e5m2
  | e2m1
deriving DecidableEq, Repr

/-- Width of a code in bits. -/
def Fmt.width : Fmt → Nat
  | .fp32 => 32
  | .bf16 => 16
  | .fp16 => 16
  | .e4m3 => 8
  | .e5m2 => 8
  | .e2m1 => 4
/-- Width of the fraction. -/
def Fmt.frac : Fmt → Nat
  | .fp32 => 23
  | .bf16 => 7
  | .fp16 => 10
  | .e4m3 => 3
  | .e5m2 => 2
  | .e2m1 => 1
/-- Exponent bias. -/
def Fmt.bias : Fmt → Nat
  | .fp32 => 127
  | .bf16 => 127
  | .fp16 => 15
  | .e4m3 => 7
  | .e5m2 => 15
  | .e2m1 => 1
/-- Code of the largest finite value. -/
def Fmt.top : Fmt → Nat
  | .fp32 => 0x7F7FFFFF
  | .bf16 => 0x7F7F
  | .fp16 => 0x7BFF
  | .e4m3 => 0x7E
  | .e5m2 => 0x7B
  | .e2m1 => 0x7
/-- The NaN that the device writes (R69). E2M1 has none, and the device rounds nothing to it. -/
def Fmt.nan : Fmt → Nat
  | .fp32 => 0x7FC00000
  | .bf16 => 0x7FC0
  | .fp16 => 0x7E00
  | .e4m3 => 0x7F
  | .e5m2 => 0x7F
  | .e2m1 => 0
/-- Whether a format has infinities; their code follows that of the largest finite value. -/
def Fmt.hasInf : Fmt → Bool
  | .e4m3 => false
  | .e2m1 => false
  | _ => true
/-- Exponent of the subnormal spacing: 1 - bias - fraction width. -/
def Fmt.quantum (F : Fmt) : Int := 1 - (F.bias : Int) - F.frac

/-- Decode(c, F) (R68, R69). -/
def Fmt.decode (F : Fmt) (c : Nat) : FVal :=
  let neg := c.testBit (F.width - 1)
  let mag := c % 2 ^ (F.width - 1)
  if mag ≤ F.top then
    let e := mag / 2 ^ F.frac
    let f := mag % 2 ^ F.frac
    if e = 0 then .fin neg f F.quantum else .fin neg (2 ^ F.frac + f) (F.quantum + (e - 1 : Nat))
  else if F.hasInf && mag == F.top + 1 then .inf neg
  else .nan

/-- m / 2^d rounded to nearest, ties to even (R77). -/
def roundShift (m d : Nat) : Nat :=
  let q := m / 2 ^ d
  let r := m % 2 ^ d
  if 2 * r > 2 ^ d ∨ (2 * r = 2 ^ d ∧ q % 2 = 1) then q + 1 else q

/-- m × 2^e rounded to a multiple of 2^q, as that multiple's factor. -/
def roundAt (m : Nat) (e q : Int) : Nat := if q ≤ e then m * 2 ^ (e - q).toNat else roundShift m (q - e).toNat

/-- What becomes of an overflow (R77). -/
inductive Over where
  | inf
  | sat
deriving DecidableEq, Repr

/-- A code with its sign bit. -/
def Fmt.signed (F : Fmt) (neg : Bool) (mag : Nat) : Nat := if neg then 2 ^ (F.width - 1) + mag else mag

/-- The code of an infinity; E4M3 has none and takes its largest finite value (R79). -/
def Fmt.infCode (F : Fmt) (neg : Bool) : Nat := F.signed neg (if F.hasInf then F.top + 1 else F.top)

/-- Round(x, F, mode) (R77, R79): the code of the rounded value. -/
def Fmt.round (F : Fmt) (mode : Over) : FVal → Nat
  | .nan => F.nan
  | .inf neg => F.infCode neg
  | .fin neg m e =>
    if m = 0 then F.signed neg 0
    else
      let lead := (m.log2 : Int) + e
      let q := max (lead - F.frac) F.quantum
      let mag := (q - F.quantum).toNat * 2 ^ F.frac + roundAt m e q
      if mag ≤ F.top then F.signed neg mag
      else match mode with
        | .inf => F.infCode neg
        | .sat => F.signed neg F.top

/-- Convert(x, F) (R79): saturating, but for FP32, which no source format overflows. -/
def Fmt.convert (F : Fmt) (x : FVal) : Nat := F.round (if F = .fp32 then .inf else .sat) x

/-! ## Arithmetic on exact values -/

def FVal.isNan : FVal → Bool
  | .nan => true
  | _ => false
def FVal.isZero : FVal → Bool
  | .fin _ m _ => m == 0
  | _ => false
/-- The infinity's sign, where the value is one. -/
def FVal.infSign : FVal → Option Bool
  | .inf n => some n
  | _ => none
/-- The value is a zero with the sign set. -/
def FVal.isNegZero : FVal → Bool
  | .fin n m _ => n && m == 0
  | _ => false
def FVal.neg : FVal → FVal
  | .nan => .nan
  | .inf n => .inf (!n)
  | .fin n m e => .fin (!n) m e

/-- Prod(x, y) (R82). -/
def FVal.mul : FVal → FVal → FVal
  | .nan, _ => .nan
  | _, .nan => .nan
  | .inf a, .inf b => .inf (a ^^ b)
  | .inf a, .fin b m _ => if m = 0 then .nan else .inf (a ^^ b)
  | .fin a m _, .inf b => if m = 0 then .nan else .inf (a ^^ b)
  | .fin a m e, .fin b n f => .fin (a ^^ b) (m * n) (e + f)

/-- The exact sum of finite values as an integer multiple of 2^q, for a q that no exponent lies below. -/
def sumAt (q : Int) : List FVal → Int
  | [] => 0
  | .fin neg m e :: xs =>
    let v : Int := (m * 2 ^ (e - q).toNat : Nat)
    (if neg then -v else v) + sumAt q xs
  | _ :: xs => sumAt q xs

/-- The least exponent among finite values. -/
def minExp : List FVal → Int
  | [] => 0
  | .fin _ _ e :: xs => if xs.isEmpty then e else min e (minExp xs)
  | _ :: xs => minExp xs

/-- The exact sum of values, as BlockSum forms it (R82); IEEE addition of two is the same rule (R78). -/
def FVal.sum (xs : List FVal) : FVal :=
  if xs.any FVal.isNan then .nan
  else
    match xs.filterMap FVal.infSign with
    | n :: ns => if ns.all (· == n) then .inf n else .nan
    | [] =>
      let q := minExp xs
      let t := sumAt q xs
      if t = 0 then .fin (xs.all FVal.isNegZero) 0 0 else .fin (t < 0) t.natAbs q

/-- x < y, x = y and x > y of two values that are not NaN; zeros of either sign are equal. -/
def FVal.lt (x y : FVal) : Bool :=
  match x, y with
  | .nan, _ => false
  | _, .nan => false
  | .inf a, .inf b => a && !b
  | .inf a, .fin .. => a
  | .fin .., .inf b => !b
  | .fin a m e, .fin b n f =>
    let q := min e f
    decide (sumAt q [.fin a m e] < sumAt q [.fin b n f])
def FVal.eq (x y : FVal) : Bool := !x.isNan && !y.isNan && !x.lt y && !y.lt x
def FVal.le (x y : FVal) : Bool := x.lt y || x.eq y

/-! ## FP32 functions (R78) -/

def fval (x : W32) : FVal := Fmt.fp32.decode x.toNat
def round32 (v : FVal) : W32 := BitVec.ofNat 32 (Fmt.fp32.round .inf v)

/-- The canonical NaN of FP32 (R69). -/
def nan32 : W32 := 0x7FC00000

/-- Neg and Abs (R87): the sign bit flipped or cleared, NaN included. -/
def neg32 (x : W32) : W32 := x ^^^ 0x80000000
def abs32 (x : W32) : W32 := x &&& 0x7FFFFFFF
def isNan32 (x : W32) : Bool := (fval x).isNan

def add32 (a b : W32) : W32 := round32 (FVal.sum [fval a, fval b])
def sub32 (a b : W32) : W32 := round32 (FVal.sum [fval a, (fval b).neg])
def mul32 (a b : W32) : W32 := round32 ((fval a).mul (fval b))
def fma32 (a b c : W32) : W32 := round32 (FVal.sum [(fval a).mul (fval b), fval c])

/-- The quotient, to at least 28 bits with a sticky bit below them, so that rounding it is rounding the exact quotient. -/
def FVal.div : FVal → FVal → FVal
  | .nan, _ => .nan
  | _, .nan => .nan
  | .inf _, .inf _ => .nan
  | .inf a, .fin b _ _ => .inf (a ^^ b)
  | .fin a _ _, .inf b => .fin (a ^^ b) 0 0
  | .fin a m e, .fin b n f =>
    if n = 0 then (if m = 0 then .nan else .inf (a ^^ b))
    else
      let num := m * 2 ^ 52
      .fin (a ^^ b) (2 * (num / n) + (if num % n = 0 then 0 else 1)) (e - f - 53)

/-- The integer square root, bit by bit from bit `k`: the largest root above `r` whose square is at most `n`. -/
def isqrt (n : Nat) : (k r : Nat) → Nat
  | 0, r => r
  | k + 1, r =>
    let r' := r + 2 ^ k
    isqrt n k (if r' * r' ≤ n then r' else r)

/-- The square root, with a sticky bit below at least 28 bits. -/
def FVal.sqrt : FVal → FVal
  | .nan => .nan
  | .inf neg => if neg then .nan else .inf false
  | .fin neg m e =>
    if m = 0 then .fin neg 0 0
    else if neg then .nan
    else
      let odd := e % 2 ≠ 0
      let n := (if odd then 2 * m else m) * 2 ^ 56
      let e' := if odd then e - 1 else e
      let r := isqrt n 48 0
      .fin false (2 * r + (if r * r = n then 0 else 1)) (e' / 2 - 29)

def div32 (a b : W32) : W32 := round32 ((fval a).div (fval b))
def sqrt32 (a : W32) : W32 := round32 (fval a).sqrt

/-- ToS32 (R80). -/
def toS32 (x : W32) : W32 :=
  match fval x with
  | .nan => 0
  | .inf neg => if neg then 0x80000000 else 0x7FFFFFFF
  | .fin neg m e =>
    let k := roundAt m e 0
    if neg then (if k ≥ 2 ^ 31 then 0x80000000 else -(BitVec.ofNat 32 k))
    else if k ≥ 2 ^ 31 then 0x7FFFFFFF else BitVec.ofNat 32 k

/-- FromS32 (R80). -/
def fromS32 (k : W32) : W32 := round32 (.fin (k.toInt < 0) k.toInt.natAbs 0)

/-! ## Sums of the plough (R81, R82) -/

/-- Scale of a block of codes: none outside a block, a NaN, or a power of two. -/
inductive Scale where
  | one
  | nan
  | pow (e : Int)
deriving DecidableEq, Repr

/-- An E8M0 scale (R70). -/
def Scale.ofE8 (s : Nat) : Scale := if s = 0xFF then .nan else .pow ((s : Int) - 127)

/-- A value times a scale. -/
def Scale.apply (sc : Scale) (v : FVal) : FVal :=
  match sc with
  | .one => v
  | .nan => .nan
  | .pow k => match v with
    | .fin n m e => .fin n m (e + k)
    | w => w

/-- The plough's flush: FP16, E4M3 and E5M2 subnormals become zeros of their sign (R81). -/
def Fmt.flush (F : Fmt) (c : Nat) : FVal :=
  match F.decode c with
  | .fin n m e =>
    if (F = .fp16 ∨ F = .e4m3 ∨ F = .e5m2) ∧ m < 2 ^ F.frac then .fin n 0 e else .fin n m e
  | w => w

/-- BlockSum (R82). -/
def blockSum (acc : W32) (ps : List FVal) : W32 := round32 (FVal.sum (fval acc :: ps))

/-- BlockDot over blocks of element pairs already decoded, in ascending order (R82). -/
def blockDot (acc : W32) : List (List (FVal × FVal)) → W32
  | [] => acc
  | b :: bs => blockDot (blockSum acc (b.map fun (x, y) => x.mul y)) bs

/-! ## Gaussian elimination and damping (R85, R86) -/

/-- A matrix or a vector of FP32 codes by index, 0 where nothing was stored. -/
abbrev Mat := List (List W32)
def Mat.at (m : Mat) (i j : Nat) : W32 := (m.getD i []).getD j 0
def vecAt (v : List W32) (i : Nat) : W32 := v.getD i 0

/-- a ← FMA32(Neg(x t), y t, a) for the indices t in order. -/
def fmaDown (x y : Nat → W32) (a : W32) (ts : List Nat) : W32 := ts.foldl (fun a t => fma32 (neg32 (x t)) (y t) a) a

/-- The factors after some columns: the pivots, and the columns of W and L, each from its row j + 1 down. -/
structure Ldl where
  d : List W32
  w : Mat
  l : Mat
deriving DecidableEq, Repr

/-- The element in row i of column t of factors that list column t from row t + 1. -/
def colAt (cols : Mat) (i t : Nat) : W32 := Mat.at cols t (i - t - 1)

/-- One column of the factorisation; none where its pivot is singular. -/
def Ldl.column (lee : Mat) (de : Nat) (eps : W32) (f : Ldl) (j : Nat) : Option Ldl :=
  let ts := List.range j
  let d := fmaDown (colAt f.w j) (colAt f.l j) (lee.at j j) ts
  if isNan32 d || (fval d).le (fval eps) then none
  else
    let rows := (List.range (de - j - 1)).map (· + j + 1)
    let ws := rows.map fun i => fmaDown (colAt f.w i) (colAt f.l j) (lee.at j i) ts
    some { d := f.d ++ [d], w := f.w ++ [ws], l := f.l ++ [ws.map fun s => div32 s d] }

/-- The factorisation, or the index of the singular pivot. -/
def ldl (lee : Mat) (de : Nat) (eps : W32) : List Nat → Ldl → Nat ⊕ Ldl
  | [], f => .inr f
  | j :: js, f => match f.column lee de eps j with
    | none => .inl j
    | some f' => ldl lee de eps js f'

/-- Forward substitution of one right-hand side. -/
def forward (l : Mat) (de : Nat) (rhs : Nat → W32) : List W32 :=
  (List.range de).foldl (fun y i => y ++ [fmaDown (colAt l i) (vecAt y) (rhs i) (List.range i)]) []

/-- The result of an elimination: the upper triangle row by row, and the information vector. -/
structure Elim where
  lambda : Mat
  eta : List W32
deriving DecidableEq, Repr

/-- GaussElim (R85): the eliminated block, or the index of the singular pivot. Blocks are read through index functions. -/
def gaussElim (dk de : Nat) (lkk lke lee : Mat) (hk he : List W32) (eps : W32) : Nat ⊕ Elim :=
  match ldl lee de eps (List.range de) ⟨[], [], []⟩ with
  | .inl j => .inl j
  | .inr f =>
    let y := (List.range dk).map fun c => forward f.l de fun i => lke.at c i
    let z := forward f.l de (vecAt he)
    let u := y.map fun col => (List.range de).map fun i => div32 (vecAt col i) (vecAt f.d i)
    let is := List.range de
    .inr {
      lambda := (List.range dk).map fun p => (List.range (dk - p)).map fun k =>
        fmaDown (Mat.at u p) (Mat.at y (p + k)) (lkk.at p (p + k)) is
      eta := (List.range dk).map fun p => fmaDown (Mat.at u p) (vecAt z) (vecAt hk p) is }

/-- The damping numerator over 256 as an FP32 code, exact. -/
def dampFactor (kb : Nat) : W32 := round32 (.fin false kb (-8))

/-- Damp (R86) over the pairs of old and new fields: the fields and the residual. -/
def damp (kb : Nat) : List (W32 × W32) → W32 → List W32 × W32
  | [], res => ([], res)
  | (old, new) :: xs, res =>
    let o := fma32 (dampFactor kb) (sub32 old new) new
    let e := abs32 (sub32 o old)
    let res := if isNan32 e || isNan32 res then nan32 else if (fval res).lt (fval e) then e else res
    let (os, r) := damp kb xs res
    (o :: os, r)

end Sys2Proof.Machine
end

