-- ==== Sys2Proof/Machine/Vector.lean ====
section
/-! DEFINITION. Vector registers and the harrow (08). -/

namespace Sys2Proof.Machine

/-! ## Lanes and packed elements (R169) -/

/-- Lane `i`. -/
def lane (v : VReg) (i : Nat) : W32 := v.extractLsb' (32 * i) 32
/-- Element `j` of `n` bits. -/
def elemAt (n : Nat) (v : VReg) (j : Nat) : Nat := (v.extractLsb' (n * j) n).toNat
/-- The lanes of a register, in order. -/
def lanes (v : VReg) : List W32 := (List.range 8).map (lane v)
/-- Elements of `n` bits side by side, the first lowest; the bits above them are 0. -/
def packElems (n : Nat) : List Nat → Nat
  | [] => 0
  | x :: xs => x % 2 ^ n + 2 ^ n * packElems n xs
def ofElems (n : Nat) (xs : List Nat) : VReg := BitVec.ofNat 256 (packElems n xs)
def ofLanes (ls : List W32) : VReg := ofElems 32 (ls.map BitVec.toNat)
/-- A register built lane by lane. -/
def byLane (f : Nat → W32) : VReg := ofLanes ((List.range 8).map f)
def lanes1 (f : W32 → W32) (a : VReg) : VReg := byLane fun i => f (lane a i)
def lanes2 (f : W32 → W32 → W32) (a b : VReg) : VReg := byLane fun i => f (lane a i) (lane b i)
/-- A compare: a lane mask (R171, R183). -/
def mask2 (p : W32 → W32 → Bool) (a b : VReg) : VReg := lanes2 (fun x y => if p x y then 0xFFFFFFFF else 0) a b

/-- The value of a v register of a task. -/
def Task.vreg (t : Task) (x : Reg) : VReg := t.v[x.toNat]'x.isLt
/-- Writes a v register of the task in a slot. -/
def State.setV (s : State) (r : SlotRef) (x : Reg) (v : VReg) : State :=
  s.modTask r fun t => { t with v := t.v.set x.toNat v x.isLt }

/-- An instruction that writes a v register from v registers. -/
def vop (d : Reg) (f : Task → VReg) (s : State) : Host.Outcome State Fault Refusal :=
  runOp [] 0 (fun s r t _ => .done (s.setV r d (f t)) 0) s
def vop1 (f : VReg → VReg) (d a : Reg) (s : State) : Host.Outcome State Fault Refusal :=
  vop d (fun t => f (t.vreg a)) s
def vop2 (f : VReg → VReg → VReg) (d a b : Reg) (s : State) : Host.Outcome State Fault Refusal :=
  vop d (fun t => f (t.vreg a) (t.vreg b)) s
def vop3 (f : VReg → VReg → VReg → VReg) (d a b c : Reg) (s : State) : Host.Outcome State Fault Refusal :=
  vop d (fun t => f (t.vreg a) (t.vreg b) (t.vreg c)) s
/-- An instruction that writes a g register from v registers. -/
def vread (d : Reg) (f : Task → Word) (s : State) : Host.Outcome State Fault Refusal :=
  runOp [] d (fun s _ t _ => .done s (f t)) s

/-! ## Lane functions -/

/-- `vmin.f32` and `vmax.f32` (R180). -/
def minmax32 (pick : FVal → FVal → Bool) (negZero : Bool) (a b : W32) : W32 :=
  if isNan32 a || isNan32 b then nan32
  else if (fval a).isZero && (fval b).isZero && decide (a ≠ b) then (if negZero then 0x80000000 else 0)
  else if pick (fval a) (fval b) then a else b
def min32 : W32 → W32 → W32 := minmax32 FVal.le true
def max32 : W32 → W32 → W32 := minmax32 (fun x y => y.le x) false

/-- Scale(a, k) (R178); a rounding to zero keeps the sign of its operand (04 R77). -/
def scale32 (a k : W32) : W32 :=
  match fval a with
  | .nan => nan32
  | .inf _ => a
  | .fin n m e => if m = 0 then a else round32 (.fin n m (e + k.toInt))

/-- The sign operations of the lane forms write the canonical NaN (R178). -/
def signOp (f : W32 → W32) (a : W32) : W32 := if isNan32 a then nan32 else f a

/-- The code of -0. -/
def negZero32 : W32 := 0x80000000

/-- Greater(x, y) (R185): the order in which a NaN is above every number. -/
def greater (x y : FVal) : Bool := if y.isNan then false else if x.isNan then true else y.lt x

/-- The index of the largest lane, the lowest among equals (R185). -/
def maxLane (v : VReg) : Nat :=
  (List.range 8).foldl (fun best i => if greater (fval (lane v i)) (fval (lane v best)) then i else best) 0

/-- Combines the lanes of a register in lane order (R184). -/
def combine (f : W32 → W32 → W32) (v : VReg) : W32 := ((lanes v).drop 1).foldl f (lane v 0)

/-- clamp(x, lo, hi) of a signed lane, as its low bits (R188). -/
def clamp (lo hi : Int) (x : W32) : Nat := (BitVec.ofInt 32 (max lo (min hi x.toInt))).toNat

/-- The sixteen source lanes of a pack, narrowed to `n` bits (R188). -/
def packLanes (n : Nat) (lo hi : Int) (a b : VReg) : VReg := ofElems n ((lanes a ++ lanes b).map (clamp lo hi))

/-- Group `k` of eight elements of `n` bits, widened (R188). -/
def unpack (n : Nat) (signed : Bool) (k : BitVec 5) (a : VReg) : VReg :=
  byLane fun i =>
    let x := a.extractLsb' (n * (8 * k.toNat + i)) n
    if signed then x.signExtend 32 else x.setWidth 32

/-- Narrowing and widening conversions (R186). -/
def narrow (F : Fmt) (a : VReg) : VReg := ofElems F.width ((lanes a).map fun x => F.convert (fval x))
def widen (F : Fmt) (a : VReg) : VReg :=
  byLane fun i => BitVec.ofNat 32 (Fmt.fp32.convert (F.decode (elemAt F.width a i)))

/-- A 32-bit result zero-extended. -/
def zext32 (x : W32) : Word := x.setWidth 64

/-! ## Vector loads and stores (R175, R177) -/

/-- The first address of the second page that 32 bytes touch, where it lies above the first. -/
def secondPage (ea : Word) : Word := word (page4k (ea.toNat + 31))

/-- What a step of an access gives, with the information and the address that a report of its cause has. -/
def Got.except {α : Type} (g : Got α) (info addr : Word) : Except Eff α :=
  match g with
  | .ok x => .ok x
  | .wait r => .error (.wait [r])
  | .trap c => .error (.trap { cause := c, info := info, addr := addr })

/-- The locations of the bytes that 32 bytes touch, those of each page of global memory or all of them in one pool, or why the access
ends. Where EA is canonical and the last bytes lie at 2⁵⁶ or above, their page is asked for like any other (log 126). -/
def State.vecLocate (s : State) (r : SlotRef) (pasid : BitVec 20) (ea : Word) (n : Need) (info : Word) : Except Eff Loc :=
  if ea.toNat % 8 ≠ 0 then .error (.trap { cause := 0x11, info := info, addr := ea })
  else if inPoolSpace ea || inPoolSpace (ea + 31) then
    if inPoolSpace ea && inPoolSpace (ea + 31) then (s.locate r pasid ea 32 n).except info ea
    else .error (.trap { cause := 0x12, info := info, addr := ea })
  else
    let first := min 32 (page4k ea.toNat + 4096 - ea.toNat)
    if !canonical ea then .error (.trap { cause := 0x13, info := info, addr := ea })
    else if s.lockedAt r.core (.virt pasid) ea.toNat 32 then .error (.trap { cause := 0x30, info := info, addr := ea })
    else
      let who : Waiter := .slot r.core.idx r.slot
      match (s.translateRange r.core.die who pasid ea.toNat n first).except info ea with
      | .error e => .error e
      | .ok ks =>
        match (s.translateRange r.core.die who pasid ((ea.toNat + first) % 2 ^ 64) n (32 - first)).except info (secondPage ea) with
        | .error e => .error e
        | .ok ks' => .ok (.mem (ks ++ ks') pasid ea.toNat)

/-- The address of a vector load or store (R175): the offset is scaled by 8. -/
def vecAddr (base : Word) (i : BitVec 16) : Word := base + simm i * 8

/-- The four doublewords of 32 bytes (R176). -/
def Loc.doublewords (l : Loc) : List Loc := (List.range 4).map fun q => l.part (8 * q) 8

/-- A task for a vector load with a base: where the base is a port or furrow word, no part counts as read ahead, since the load pops the
word before it reads (06 R129). -/
def Task.ahead (t : Task) (base : Reg) : Task := if (chanOf base).isSome then { t with parts := [] } else t

/-- A part of a vector load that has been performed ahead, if it still lies where the load finds it. -/
def Task.early (t : Task) (q : Nat) (l : Loc) : Option (List Byte) :=
  match FMap.get none t.parts q with
  | some (l', bs) => if l' = l then some bs else none
  | none => none

/-- The bytes of a part of a vector load: those read ahead, or those that stand there. -/
def State.partBytes (s : State) (t : Task) (q : Nat) (l : Loc) : List Byte := (t.early q l).getD (s.readLoc l)

/-- The first part of a vector load that is yet to be read and poisoned (10 R227). -/
def State.badPart (s : State) (t : Task) (ls : List Loc) : Option Nat :=
  indexOf (fun (x : Loc × Nat) => (t.early x.2 x.1).isNone && s.poisoned x.1) ls.zipIdx

/-- The bytes of the parts of a vector load, in their order. -/
def State.allParts (s : State) (t : Task) (ls : List Loc) : List (List Byte) := ls.zipIdx.map fun (l, q) => s.partBytes t q l

/-- `ld.v` (R175): four doublewords, of which some may have been read ahead (R176). A poisoned byte is reported at EA, whichever of the
doublewords holds it (log 110). -/
def execLdV (d a : Reg) (i : BitVec 16) (s : State) : Host.Outcome State Fault Refusal :=
  let w := wordInfo (encRI 0x17 d a i)
  runOp [a] 0 (fun s r t vs =>
    let ea := vecAddr (vs.headD 0) i
    match s.vecLocate r (ownerOf t.cw) ea { read := true } w with
    | .error e => e
    | .ok l =>
      let t := t.ahead a
      s.loads r [l] fun s => match s.badPart t l.doublewords with
      | some _ => .trap { cause := 0x52, addr := ea }
      | none => .done (s.setV r d (BitVec.ofNat 256 (ofBytes (s.allParts t l.doublewords).flatten))) 0) s

/-- Buffers stores that stand at one place in program order. -/
def State.bufferAll (s : State) (r : SlotRef) (t : Task) : Bool → List (Loc × List Byte) → State
  | _, [] => s
  | mate, (l, bs) :: rest =>
    (s.buffer r { hold := s.taskHold r t, home := t.home, loc := l, bytes := bs, mate := mate }).bufferAll r t true rest

/-- The doublewords of a vector register, the lowest first. -/
def vecDoublewords (v : VReg) : List (List Byte) := (List.range 4).map fun q => ((toBytes 32 v.toNat).drop (8 * q)).take 8

/-- `st.v` (R175): four doublewords at one place in program order (R176). -/
def execStV (d a : Reg) (i : BitVec 16) (s : State) : Host.Outcome State Fault Refusal :=
  let w := wordInfo (encRI 0x1C d a i)
  runOp [a] 0 (fun s r t vs =>
    match s.vecLocate r (ownerOf t.cw) (vecAddr (vs.headD 0) i) { write := true } w with
    | .error e => e
    | .ok l => .done (s.bufferAll r t false (l.doublewords.zip (vecDoublewords (t.vreg d)))) 0) s

/-- The address of a lane of a gather or scatter (R177). -/
def laneAddr (base : Word) (offs : VReg) (i : Nat) : Word := base + (lane offs i).signExtend 64

/-- The addresses of the eight lanes. -/
def laneAddrs (base : Word) (offs : VReg) : List Word := (List.range 8).map (laneAddr base offs)

/-- Checks the lane addresses in lane order: the first lane that fails or waits decides (R177). -/
def State.lanesLocate (s : State) (r : SlotRef) (pasid : BitVec 20) (n : Need) (info : Word) : List Word → Except Eff (List Loc)
  | [] => .ok []
  | ea :: eas =>
    if ea.toNat % 4 ≠ 0 then .error (.trap { cause := 0x11, info := info, addr := ea })
    else match (s.locate r pasid ea 4 n).except info ea with
      | .error e => .error e
      | .ok l => (s.lanesLocate r pasid n info eas).map (l :: ·)

/-- `ldg.v` (R177): eight lanes, of which some may have been read ahead. -/
def execLdgV (d a b : Reg) (s : State) : Host.Outcome State Fault Refusal :=
  let w := wordInfo (encVR 0x3D d a b 0 0x28)
  runOp [a] 0 (fun s r t vs =>
    let eas := laneAddrs (vs.headD 0) (t.vreg b)
    match s.lanesLocate r (ownerOf t.cw) { read := true } w eas with
    | .error e => e
    | .ok ls =>
      let t := t.ahead a
      s.loads r ls fun s => match s.badPart t ls with
      | some q => .trap { cause := 0x52, addr := eas.getD q 0 }
      | none => .done (s.setV r d (ofElems 32 ((s.allParts t ls).map ofBytes))) 0) s

/-- `stg.v` (R177): eight lanes at one place in program order; of two lanes of one address the higher is final. -/
def execStgV (d a b : Reg) (s : State) : Host.Outcome State Fault Refusal :=
  let w := wordInfo (encVR 0x3D d a b 0 0x29)
  runOp [a] 0 (fun s r t vs =>
    match s.lanesLocate r (ownerOf t.cw) { write := true } w (laneAddrs (vs.headD 0) (t.vreg b)) with
    | .error e => e
    | .ok ls => .done (s.bufferAll r t false (ls.zip ((lanes (t.vreg d)).map fun x => toBytes 4 x.toNat))) 0) s

/-- The parts of the vector load that an instruction is, with its source field; none for another, or while its checks do not pass. A load
whose base is a port or furrow word is not performed before the word has been popped, which the load itself does (06 R129; log 24). -/
def State.loadParts (s : State) (r : SlotRef) (t : Task) (i : Instr) : Option (List Loc) :=
  let base := fun a => if (chanOf a).isSome then none else (readFields t (s.core r.core) [a]).map fun x => x.1.headD 0
  match i with
  | .ldV _ a o => (base a).bind fun v =>
    (s.vecLocate r (ownerOf t.cw) (vecAddr v o) { read := true } 0).toOption.map Loc.doublewords
  | .ldgV _ a b => (base a).bind fun v =>
    (s.lanesLocate r (ownerOf t.cw) { read := true } 0 (laneAddrs v (t.vreg b))).toOption
  | _ => none

/-- Performs part `q` of a vector load ahead of the others, after the slot's stores that touch it (11 R246). -/
def State.performPart (s : State) (r : SlotRef) (t : Task) (i : Instr) (q : Nat) : State :=
  match (s.loadParts r t i).bind fun ls => ls[q]? with
  | some l =>
    let s := s.flushFor r [l]
    if s.poisoned l then s else s.modTask r fun t => { t with parts := FMap.set t.parts q (some (l, s.readLoc l)) }
  | none => s

/-! ## Lane arithmetic (R178 to R183) -/

/-- `vadd.f32` (R178). -/
def execVaddF32 (d a b : Reg) (s : State) : Host.Outcome State Fault Refusal :=
  vop2 (lanes2 add32) d a b s

/-- `vadd.s32` (R179). -/
def execVaddS32 (d a b : Reg) (s : State) : Host.Outcome State Fault Refusal :=
  vop2 (lanes2 fun x y => x + y) d a b s

/-- `vsub.f32` (R178). -/
def execVsubF32 (d a b : Reg) (s : State) : Host.Outcome State Fault Refusal :=
  vop2 (lanes2 sub32) d a b s

/-- `vsub.s32` (R179). -/
def execVsubS32 (d a b : Reg) (s : State) : Host.Outcome State Fault Refusal :=
  vop2 (lanes2 fun x y => x - y) d a b s

/-- `vmul.f32` (R178). -/
def execVmulF32 (d a b : Reg) (s : State) : Host.Outcome State Fault Refusal :=
  vop2 (lanes2 mul32) d a b s

/-- `vmul.s32` (R179). -/
def execVmulS32 (d a b : Reg) (s : State) : Host.Outcome State Fault Refusal :=
  vop2 (lanes2 fun x y => x * y) d a b s

/-- `vfma.f32` (R178). -/
def execVfmaF32 (d a b c : Reg) (s : State) : Host.Outcome State Fault Refusal :=
  vop3 (fun x y z => byLane fun i => fma32 (lane x i) (lane y i) (lane z i)) d a b c s

/-- `vfnm.f32` (R178). -/
def execVfnmF32 (d a b c : Reg) (s : State) : Host.Outcome State Fault Refusal :=
  vop3 (fun x y z => byLane fun i => fma32 (neg32 (lane x i)) (lane y i) (lane z i)) d a b c s

/-- `vmin.f32` (R180). -/
def execVminF32 (d a b : Reg) (s : State) : Host.Outcome State Fault Refusal :=
  vop2 (lanes2 min32) d a b s

/-- `vmin.s32` (R179). -/
def execVminS32 (d a b : Reg) (s : State) : Host.Outcome State Fault Refusal :=
  vop2 (lanes2 fun x y => if x.slt y then x else y) d a b s

/-- `vmin.n32` (R179). -/
def execVminN32 (d a b : Reg) (s : State) : Host.Outcome State Fault Refusal :=
  vop2 (lanes2 fun x y => if x.ult y then x else y) d a b s

/-- `vmax.f32` (R180). -/
def execVmaxF32 (d a b : Reg) (s : State) : Host.Outcome State Fault Refusal :=
  vop2 (lanes2 max32) d a b s

/-- `vmax.s32` (R179). -/
def execVmaxS32 (d a b : Reg) (s : State) : Host.Outcome State Fault Refusal :=
  vop2 (lanes2 fun x y => if x.slt y then y else x) d a b s

/-- `vmax.n32` (R179). -/
def execVmaxN32 (d a b : Reg) (s : State) : Host.Outcome State Fault Refusal :=
  vop2 (lanes2 fun x y => if x.ult y then y else x) d a b s

/-- `vabs.f32` (R178). -/
def execVabsF32 (d a : Reg) (s : State) : Host.Outcome State Fault Refusal :=
  vop1 (lanes1 (signOp abs32)) d a s

/-- `vabs.s32` (R179). -/
def execVabsS32 (d a : Reg) (s : State) : Host.Outcome State Fault Refusal :=
  vop1 (lanes1 fun x => if x.msb then -x else x) d a s

/-- `vneg.f32` (R178). -/
def execVnegF32 (d a : Reg) (s : State) : Host.Outcome State Fault Refusal :=
  vop1 (lanes1 (signOp neg32)) d a s

/-- `vneg.s32` (R179). -/
def execVnegS32 (d a : Reg) (s : State) : Host.Outcome State Fault Refusal :=
  vop1 (lanes1 fun x => -x) d a s

/-- `vrcp.f32` (R178). -/
def execVrcpF32 (d a : Reg) (s : State) : Host.Outcome State Fault Refusal :=
  vop1 (lanes1 (div32 0x3F800000)) d a s

/-- `vrsq.f32` (R178). -/
def execVrsqF32 (d a : Reg) (s : State) : Host.Outcome State Fault Refusal :=
  vop1 (lanes1 fun x => div32 0x3F800000 (sqrt32 x)) d a s

/-- `vand` (R179). -/
def execVand (d a b : Reg) (s : State) : Host.Outcome State Fault Refusal :=
  vop2 (fun x y => x &&& y) d a b s

/-- `vor` (R179). -/
def execVor (d a b : Reg) (s : State) : Host.Outcome State Fault Refusal :=
  vop2 (fun x y => x ||| y) d a b s

/-- `vxor` (R179). -/
def execVxor (d a b : Reg) (s : State) : Host.Outcome State Fault Refusal :=
  vop2 (fun x y => x ^^^ y) d a b s

/-- `vsll` (R179). -/
def execVsll (d a b : Reg) (s : State) : Host.Outcome State Fault Refusal :=
  vop2 (lanes2 fun x y => x <<< (y.toNat % 32)) d a b s

/-- `vsrl` (R179). -/
def execVsrl (d a b : Reg) (s : State) : Host.Outcome State Fault Refusal :=
  vop2 (lanes2 fun x y => x >>> (y.toNat % 32)) d a b s

/-- `vsra` (R179). -/
def execVsra (d a b : Reg) (s : State) : Host.Outcome State Fault Refusal :=
  vop2 (lanes2 fun x y => x.sshiftRight (y.toNat % 32)) d a b s

/-- `vsel` (R181). -/
def execVsel (d a b c : Reg) (s : State) : Host.Outcome State Fault Refusal :=
  vop3 (fun x y m => (x &&& m) ||| (y &&& ~~~m)) d a b c s

/-- `vdot.f32` (R182). -/
def execVdotF32 (d a b : Reg) (s : State) : Host.Outcome State Fault Refusal :=
  vread d (fun t => zext32 (blockSum negZero32
    ((List.range 8).map fun i => (fval (lane (t.vreg a) i)).mul (fval (lane (t.vreg b) i))))) s

/-- `vscl.f32` (R178). -/
def execVsclF32 (d a b : Reg) (s : State) : Host.Outcome State Fault Refusal :=
  vop2 (lanes2 scale32) d a b s

/-- `vcmp.eq.f32` (R183). -/
def execVcmpEqF32 (d a b : Reg) (s : State) : Host.Outcome State Fault Refusal :=
  vop2 (mask2 fun x y => (fval x).eq (fval y)) d a b s

/-- `vcmp.ne.f32` (R183). -/
def execVcmpNeF32 (d a b : Reg) (s : State) : Host.Outcome State Fault Refusal :=
  vop2 (mask2 fun x y => !(fval x).eq (fval y)) d a b s

/-- `vcmp.lt.f32` (R183). -/
def execVcmpLtF32 (d a b : Reg) (s : State) : Host.Outcome State Fault Refusal :=
  vop2 (mask2 fun x y => (fval x).lt (fval y)) d a b s

/-- `vcmp.le.f32` (R183). -/
def execVcmpLeF32 (d a b : Reg) (s : State) : Host.Outcome State Fault Refusal :=
  vop2 (mask2 fun x y => (fval x).le (fval y)) d a b s

/-- `vcmp.eq.s32` (R183). -/
def execVcmpEqS32 (d a b : Reg) (s : State) : Host.Outcome State Fault Refusal :=
  vop2 (mask2 fun x y => x == y) d a b s

/-- `vcmp.ne.s32` (R183). -/
def execVcmpNeS32 (d a b : Reg) (s : State) : Host.Outcome State Fault Refusal :=
  vop2 (mask2 fun x y => x != y) d a b s

/-- `vcmp.lt.s32` (R183). -/
def execVcmpLtS32 (d a b : Reg) (s : State) : Host.Outcome State Fault Refusal :=
  vop2 (mask2 fun x y => x.slt y) d a b s

/-- `vcmp.le.s32` (R183). -/
def execVcmpLeS32 (d a b : Reg) (s : State) : Host.Outcome State Fault Refusal :=
  vop2 (mask2 fun x y => !y.slt x) d a b s

/-- `vcmp.lt.n32` (R183). -/
def execVcmpLtN32 (d a b : Reg) (s : State) : Host.Outcome State Fault Refusal :=
  vop2 (mask2 fun x y => x.ult y) d a b s

/-- `vcmp.le.n32` (R183). -/
def execVcmpLeN32 (d a b : Reg) (s : State) : Host.Outcome State Fault Refusal :=
  vop2 (mask2 fun x y => !y.ult x) d a b s

/-! ## Reductions (R184, R185) -/

/-- `vradd.f32` (R184). -/
def execVraddF32 (d a : Reg) (s : State) : Host.Outcome State Fault Refusal :=
  vread d (fun t => zext32 (blockSum negZero32 ((lanes (t.vreg a)).map fval))) s

/-- `vradd.s32` (R184). -/
def execVraddS32 (d a : Reg) (s : State) : Host.Outcome State Fault Refusal :=
  vread d (fun t => sext32 (combine (fun x y => x + y) (t.vreg a))) s

/-- `vrmax.f32` (R184). -/
def execVrmaxF32 (d a : Reg) (s : State) : Host.Outcome State Fault Refusal :=
  vread d (fun t => zext32 (combine max32 (t.vreg a))) s

/-- `vrmax.s32` (R184). -/
def execVrmaxS32 (d a : Reg) (s : State) : Host.Outcome State Fault Refusal :=
  vread d (fun t => sext32 (combine (fun x y => if x.slt y then y else x) (t.vreg a))) s

/-- `vrmin.f32` (R184). -/
def execVrminF32 (d a : Reg) (s : State) : Host.Outcome State Fault Refusal :=
  vread d (fun t => zext32 (combine min32 (t.vreg a))) s

/-- `vrmin.s32` (R184). -/
def execVrminS32 (d a : Reg) (s : State) : Host.Outcome State Fault Refusal :=
  vread d (fun t => sext32 (combine (fun x y => if x.slt y then x else y) (t.vreg a))) s

/-- `vrmaxi.f32` (R185). -/
def execVrmaxiF32 (d a : Reg) (s : State) : Host.Outcome State Fault Refusal :=
  vread d (fun t =>
    let k := maxLane (t.vreg a)
    let x := lane (t.vreg a) k
    place (if isNan32 x then nan32 else x).toNat 32 + word k) s

/-! ## Conversions, packs and unpacks (R186 to R188) -/

/-- `vcvt.f32.s32` (R187). -/
def execVcvtF32S32 (d a : Reg) (s : State) : Host.Outcome State Fault Refusal :=
  vop1 (lanes1 fromS32) d a s

/-- `vcvt.s32.f32` (R187). -/
def execVcvtS32F32 (d a : Reg) (s : State) : Host.Outcome State Fault Refusal :=
  vop1 (lanes1 toS32) d a s

/-- `vcvt.bf16.f32` (R186). -/
def execVcvtBf16F32 (d a : Reg) (s : State) : Host.Outcome State Fault Refusal :=
  vop1 (narrow .bf16) d a s

/-- `vcvt.f16.f32` (R186). -/
def execVcvtF16F32 (d a : Reg) (s : State) : Host.Outcome State Fault Refusal :=
  vop1 (narrow .fp16) d a s

/-- `vcvt.f32.bf16` (R186). -/
def execVcvtF32Bf16 (d a : Reg) (s : State) : Host.Outcome State Fault Refusal :=
  vop1 (widen .bf16) d a s

/-- `vcvt.f32.f16` (R186). -/
def execVcvtF32F16 (d a : Reg) (s : State) : Host.Outcome State Fault Refusal :=
  vop1 (widen .fp16) d a s

/-- `vcvt.e4m3.f32` (R186). -/
def execVcvtE4m3F32 (d a : Reg) (s : State) : Host.Outcome State Fault Refusal :=
  vop1 (narrow .e4m3) d a s

/-- `vcvt.e5m2.f32` (R186). -/
def execVcvtE5m2F32 (d a : Reg) (s : State) : Host.Outcome State Fault Refusal :=
  vop1 (narrow .e5m2) d a s

/-- `vcvt.f32.e4m3` (R186). -/
def execVcvtF32E4m3 (d a : Reg) (s : State) : Host.Outcome State Fault Refusal :=
  vop1 (widen .e4m3) d a s

/-- `vcvt.f32.e5m2` (R186). -/
def execVcvtF32E5m2 (d a : Reg) (s : State) : Host.Outcome State Fault Refusal :=
  vop1 (widen .e5m2) d a s

/-- `vpack.s16` (R188). -/
def execVpackS16 (d a b : Reg) (s : State) : Host.Outcome State Fault Refusal :=
  vop2 (packLanes 16 (-32768) 32767) d a b s

/-- `vpack.n16` (R188). -/
def execVpackN16 (d a b : Reg) (s : State) : Host.Outcome State Fault Refusal :=
  vop2 (packLanes 16 0 65535) d a b s

/-- `vpack.s8` (R188). -/
def execVpackS8 (d a b : Reg) (s : State) : Host.Outcome State Fault Refusal :=
  vop2 (packLanes 8 (-128) 127) d a b s

/-- `vpack.n8` (R188). -/
def execVpackN8 (d a b : Reg) (s : State) : Host.Outcome State Fault Refusal :=
  vop2 (packLanes 8 0 255) d a b s

/-- `vunpk.s16` (R188). -/
def execVunpkS16 (d a : Reg) (k : BitVec 5) (s : State) : Host.Outcome State Fault Refusal :=
  vop1 (unpack 16 true k) d a s

/-- `vunpk.n16` (R188). -/
def execVunpkN16 (d a : Reg) (k : BitVec 5) (s : State) : Host.Outcome State Fault Refusal :=
  vop1 (unpack 16 false k) d a s

/-- `vunpk.s8` (R188). -/
def execVunpkS8 (d a : Reg) (k : BitVec 5) (s : State) : Host.Outcome State Fault Refusal :=
  vop1 (unpack 8 true k) d a s

/-- `vunpk.n8` (R188). -/
def execVunpkN8 (d a : Reg) (k : BitVec 5) (s : State) : Host.Outcome State Fault Refusal :=
  vop1 (unpack 8 false k) d a s

/-! ## Lane movement (R189) -/

/-- `vbcast` (R189). -/
def execVbcast (d a : Reg) (s : State) : Host.Outcome State Fault Refusal :=
  runOp [a] 0 (fun s r _ vs => .done (s.setV r d (byLane fun _ => lo32 (vs.headD 0))) 0) s

/-- `vext` (R189). -/
def execVext (d a : Reg) (k : BitVec 5) (s : State) : Host.Outcome State Fault Refusal :=
  vread d (fun t => zext32 (lane (t.vreg a) k.toNat)) s

/-- `vins` (R189). -/
def execVins (d a : Reg) (k : BitVec 5) (s : State) : Host.Outcome State Fault Refusal :=
  runOp [a] 0 (fun s r t vs =>
    .done (s.setV r d (byLane fun i => if i = k.toNat then lo32 (vs.headD 0) else lane (t.vreg d) i)) 0) s

/-- `vperm` (R189). -/
def execVperm (d a b : Reg) (s : State) : Host.Outcome State Fault Refusal :=
  vop2 (fun x y => byLane fun i => lane x ((lane y i).toNat % 8)) d a b s

/-- `vrot` (R189). -/
def execVrot (d a : Reg) (k : BitVec 5) (s : State) : Host.Outcome State Fault Refusal :=
  vop1 (fun x => byLane fun i => lane x ((i + k.toNat) % 8)) d a s

/-- `vshfl` (R189). -/
def execVshfl (d a b : Reg) (s : State) : Host.Outcome State Fault Refusal :=
  vop2 (fun x y => byLane fun i => lane (if i % 2 = 0 then x else y) (i / 2)) d a b s

end Sys2Proof.Machine
end

