-- ==== Sys2Proof/Machine/Collectives.lean ====
section
/-! DEFINITION. Span links and collectives (20 R419 to R422): LINK_STATE_CHANGE, RING_ENABLE (18 R368), COLLECTIVE_TAKE,
COLLECTIVE_COMPLETE, COLLECTIVE_TIMEOUT and ABANDON_NOTICE. -/

namespace Sys2Proof.Machine

/-! ## Span links (R419) -/

/-- The state that a link takes: down while it is not enabled; in training with a peer that is not expected. -/
def SpanLink.settle (x : SpanLink) (up : LinkReport) : BitVec 2 :=
  if !x.en then 0
  else if up.state = 2 && x.expected ≠ 0 && x.expected ≠ up.peer then 1
  else up.state

/-- LINK_STATE_CHANGE (R419): a change of state sets the link event. -/
def execLinkStateChange (k : Fin 16) (up : LinkReport) (s : State) : Host.Outcome State Fault Refusal :=
  let x := s.links[k]
  let st := x.settle up
  if up.state = 3 then .next s
  else
    let y := { x with state := st, lanes := up.lanes, retries := up.retries, peer := up.peer, peerLink := up.peerLink }
    let s := { s with links := vset s.links k y }
    .next (if st = x.state then s else s.hostEvent 4)

/-! ## Completions of collectives -/

/-- The coordinates from which messages over span links come: beyond every grid. -/
def outside : Coord := ⟨1024, 0⟩

/-- The completion word of a descriptor: hx, hy and entry. -/
def State.sendCompletion (s : State) (h : HoldRef) (w : Word) (status : BitVec 8) : State :=
  let dest : Coord := ⟨bits w 15 0, bits w 31 16⟩
  let m : Msg :=
    { header := mkHeader ⟨dest.hx % 1024, dest.hy % 32⟩ (bits w 39 32) 1 3 1, payload := [status.setWidth 64], dec := 1 }
  if s.inGrid h dest.hx dest.hy then s.modHold h fun x => { x with net := x.net ++ [⟨outside, m, false⟩] }
  else s.postReturn h dest m

/-! ## Descriptors (R420) -/

/-- Bytes of an element. -/
def elemBytes (op : BitVec 8) : Nat := if op = 1 then 2 else 4

/-- The descriptor itself is refused: a reserved byte, op above 3, or a peer count outside 1 to 15. A broadcast moves FP32
elements (log 59). -/
def descBad (bs : List Byte) : Bool :=
  ((bs.drop 32).any fun b => decide (b ≠ 0)) || decide (3 < field bs 0 1) || decide (field bs 1 1 = 0) || decide (15 < field bs 1 1)

/-- A peer list is refused: a zero or repeated id, or bits [63:48] that are not zero. -/
def peersBad (ws : List Word) : Bool := (ws.any fun w => bits w 47 0 = 0 || bits w 63 48 ≠ 0) || !decide ws.Nodup

/-- Takes a descriptor that was read. -/
def State.takeDescriptor (s : State) (h : HoldRef) (bs : List Byte) : State :=
  let v := s.serving h
  let done := word (field bs 16 8)
  if descBad bs then s.sendCompletion h done 4
  else match s.sysRead h.est v.cr.pasid (field bs 24 8) (8 * field bs 1 1) with
    | none => s.sendCompletion h done 4
    | some ps =>
      let ws := wordsOf (field bs 1 1) ps
      if peersBad ws then s.sendCompletion h done 4
      else
        let c : Collective :=
          { id := s.nextId, op := BitVec.ofNat 8 (field bs 0 1), mask := BitVec.ofNat 16 (field bs 2 2), count := field bs 4 4
            buffer := word (field bs 8 8), completion := done, peers := ws.map fun w => w.setWidth 48, pasid := v.cr.pasid
            since := s.panelNs }
        { s.modServing h fun v => { v with collectives := v.collectives ++ [c] } with nextId := s.nextId + 1 }

/-- A translation failure of the ring or of its tail: the engine tries again when it next reads the tail. -/
def State.crFault (s : State) (h : HoldRef) : State :=
  s.modServing h fun v => { v with cr := { v.cr with fault := true, tail := v.cr.head } }

/-- Takes descriptors in ring order up to the tail that the engine has read, while fewer than 8 are in progress. -/
def State.takeDescriptors (s : State) (h : HoldRef) : Nat → State
  | 0 => s
  | n + 1 =>
    let v := s.serving h
    if v.cr.head = v.cr.tail || decide (8 ≤ v.collectives.length) then s
    else match s.sysRead h.est v.cr.pasid (v.cr.base.toNat + 64 * v.cr.head.toNat) 64 with
      | none => s.crFault h
      | some bs =>
        ((s.modServing h fun v => { v with cr := { v.cr with head := v.cr.next v.cr.head } }).takeDescriptor h bs).takeDescriptors h n

/-- The engine reads the tail. -/
def State.readTail (s : State) (h : HoldRef) : State :=
  let v := s.serving h
  match s.sysRead h.est v.cr.pasid v.crTaddr.toNat 8 with
  | none => s.crFault h
  | some bs => s.modServing h fun v => { v with cr := { v.cr with tail := v.cr.index (word (ofBytes bs)) } }

/-- COLLECTIVE_TAKE (R421): after a write to the tail's line the engine reads the tail; it takes descriptors up to the tail. -/
def execCollectiveTake (h : HoldRef) (s : State) : Host.Outcome State Fault Refusal :=
  let v := s.serving h
  .next (if !v.cr.en || (s.hold h).state = .resetting then s
    else
      let s := if s.rung.contains h then { s with rung := s.rung.erase h }.readTail h else s
      s.takeDescriptors h v.cr.size)

/-- RING_ENABLE (18 R368, R421): en goes from 0 to 1. For the completion ring the phase returns to 1, and waiting completions are
written; the collective engine reads the tail at once. -/
def execRingEnable (fn : Fin 64) (ring : RingId) (v : Word) (s : State) : Host.Outcome State Fault Refusal :=
  .next (s.vfWrite fn 0 fun h s =>
    if bit v 16 && !((s.serving h).ring ring).en then
      let s := s.writeControl h ring v
      match ring with
      | .completion => (s.modServing h fun x => { x with cqPhase := true, cqStuck := false }).cqFlush h
      | .collective => s.readTail h
      | _ => s
    else s)

/-! ## Combining (R420) -/

/-- The package's own id (R427). -/
def ownId : BitVec 48 := BitVec.ofNat 48 (ofBytes ((Config.sm3 Config.publicKey).take 6))

/-- The buffers in ascending package-id order. -/
def ordered (own : List Byte) (bufs : List (BitVec 48 × List Byte)) : List (BitVec 48 × List Byte) :=
  sortBy (fun p => p.1.toNat) ((ownId, own) :: bufs)

/-- One element of the result: FP32 sums and maxima, or sums of BF16 elements in FP32, rounded at the end (log 59). -/
def combineElems (op : BitVec 8) (codes : List Nat) : Nat :=
  match codes with
  | [] => 0
  | c :: cs =>
    match op with
    | 0 => (cs.foldl (fun a c => add32 a (BitVec.ofNat 32 c)) (BitVec.ofNat 32 c)).toNat
    | 1 =>
      let wide := fun c => round32 (Fmt.bf16.decode c)
      Fmt.bf16.convert (fval (cs.foldl (fun a c => add32 a (wide c)) (wide c)))
    | _ => (cs.foldl (fun a c => max32 a (BitVec.ofNat 32 c)) (BitVec.ofNat 32 c)).toNat

/-- The combined buffer. -/
def Collective.result (c : Collective) (bufs : List (BitVec 48 × List Byte)) : List Byte :=
  if c.op = 3 then ((bufs[Config.broadcastRoot (bufs.map (·.1)) % bufs.length]?).map (·.2)).getD []
  else
    let w := elemBytes c.op
    (List.range c.count).flatMap fun i => toBytes w (combineElems c.op (bufs.map fun b => field b.2 (w * i) w))

def Collective.bytes (c : Collective) : Nat := elemBytes c.op * c.count

/-- Every link of a collective's mask is up (log 60). -/
def State.linksUp (s : State) (c : Collective) : Bool :=
  c.mask ≠ 0 && (List.finRange 16).all fun k => !c.mask.getLsbD k.val || (s.links[k]).state = 2

/-- A collective leaves the list, and its message is sent. -/
def State.endCollective (s : State) (h : HoldRef) (n : Nat) (c : Collective) (status : BitVec 8) : State :=
  (s.modServing h fun v => { v with collectives := removeAt v.collectives n }).sendCompletion h c.completion status

/-- A collective that has made no progress within COLL.TMO waits no longer (R422; log 88). -/
def State.expired (s : State) (c : Collective) : Bool := decide (c.since + 1000000 * s.collTmo.toNat ≤ s.panelNs)

/-- COLLECTIVE_COMPLETE (R420) with the peers' buffers, before the timeout. A buffer that fails its translation ends it with a free
status (log 61). Poisoned bytes of a buffer are combined without effect: 10 R227 names none for this engine (DESIGN CHOICE, log
105). -/
def execCollectiveComplete (h : HoldRef) (n : Nat) (bufs : List (BitVec 48 × List Byte)) (s : State) : Host.Outcome State Fault Refusal :=
  match (s.serving h).collectives[n]? with
  | none => .next s
  | some c =>
    if s.expired c then .next s
    else if !s.linksUp c then .next (s.endCollective h n c 3)
    else if !(c.peers.all fun p => bufs.any fun b => b.1 = p && b.2.length = c.bytes) then .next s
    else
      let mine := c.peers.filterMap fun p => bufs.find? fun b => b.1 = p
      let failed := { s.endCollective h n c ((Config.freeWord s.freshCount).setWidth 8) with freshCount := s.freshCount + 1 }
      match s.sysRead h.est c.pasid c.buffer.toNat c.bytes with
      | none => .next failed
      | some own => match s.sysWrite h.est c.pasid c.buffer.toNat (c.result (ordered own mine)) with
        | none => .next failed
        | some s' =>
          let s' := { s' with outbox := s'.outbox ++ c.peers.map fun p => Outbound.collective p own }
          .next (s'.endCollective h n c 0)

/-! ## Timeouts and abandon notices (R422) -/

/-- The lines of the buffer from byte `done` on are poisoned. -/
def State.poisonRest (s : State) (h : HoldRef) (c : Collective) (done : Nat) : State :=
  let ks := (List.range (c.bytes - done)).filterMap fun i => s.sysKey h.est c.pasid true ((c.buffer.toNat + done + i) % 2 ^ 64)
  { s with memPoison := NSet.insertAll s.memPoison (ks.map (· / 64)) }

/-- A collective ends early, its first `done` bytes finished with what the peers have sent: those hold the combined result, and the
rest is poisoned. Nothing is finished where a peer has sent less, or the buffer has no translation. -/
def State.cutShort (s : State) (h : HoldRef) (c : Collective) (done : Nat) (bufs : List (BitVec 48 × List Byte)) : State :=
  let part := { c with count := Nat.min c.count (done / elemBytes c.op) }
  let len := part.bytes
  let mine := c.peers.filterMap fun p => (bufs.find? fun b => b.1 = p && decide (len ≤ b.2.length)).map fun b => (b.1, b.2.take len)
  if mine.length < c.peers.length then s.poisonRest h c 0
  else match s.sysRead h.est c.pasid c.buffer.toNat len with
    | none => s.poisonRest h c 0
    | some own => match s.sysWrite h.est c.pasid c.buffer.toNat (part.result (ordered own mine)) with
      | none => s.poisonRest h c 0
      | some s' => s'.poisonRest h c len

/-- COLLECTIVE_TIMEOUT: no progress within COLL.TMO. -/
def execCollectiveTimeout (h : HoldRef) (n : Nat) (part : PartDone) (s : State) : Host.Outcome State Fault Refusal :=
  match (s.serving h).collectives[n]? with
  | none => .next s
  | some c => .next (if s.expired c then (s.cutShort h c part.count part.bufs).endCollective h n c 2 else s)

/-- ABANDON_NOTICE: a peer's holding was reset. -/
def execAbandonNotice (h : HoldRef) (n : Nat) (part : PartDone) (s : State) : Host.Outcome State Fault Refusal :=
  match (s.serving h).collectives[n]? with
  | none => .next s
  | some c => .next ((s.cutShort h c part.count part.bufs).endCollective h n c 1)

end Sys2Proof.Machine
end

