-- ==== Sys2Proof/Machine/Retire.lean ====
section
/-! DEFINITION. What becomes of a holding core's state when it is retired or ceases to be retired (21 R436 to R438, 16 R444,
15 R317). -/

namespace Sys2Proof.Machine

/-! ## Seeds under migration -/

/-- An image takes a seed back on the home core that it names: into the ready queue, or, while the queue lacks room, into the restore
place of the home slot (log 50). -/
def Image.takeHome (im : Image) (m : HomeRef) (x : Seed) : Image :=
  if im.ready.length < Config.readySeeds then { im with ready := im.ready ++ [x] }
  else
    let c := im.core m.core
    let sl := c.slots[m.slot]
    im.setCore m.core { c with slots := vset c.slots m.slot { sl with restore := sl.restore ++ [x] } }

/-- A migrating seed on a die returns to the ready queue of its home die, which its holding carries while it is OUT. -/
def State.sendHome (s : State) (x : Seed) : State :=
  match x.mig with
  | some m =>
    let h := m.home.hold
    if (s.hold h).placed then
      let d := s.dieOf h m.home.hdie
      s.setImage d ((s.image d).takeHome m.home x)
    else s.modHold h fun y => { y with
      images := y.images.zipIdx.map fun p => if p.2 = m.home.hdie then p.1.takeHome m.home x else p.1 }
  | none => s

/-- Takes the seeds under migration that satisfy `p` out of the slots of a die. -/
def State.takeMigrating (s : State) (d : DieId) (p : Seed → Bool) : State × List Seed :=
  (s.image d).cores.foldl (fun (a : State × List Seed) c => (List.finRange 4).foldl (fun (a : State × List Seed) i =>
    let r : SlotRef := ⟨⟨d, coreIdx c.1⟩, i⟩
    match (a.1.slot r).migrating with
    | some x => if p x then (a.1.setSlot r { a.1.slot r with migrating := none }, a.2 ++ [x]) else a
    | none => a) a) (s, [])

/-- A task of a retiring core is aborted with no record: a guest returns to its home, a message goes to its entry, a seed to
the deque. -/
def State.evict (s : State) (r : SlotRef) : State :=
  match s.task r with
  | none => s
  | some t =>
    if t.home.isSome then s.abort r false
    else
      let s := s.vacate r t
      match t.reported with
      | (.triggered e, m) => s.modTrigger r.core e fun x => { x with fire := m }
      | (.seeded sd, _) => s.pushDeque r.core sd

/-- The seed of a task that migrates from or to elsewhere, when its home core retires: the message of a triggered task goes to
its entry, a seed joins the deque. -/
def State.stayHome (s : State) (c : CoreRef) (x : Seed) : State :=
  match x.mig with
  | some ⟨_, _, some e, m⟩ => s.modTrigger c e fun t => { t with fire := m }
  | _ => s.pushDeque c x

/-- A seed under migration has its home on a core of a holding die. -/
def Seed.homeOn (x : Seed) (c : CoreIdx) (home : Nat × HoldRef) : Bool := match x.mig with
  | some m => decide (m.home.hold = home.2 ∧ m.home.hdie = home.1 ∧ m.home.core = c)
  | none => false

/-- The seeds in the restore place and under migration of a slot of a core of a holding die (none: of a die of no holding). A seed that a
guest of the core left there goes back to its own home. -/
def State.evictSeeds (s : State) (r : SlotRef) (home : Option (Nat × HoldRef)) : State :=
  let sl := s.slot r
  let s := s.setSlot r { sl with restore := [], migrating := none }
  let s := sl.restore.foldl (fun s x => s.pushDeque r.core x) s
  match sl.migrating with
  | some x => if home.any (x.homeOn r.core.idx) then s.stayHome r.core x else s.sendHome x
  | none => s

/-- Seeds of a die's ready queue, and under migration in its slots, that have the core as their home come home. -/
def State.recall (s : State) (c : CoreRef) (home : Nat × HoldRef) (d : DieId) : State :=
  let (back, rest) := (s.image d).ready.partition fun x => x.homeOn c.idx home
  let (s, late) := (s.setImage d { s.image d with ready := rest }).takeMigrating d fun x => x.homeOn c.idx home
  (back ++ late).foldl (fun s x => s.stayHome c x) s

/-- Every message of the core's entries is returned, entry by entry (R438, 13 R289). -/
def State.returnAll (s : State) (h : HoldRef) (xy : Coord) (c : CoreRef) : State :=
  ((s.core c).trig.flatMap fun (_, t) => t.fire.toList ++ t.pend).foldl (fun s m => s.postReturn h xy m) s

/-- Messages that wait for rings of the core are returned (07 R161). -/
def State.returnRings (s : State) (h : HoldRef) (xy : Coord) : State :=
  let waits := fun (p : Packet) => p.arrived && hdrRing p.msg.header && hdrHx p.msg.header = xy.hx && hdrHy p.msg.header = xy.hy
  let gone := (s.hold h).net.filter waits
  let s := s.modHold h fun x => { x with net := x.net.filter fun p => !waits p }
  gone.foldl (fun s p => s.postReturn h xy p.msg) s

/-- Moves seeds from a retired core's deque to the die's ready queue while it has room. -/
def State.drainDeque (s : State) (c : CoreRef) : State :=
  let n := Config.readySeeds - (s.image c.die).ready.length
  let xs := (s.core c).deque
  let s := s.setCore c { s.core c with deque := xs.drop n }
  s.setImage c.die { s.image c.die with ready := (s.image c.die).ready ++ xs.take n }

/-- The rings of a drill operation that has started, which it still reads and writes. -/
def Core.ringsInUse (c : Core) : List (BitVec 4) :=
  (c.drq.filter (·.started)).flatMap fun o => o.dring.toList ++ o.sring.toList

/-- The handles of a core that loses its work: uninitialised, but for the rings of operations that have started (log 102). -/
def Core.lostHandles (c : Core) : Vector Handle 16 :=
  Vector.ofFn fun k => if c.ringsInUse.contains (BitVec.ofNat 4 k.val) then c.handles[k] else {}

/-- The core's state after its work has left it: started engine operations stay, the pool is unreachable. -/
def Core.stripped (c : Core) : Core :=
  { c with
    slots := Vector.replicate 4 {}
    trig := []
    deque := c.deque.map Seed.freed
    fwIn := []
    portIn := Vector.replicate 4 []
    handles := c.lostHandles
    plq := c.plq.filter (·.started)
    drq := c.drq.filter (·.started) }

/-- The core of a holding that leaves a retired physical core for a live one: as at CREATE (R444), but for the seeds that still wait in
its deque for a place in the ready queue, since no seed is lost (R438, log 102). -/
def Core.renewed (c : Core) : Core := { deque := c.deque }

/-- A holding core is retired where it stands (R438): its stores are performed, its work leaves it, the seeds of concurrent launches
that wait for it are withdrawn (05 R105), and the barriers lose it (R317). -/
def State.retireHoldingCore (s : State) (h : HoldRef) (k : Nat) (c : CoreRef) : State :=
  let xy := coordOn k c.idx
  let s := (List.finRange 4).foldl (fun s i => (s.evict ⟨c, i⟩).evictSeeds ⟨c, i⟩ (some (k, h))) (s.flushCore c)
  let s := (List.finRange 32).foldl (fun s d => s.recall c (k, h) d) s
  let s := s.returnAll h xy c
  let s := s.returnRings h xy
  let s := s.modServing h fun v => { v with launches := v.launches.map fun l => { l with seeds := l.seeds.filter fun p => p ≠ xy } }
  let s := s.setImage c.die { s.image c.die with
    ready := ((s.image c.die).ready.filter fun x => !x.waitsFor c.idx).map fun x =>
      if x.bound = some c.idx then { x with bound := none } else x }
  let s := s.setCore c (s.core c).stripped
  (s.drainDeque c).leaveBarriers h c

/-- A physical core is recorded as retired (01 R16), and the holding core that stands there as standing on a retired one; a
retired core changes no more. -/
def State.markRetired (s : State) (c : CoreRef) : State :=
  let s := s.setDie c.die { s.die c.die with retired := NSet.insert (s.die c.die).retired c.idx.val }
  s.setImage c.die { s.image c.die with stood := NSet.insert (s.image c.die).stood c.idx.val }

/-- Retires a physical core (R436): on a fallow die only the die changes (R437). Where the supervisor's role passes to a core that is
parked already, the host is told nothing (log 130). -/
def State.retireCore (s : State) (c : CoreRef) : State :=
  if s.retired c then s
  else match s.holdAt c.die with
    | some (h, k) => (s.retireHoldingCore h k c).markRetired c
    | none => ((List.finRange 4).foldl (fun s i => (s.evict ⟨c, i⟩).evictSeeds ⟨c, i⟩ none) s).markRetired c

/-- The core that HLTH.CMD names (R436). -/
def hlthCore (v : Word) : CoreRef :=
  ⟨dieId (bits v 4 0), clusterCore ⟨bits v 10 5 % 60, Nat.mod_lt _ (by decide)⟩ (bits v 13 11)⟩

/-- A holding core that has moved from a live physical core to a retired one, or the other way round (R444): it is retired, or it
starts afresh. -/
def State.reachCore (s : State) (h : HoldRef) (k : Nat) (c : CoreRef) : State :=
  if s.retired c then s.retireHoldingCore h k c
  else
    let s := s.drainDeque c
    s.setCore c (s.core c).renewed

/-- A holding die has come to a die: each of its cores is compared with the physical core on which it stood before (R444). -/
def State.reachDie (s : State) (h : HoldRef) (k : Nat) (d : DieId) : State :=
  let was := (s.image d).stood
  let now := (s.die d).retired
  let s := ((List.range 480).filter fun i => was.contains i ≠ now.contains i).foldl (fun s i => s.reachCore h k ⟨d, coreIdx i⟩) s
  s.setImage d { s.image d with stood := now }

/-- The cores of a holding that has come to its dies. -/
def State.reach (s : State) (h : HoldRef) : State :=
  (List.range (s.hold h).dies).foldl (fun s k => s.reachDie h k (s.dieOf h k)) s

end Sys2Proof.Machine
end

