-- ==== Sys2Proof/Machine/HoldOps.lean ====
section
/-! DEFINITION. The holding commands of an estate as operations (19 R395 to R408), and the runs of the course (16 R331): the
steps that write HM.CMD and the resume of a headland share them. -/

namespace Sys2Proof.Machine

/-! ## Runs of the course (16 R331) -/

/-- The positions of a run of `n` dies. -/
def runPositions (len p n : Nat) : List Nat := (List.range n).map fun k => (p + k) % len

/-- A position of an estate is fallow. -/
def State.fallowAt (s : State) (e : Fin 4) (p : Nat) : Bool := (s.holdAt (dieAt s.mode e p)).isNone

/-- A run of `n` dies from position `p` is fallow. -/
def State.runFallow (s : State) (e : Fin 4) (p n : Nat) : Bool :=
  let len := courseLen s.mode e
  decide (n ≤ len) && (runPositions len p n).all (s.fallowAt e)

/-- The fallow run whose first position is lowest. -/
def State.findRun (s : State) (e : Fin 4) (n : Nat) : Option Nat := (List.range (courseLen s.mode e)).find? fun p => s.runFallow e p n

/-! ## Clearing dies -/

/-- The task of a guest that is halted leaves no mark on its target slot. -/
def State.dismiss (s : State) (r : SlotRef) : State := if (s.slot r).halted then s.clearMark r else s

/-- The slots in which tasks of a holding run or are halted as guests of dies that are not its own (12 R271). -/
def State.strangers (s : State) (h : HoldRef) : List SlotRef :=
  (s.listedCores.flatMap fun c => (List.finRange 4).map fun i => (⟨c, i⟩ : SlotRef)).filter fun r => match s.task r with
    | some t => t.home.isSome && decide (s.taskHold r t = h) && !(s.diesOf h).contains r.core.die
    | none => false

/-- A queued seed is a migrating one of the holding. -/
def Seed.migratesFor (x : Seed) (h : HoldRef) : Bool := match x.mig with
  | some m => decide (m.home.hold = h)
  | none => false

/-- What a holding has on dies that are not its own comes home: its guests leave their cores with no record (log 50), and its migrating
seeds return to the ready queues of their home dies (19 R402). -/
def State.gather (s : State) (h : HoldRef) : State :=
  let s := (s.strangers h).foldl (fun s r => (s.evict r).dismiss r) s
  (List.finRange 32).foldl (fun s d =>
    if (s.diesOf h).contains d then s
    else
      let (mine, rest) := (s.image d).ready.partition fun x => x.migratesFor h
      let (s, late) := (s.setImage d { s.image d with ready := rest }).takeMigrating d fun x => x.migratesFor h
      (mine ++ late).foldl State.sendHome s) s

/-- A die starts with a fresh image: its guests return to their homes first (log 50). -/
def State.clearDie (s : State) (d : DieId) : State :=
  let s := (s.image d).cores.foldl (fun s p => (List.finRange 4).foldl (fun s i => s.evict ⟨⟨d, coreIdx p.1⟩, i⟩) s) s
  let guests := (s.image d).ready.filter fun x => x.mig.isSome
  let (s, late) := s.takeMigrating d fun _ => true
  (guests ++ late).foldl State.sendHome (s.wipeDie d)

/-! ## Share groups (R398, R401) -/

/-- The members of a share group. -/
def State.groupOf (s : State) (e : Fin 4) (g : Fin 8) : List (Fin 8) :=
  (List.finRange 8).filter fun i => (s.hold ⟨e, i⟩).state ≠ .absent && (s.hold ⟨e, i⟩).group = g

/-- Names a group by its lowest index again. -/
def State.regroup (s : State) (e : Fin 4) (g : Fin 8) : State :=
  match s.groupOf e g with
  | [] => s
  | lo :: rest => (lo :: rest).foldl (fun s i => s.modHold ⟨e, i⟩ fun x => { x with group := lo }) s

/-! ## HM.STAT (R397) -/

/-- A write of HM.CMD is refused: a pending command is not affected. -/
def State.hmRefuse (s : State) (e : Fin 4) (status : Nat) : State :=
  s.setEstate e { s.estate e with hmStat := { (s.estate e).hmStat with status := BitVec.ofNat 8 status } }

/-- A command ends with a status; the estate stays busy while a pause holds an ESTATE-RESET. -/
def State.hmStatus (s : State) (e : Fin 4) (status : Nat) (detail : Nat) : State :=
  s.setEstate e { s.estate e with
    hmStat := ⟨BitVec.ofNat 8 status, (s.estate e).resetHeld, BitVec.ofNat 16 (saturate detail 65535)⟩, pending := none }

/-- A command waits. -/
def State.hmPend (s : State) (e : Fin 4) (c : Command) : State :=
  s.setEstate e { s.estate e with hmStat := { (s.estate e).hmStat with pending := true }, pending := some c }

/-! ## Fields of HM.ARG (R396) -/

def argVf (a : Word) : Nat := bits a 6 0
def argDies (a : Word) : Nat := bits a 13 8
def argW (a : Word) : Nat := bits a 20 16
def argReserved (a : Word) : Bool := bits a 63 40 ≠ 0 || bits a 31 28 ≠ 0 || bits a 23 21 ≠ 0 || bits a 15 14 ≠ 0 || bit a 7
/-- w from 1 to 11, or 31, is refused; 0 means 20. -/
def badW (w : Nat) : Bool := (decide (1 ≤ w) && decide (w ≤ 11)) || w = 31
def wOf (w : Nat) : Nat := if w = 0 then 20 else w

/-! ## CREATE, DESTROY, START, SET-WD (R399) -/

/-- A function is bound to a holding of the panel (R392). -/
def State.vfBound (s : State) (vf : Nat) : Bool := allHolds.any fun h => (s.hold h).state ≠ .absent && (s.hold h).vf.toNat = vf

/-- A holding as at CREATE: everything fresh but the registers of its index that keep their values (log 51). -/
def Holding.fresh (old : Holding) (a : Word) : Holding :=
  { weights := old.weights, vf := BitVec.ofNat 7 (argVf a), dies := argDies a, w := wOf (argW a), slice := BitVec.ofNat 8 (bits a 39 32) }

/-- CREATE on a run of the course. -/
def State.createRun (s : State) (h : HoldRef) (a : Word) (p : Nat) : State :=
  let ds := (runPositions (courseLen s.mode h.est) p (argDies a)).map (dieAt s.mode h.est)
  let s := ds.foldl State.clearDie s
  s.setHold h { (s.hold h).fresh a with state := .running, position := p, group := h.ix }

/-- An estate already holds 8 holdings (16 R331). -/
def State.fullEstate (s : State) (e : Fin 4) : Bool := (List.finRange 8).all fun i => (s.hold ⟨e, i⟩).state ≠ .absent

/-- CREATE (R399), after the checks of R396: NO-RUN in an estate that already holds 8 holdings (16 R331). -/
def State.create (s : State) (h : HoldRef) (a : Word) : State :=
  let e := h.est
  let w := s.hold ⟨e, ⟨bits a 26 24 % 8, Nat.mod_lt _ (by decide)⟩⟩
  if badW (argW a) || argDies a = 0 || decide (courseLen s.mode e < argDies a) || argVf a = 0 || decide (63 < argVf a) then s.hmStatus e 5 0
  else if s.fullEstate e then s.hmStatus e 2 0
  else if (s.hold h).state ≠ .absent || s.vfBound (argVf a) then s.hmStatus e 4 0
  else if bit a 27 then
    if w.state = .absent || w.dies ≠ argDies a then s.hmStatus e 5 0
    else
      (s.setHold h { (s.hold h).fresh a with
        state := .out, position := w.position, group := w.group, images := List.replicate (argDies a) {} }).regroup e w.group
        |>.hmStatus e 0 0
  else match s.findRun e (argDies a) with
    | none => s.hmStatus e 2 0
    | some p => (s.createRun h a p).hmStatus e 0 p

/-- Withdraws the work of a slot with no record; a guest's target core gets its own state back (12 R272). -/
def State.dropTask (s : State) (r : SlotRef) : State :=
  match s.task r with
  | some t => (s.vacate r t).dismiss r
  | none => s

/-- The slots whose tasks belong to a holding, wherever they run. -/
def State.slotsOf (s : State) (h : HoldRef) : List SlotRef :=
  (s.listedCores.flatMap fun c => (List.finRange 4).map fun i => (⟨c, i⟩ : SlotRef)).filter fun r => match s.task r with
    | some t => s.taskHold r t = h && ((s.holdAt r.core.die).isSome || t.home.isSome)
    | none => false

/-- A core without seeds: those of its deque, of its restore places and under migration are withdrawn. -/
def Core.seedless (c : Core) : Core :=
  { c with deque := [], slots := c.slots.map fun x => { x with restore := [], migrating := none } }

/-- An image without seeds. -/
def Image.seedless (im : Image) : Image := { im with ready := [], cores := im.cores.map fun (i, c) => (i, c.seedless) }

/-- The tasks and the seeds of a holding are withdrawn wherever they are, with no record (R406). -/
def State.withdraw (s : State) (h : HoldRef) : State :=
  let s := (s.slotsOf h).foldl State.dropTask s
  let s := (if (s.hold h).placed then s.diesOf h else []).foldl (fun s d => s.setImage d (s.image d).seedless) s
  let s := (List.finRange 32).foldl (fun s d =>
    (((s.setImage d { s.image d with ready := (s.image d).ready.filter fun x => !x.migratesFor h }).takeMigrating d fun x =>
      x.migratesFor h).1)) s
  s.modHold h fun x => { x with images := x.images.map Image.seedless }

/-- An index has asked no headland to wait: `deferred` of `hl.stat` takes its reset value (16 R347). -/
def State.undefer (s : State) (h : HoldRef) : State :=
  s.setEstate h.est { s.estate h.est with deferred := (s.estate h.est).deferred.filter (· ≠ h.ix) }

/-- DESTROY (R399): the dies become fallow, with the bytes of their pools (16 R331), and the function is unbound. Nothing of the holding stays on other dies. The registers of
the index keep their values (R403, R404). -/
def State.destroy (s : State) (h : HoldRef) : State :=
  let x := s.hold h
  if x.state = .stopped ∨ x.state = .out then
    let s := (s.withdraw h).undefer h
    let s := if x.placed then (s.diesOf h).foldl State.leaveDie s else s
    ((s.setHold h { weights := x.weights, lseed := x.lseed }).regroup h.est x.group).hmStatus h.est 0 0
  else s.hmStatus h.est 6 0

/-- Return marks clear on every core of a holding where dispatch opens (05 R99). -/
def State.reopen (s : State) (h : HoldRef) : State :=
  (s.diesOf h).foldl (fun s d => (s.image d).cores.foldl (fun s p => s.settle h ⟨d, coreIdx p.1⟩) s) s

/-- START (R399); an export of the holding becomes void (20 R423). -/
def State.startHolding (s : State) (h : HoldRef) : State :=
  if (s.hold h).state = .stopped then
    ((s.modHold h fun x => { x with state := .running, closed := false, exported := none }).reopen h).hmStatus h.est 0 0
  else s.hmStatus h.est 6 0

/-- SET-WD (R399). -/
def State.setWatchdog (s : State) (h : HoldRef) (a : Word) : State :=
  if badW (argW a) then s.hmStatus h.est 5 0
  else if (s.hold h).state = .absent then s.hmStatus h.est 3 0
  else (s.modHold h fun x => { x with w := wOf (argW a) }).hmStatus h.est 0 0

/-! ## Tasks and engine operations of a holding -/

/-- A task of the holding runs: it is neither halted nor gone. -/
def State.busy (s : State) (h : HoldRef) : Bool := (s.slotsOf h).any fun r => !(s.slot r).halted

/-- An operation on a core belongs to a holding. -/
def State.owns (s : State) (h : HoldRef) (c : CoreRef) (o : Origin) : Bool :=
  match o.home with
  | some x => x.hold = h
  | none => match s.holdAt c.die with | some (h', _) => h' = h | none => false

/-- Engine operations of the holding are outstanding. -/
def State.enginesBusy (s : State) (h : HoldRef) : Bool :=
  s.listedCores.any fun c => ((s.core c).plq.any fun o => s.owns h c o.origin) || (s.core c).drq.any fun o => s.owns h c o.origin

/-! ## STOP (R405) -/

/-- STOP begins: launch-queue taking and dispatch close. -/
def State.beginStop (s : State) (h : HoldRef) : State :=
  if (s.hold h).state = .running then
    (s.modHold h fun x => { x with closed := true }).hmPend h.est { op := 3, hold := h.ix, time := 0, begun := true }
  else s.hmStatus h.est 6 0

/-- The dirty-page report (R405): header and entries, as many as fit. -/
def dirtyReport (ps : List (Nat × Nat)) (room : Nat) : List Byte :=
  let n := Nat.min ps.length room
  bytesOf ([word n, ofBool (decide (room < ps.length))] ++ (ps.take n).flatMap fun p => [word p.1, word p.2])

/-- STOP completes once no task runs, no engine operation is outstanding and the walker is empty: every access of the holding is
performed before the report is written. While the host does not translate HM.DPR (`reach` = false) the report cannot be written, and
the command stays pending, since STOPPED is never seen before the report is complete (log 92). -/
def State.endStop (s : State) (h : HoldRef) (reach : Bool) : State :=
  let est := s.estate h.est
  if (s.hold h).state ≠ .running || s.busy h || s.enginesBusy h || !(s.serving h).walker.isEmpty || !reach then s
  else
    let s := (s.diesOf h).foldl State.flushDie s
    let ps := (s.hold h).written
    let room := bits est.hmDprLen 23 0
    let s := s.hostWriteMem est.hmDpr.toNat (dirtyReport ps room)
    (s.modHold h fun x => { x with state := .stopped, written := [] }).hmStatus h.est 0 (Nat.min ps.length room)

/-! ## RESET (R406) -/

/-- Cancels the engine operations of a core that have not started and whose origin satisfies `p`, and counts them. -/
def Core.cancelUnstarted (c : Core) (p : Origin → Bool) : Core × Nat :=
  let plq := c.plq.filter fun o => o.started || !p o.origin
  let drq := c.drq.filter fun o => o.started || !p o.origin
  ({ c with plq := plq, drq := drq }, (c.plq.length - plq.length) + (c.drq.length - drq.length))

/-- Cancels the engine operations of a holding on a core that have not started. One that has started and waits at a ring stays, and the
reset waits for it (log 144). -/
def State.cancelOps (s : State) (h : HoldRef) (c : CoreRef) : State :=
  let (k, n) := (s.core c).cancelUnstarted (s.owns h c)
  (s.setCore c k).modHold h fun x => { x with cancelled := x.cancelled + n }

/-- The operations in the image of a holding that is OUT which have not started; the image is cleared at the end. -/
def Holding.savedOps (x : Holding) : Nat :=
  (x.images.flatMap fun im => im.cores.map fun p => (p.2.cancelUnstarted fun _ => true).2).foldl (· + ·) 0

/-- Steps 1 and 2: the holding is RESETTING, its seeds, launches and tasks are withdrawn at once, and what its engines have not
started is cancelled. -/
def State.beginReset (s : State) (h : HoldRef) : State :=
  let s := (s.dropLoader h).modHold h fun x => { x with
    resetFrom := x.state, state := .resetting, cancelled := x.savedOps, exported := none, resetHeld := false
    serving := { x.serving with launches := [], loading := none } }
  let s := s.withdraw h
  (s.listedCores.foldl (fun s c => s.cancelOps h c) s).undefer h

/-- Step 3: each peer of a collective in progress receives an abandon notice. -/
def State.abandonAll (s : State) (h : HoldRef) : State :=
  let notes := (s.serving h).collectives.flatMap fun c => c.peers.map fun p => Outbound.abandon p c.id
  let s := s.modServing h fun v => { v with collectives := [] }
  { s with outbox := s.outbox ++ notes }

/-- Steps 4 and 5: packets are discarded, the holding is as at CREATE on the positions it holds, and the messages that waited
at its cores are posted as 0x4B records. What it wrote since its creation or its previous STOP is still to be reported (R405). -/
def State.endReset (s : State) (h : HoldRef) : State :=
  let s := s.abandonAll h
  let x := s.hold h
  let waiting := x.net.filter (·.arrived)
  let s := if x.placed then (s.diesOf h).foldl State.wipeDie s else s
  let y : Holding :=
    { state := x.resetFrom, vf := x.vf, dies := x.dies, position := x.position, w := x.w, slice := x.slice, group := x.group
      posNs := x.posNs, written := x.written, weights := x.weights, closed := x.closed, lastDies := x.lastDies
      images := if x.resetFrom = .out then List.replicate x.dies {} else [] }
  waiting.foldl (fun s p => s.postReturn h ⟨hdrHx p.msg.header, hdrHy p.msg.header⟩ p.msg) (s.setHold h y)

/-- A reset whose engine operations are complete ends. -/
def State.resetReady (s : State) (h : HoldRef) : Bool := (s.hold h).state = .resetting && !s.enginesBusy h

/-! ## ESTATE-RESET (R408) -/

/-- ESTATE-RESET begins: pending commands end with ABORTED, and every holding is withdrawn. -/
def State.beginEstateReset (s : State) (e : Fin 4) : State :=
  let st := if (s.estate e).pending.isSome then (7 : BitVec 8) else (s.estate e).hmStat.status
  let s := s.setEstate e { s.estate e with phase := .running, resetHeld := false, hmStat := { (s.estate e).hmStat with status := st } }
  let s := (List.finRange 8).foldl (fun s i =>
    if (s.hold ⟨e, i⟩).state = .absent ∨ (s.hold ⟨e, i⟩).state = .resetting then s else s.beginReset ⟨e, i⟩) s
  s.hmPend e { op := 9, hold := 0, time := 0, begun := true }

/-- The bytes of an estate's stacks among those given. -/
def State.lostBytes (s : State) (e : Fin 4) (lost : List (Nat × Byte)) : List (Nat × Byte) :=
  lost.filter fun p => (sites s.mode e).contains (p.1 / Config.stackBytes)

/-- The lines of the given bytes fit in the memory slices of an estate, 16 of 4 MiB for each die, each line in its home slice (01 R17,
R25, 10 R225). -/
def State.fitSlices (s : State) (e : Fin 4) (lost : List (Nat × Byte)) : Bool :=
  let lines := NSet.insertAll [] ((s.lostBytes e lost).map fun p => p.1 / 64)
  let home := fun l => Config.homeSlice s.mode.toNat l % (Config.dieSlices * courseLen s.mode e)
  lines.all fun l => decide (64 * (lines.filter fun m => home m = home l).length ≤ Config.sliceBytes)

/-- Slice lines that are lost: a byte of one of the estate's stacks takes the value that the stack holds (log 28). -/
def State.loseLines (s : State) (e : Fin 4) (lost : List (Nat × Byte)) : State :=
  let mine := s.lostBytes e lost
  { s with
    mem := Memory.writeAll s.mem mine
    memPoison := NSet.eraseAll s.memPoison (mine.map fun p => p.1 / 64) }

/-- ESTATE-RESET ends once every reset of its holdings may end: they become ABSENT and the sequencer restarts, out of any pause. It loses
no more lines than the estate's slices hold. -/
def State.endEstateReset (s : State) (e : Fin 4) (lost : List (Nat × Byte)) : State :=
  let hs := (List.finRange 8).map fun i => (⟨e, i⟩ : HoldRef)
  if (hs.any fun h => (s.hold h).state ≠ .absent && !s.resetReady h) || !s.fitSlices e lost then s
  else
    let s := hs.foldl (fun s h => if (s.hold h).state = .absent then s else
      (s.abandonAll h).setHold h { weights := (s.hold h).weights, lseed := (s.hold h).lseed }) s
    let ds := (course s.mode e).map dieId
    let s := ds.foldl (fun s d => (s.leaveDie d).setDie d { s.die d with tlb := [] }) s
    let s := s.loseLines e lost
    let est := s.estate e
    (s.setEstate e { est with phase := .running, due := s.panelNs + 1000 * est.interval.toNat, count := 0, deferred := [], asked := false }).hmStatus e 0 0

/-! ## Gang switches (R399, R400) -/

/-- SWITCH-OUT and SWITCH-IN wait for their moment. -/
def State.beginSwitch (s : State) (h : HoldRef) (op : Nat) (time : Nat) : State :=
  let x := s.hold h
  let ok := if op = 5 then x.state = .running else x.state = .out
  if !ok then s.hmStatus h.est 6 0
  else if op = 6 && !s.runFallow h.est x.position x.dies && (s.findRun h.est x.dies).isNone &&
      (s.groupOf h.est x.group).all (fun i => !(s.hold ⟨h.est, i⟩).placed) then s.hmStatus h.est 2 0
  else s.hmPend h.est { op := op, hold := h.ix, time := time, begun := true }

/-! ## Running a command -/

/-- Carries out the first step of a command, or all of it (R399). -/
def State.runCommand (s : State) (e : Fin 4) (c : Command) : State :=
  let h : HoldRef := ⟨e, c.hold⟩
  match c.op with
  | 1 => s.create h c.arg
  | 2 => s.destroy h
  | 3 => s.beginStop h
  | 4 => s.startHolding h
  | 5 => s.beginSwitch h 5 c.time
  | 6 => s.beginSwitch h 6 c.time
  | 7 => s.setWatchdog h c.arg
  | 8 => if (s.hold h).state = .absent then s.hmStatus e 3 0
    else (if (s.hold h).state = .resetting then s else s.beginReset h).hmPend e { op := 8, hold := c.hold, time := 0, begun := true }
  | 9 => s.beginEstateReset e
  | _ => s.hmStatus e 5 0

/-- Another command excludes a new one: a pending holding command or a transplant of the index, which ESTATE-RESET aborts and does
not name (R408), a change of partition mode, a harvest or restore of the estate. -/
def State.hmBusy (s : State) (h : HoldRef) (op : Nat) : Bool :=
  (op ≠ 9 && ((s.estate h.est).pending.isSome || (s.estate h.est).resetHeld || decide (s.transplant.target = some h))) || s.pmNext.isSome ||
    (s.harvest.stat.pending && (match s.harvest.cut with | some x => x.est = h.est | none => false))

/-- A headland pauses the estate (R343). -/
def Estate.inPause (x : Estate) : Bool :=
  match x.phase with
  | .running => false
  | .draining _ _ march _ _ => march
  | .moved _ march _ _ => march

/-- A pause holds an ESTATE-RESET (16 R343): the command that is pending goes on until then (R408). -/
def State.holdReset (s : State) (e : Fin 4) : State :=
  s.setEstate e { s.estate e with resetHeld := true, hmStat := { (s.estate e).hmStat with pending := true } }

/-- A write of HM.CMD (R395 to R397); its reserved bits read zero. It takes the value that is written also where the command is refused,
as HM.ARG keeps reserved bits that are set (log 122). -/
def State.hmWrite (s : State) (e : Fin 4) (v : Word) : State :=
  let est := s.estate e
  let h : HoldRef := ⟨e, ⟨bits v 10 8 % 8, Nat.mod_lt _ (by decide)⟩⟩
  let op := bits v 7 0
  let s := s.setEstate e { est with hmCmd := zext v 11 }
  let c : Command := { op := op, hold := h.ix, time := est.hmTime.toNat, arg := est.hmArg }
  if s.hmBusy h op then s.hmRefuse e 1
  else if bits v 63 11 ≠ 0 || argReserved est.hmArg || op = 0 || decide (9 < op) then
    if est.pending.isSome then s.hmRefuse e 5 else s.hmStatus e 5 0
  else if est.inPause && op = 9 then s.holdReset e
  else if est.inPause && op ≠ 5 && op ≠ 6 then s.hmPend e c
  else s.runCommand e c

end Sys2Proof.Machine
end

