-- ==== Sys2Proof/Machine/Plough.lean ====
section
/-! DEFINITION. The plough (09): operands, tiles, issue, start, arbitration, commit, and the plough instructions. -/

namespace Sys2Proof.Machine

/-! ## Formats of operands (04 R71 to R74, 09 R198, R204) -/

/-- The element-type code of a format record (04 R75). -/
def fmtCode (w : Word) : Nat := bits w 4 0
/-- The codes that a form accepts (R204). -/
def codeOk (blk : Bool) (c : Nat) : Bool :=
  if blk then c = 7 || c = 8 || (0x12 ≤ c && c ≤ 0x18) else decide (c ≤ 6)
/-- A code that the table of element types does not list (04 R74). -/
def reservedCode (c : Nat) : Bool := !codeOk false c && !codeOk true c
/-- The code that the issue checks use: one that the form does not accept stands for the longest rows (R215). -/
def issueCode (blk : Bool) (c : Nat) : Nat := if codeOk blk c then c else if blk then 0x18 else 0
/-- Scales are read (R201). -/
def isMx (c : Nat) : Bool := c = 5 || c = 6 || c = 7 || c = 8
/-- Blocks of 32 elements in a row of K. -/
def blocksOf (k : Nat) : Nat := ceilDiv k 32
/-- Bytes of one block of 32 elements. -/
def blockBytes (c : Nat) : Nat :=
  match c with
  | 0 => 128
  | 1 => 64
  | 2 => 64
  | 7 => 16
  | 3 => 32
  | 4 => 32
  | 5 => 32
  | 6 => 32
  | 8 => 32
  | n => 4 * (n - 0x10) + 1
/-- RowBytes (R198). -/
def rowBytes (c k : Nat) : Nat :=
  match c with
  | 0 => 4 * k
  | 1 => 2 * k
  | 2 => 2 * k
  | 3 => k
  | 4 => k
  | n => blockBytes n * blocksOf k

/-- The first `n` elements of a block (04 R71, R72, R81); none where a Tilfopen block has the reserved exponent (R73). -/
def blockVals (c n : Nat) (bs : List Byte) (scale : Nat) : Option (List FVal) :=
  let at_ := fun w i => field bs (w * i) w
  let plain := fun (F : Fmt) w => (List.range n).map fun i => F.flush (at_ w i)
  let sc := Scale.ofE8 scale
  match c with
  | 0 => some (plain .fp32 4)
  | 1 => some (plain .bf16 2)
  | 2 => some (plain .fp16 2)
  | 3 => some (plain .e4m3 1)
  | 4 => some (plain .e5m2 1)
  | 5 => some ((plain .e4m3 1).map sc.apply)
  | 6 => some ((plain .e5m2 1).map sc.apply)
  | 7 => some ((List.range n).map fun i => sc.apply (Fmt.e2m1.flush (at_ 1 (i / 2) / 16 ^ (i % 2) % 16)))
  | 8 => some ((List.range n).map fun i =>
      let k := (BitVec.ofNat 8 (at_ 1 i)).toInt
      sc.apply (.fin (k < 0) k.natAbs (-6)))
  | x =>
    let m := x - 0x10
    let e := at_ 1 (4 * m)
    if e = 0xFF then none
    else
      let packed := ofBytes (bs.take (4 * m))
      some ((List.range n).map fun i =>
        let k := (BitVec.ofNat m (packed / 2 ^ (m * i))).toInt
        .fin (k < 0) k.natAbs ((e : Int) - 127 - ((m : Int) - 2)))

/-- The elements of a row, block by block; the last block is cut at K (R198). -/
def rowVals (c k : Nat) (bs : List Byte) (scales : List Byte) : Option (List (List FVal)) :=
  (List.range (blocksOf k)).mapM fun j =>
    blockVals c (min 32 (k - 32 * j)) ((bs.drop (blockBytes c * j)).take (blockBytes c)) (field scales j 1)

/-! ## Operands in pools (R199, R201) -/

/-- Bits that a descriptor must leave 0. -/
def descRefused (d : Word) : Bool := bits d 63 61 ≠ 0 || bits d 23 21 ≠ 0
/-- RowAddr (R199): the pool-space offset of a row. -/
def rowAddr (d : Word) (r : Nat) : Nat :=
  bits d 20 0 + r / 32 * bits d 55 40 + r % 32 * bits d 39 24 + 4 * (bits d 60 56 * (r % 32) % 32)
/-- The pool-space offset of a row's scales (R201). -/
def scaleAddr (p : Word) (r : Nat) : Nat := bits p 20 0 + r * bits p 47 32

/-- Numbers from `lo` up to but not including `hi`. -/
def upto (lo hi : Nat) : List Nat := (List.range (hi - lo)).map (· + lo)

/-! ## Tiles (R202, R203, R216, R217) -/

/-- Columns of tiles. -/
def PlOp.tn (o : PlOp) : Nat := ceilDiv o.n 32
/-- The rows of the result that tile `t` holds. -/
def PlOp.tileRows (o : PlOp) (t : Nat) : List Nat :=
  if o.kind = .tile then (if o.ti < 0 then [] else upto (16 * o.ti.toNat) (min (16 * o.ti.toNat + 16) o.mtot))
  else upto (32 * (t / o.tn)) (min (32 * (t / o.tn) + 32) o.m)
/-- The columns of the result that tile `t` holds. -/
def PlOp.tileCols (o : PlOp) (t : Nat) : List Nat :=
  if o.kind = .tile then (if o.tj < 0 then [] else upto (16 * o.tj.toNat) (min (16 * o.tj.toNat + 16) o.ntot))
  else upto (32 * (t % o.tn)) (min (32 * (t % o.tn) + 32) o.n)
/-- The rows of operand A, or of operand B, that the operation reads (R215, R216). -/
def PlOp.rowsA (o : PlOp) : List Nat := if o.kind = .tile then o.tileRows 0 else List.range o.m
def PlOp.rowsB (o : PlOp) : List Nat := if o.kind = .tile then o.tileCols 0 else List.range o.n
/-- The operation multiplies, so that it samples the format records (R192). -/
def PlOp.multiplies (o : PlOp) : Bool := o.kind = .mma || o.kind = .mmt || o.kind = .tile
/-- Bytes of an element in the pool for `pl.ldacc` and `pl.stacc` (R217). -/
def PlOp.width (o : PlOp) : Nat := if o.kind = .stacc ∧ o.out ≠ 0 then 2 else 4

/-- The pool offset of element `i` of accumulator unit `u` (log 25). -/
def accOffset (u i : Nat) : Nat := 4096 * u + 4 * i

/-! ## Issue (R192, R199, R200, R202, R208, R215) -/

/-- A descriptor operand is refused, with the address of the row at fault. -/
def State.descCheck (s : State) (c : CoreRef) (d : Word) (rows : List Nat) (len : Nat) : Option Word :=
  if descRefused d then some 0
  else (rows.find? fun r => !s.rowOk c (rowAddr d r) len).map fun r => poolSpace + word (rowAddr d r)

/-- The entries of an operand and of its scales (R208). -/
def sideLocks (c : CoreRef) (side : PlSide) (code k : Nat) (scl : Word) (rows : List Nat) : List Lock :=
  (match side with
    | .desc d => poolLocks c false (rows.map fun r => (rowAddr d r, rowBytes code k))
    | .regs _ => []) ++
  (if isMx code then poolLocks c false (rows.map fun r => (scaleAddr scl r, blocksOf k)) else [])

/-- The entries that an operation needs. -/
def PlOp.needs (o : PlOp) (c : CoreRef) (regs : CoreRegs) : List Lock :=
  if o.tiles = 0 then []
  else if o.multiplies then
    sideLocks c o.a (issueCode o.blk (fmtCode regs.fmtA)) o.k regs.sclA o.rowsA ++
      sideLocks c o.b (issueCode o.blk (fmtCode regs.fmtB)) o.k regs.sclB o.rowsB
  else match o.kind, o.a with
    | .ldacc, .desc d => poolLocks c false ((List.range o.m).map fun r => (rowAddr d r, o.width * o.n))
    | .stacc, .desc d => poolLocks c true ((List.range o.m).map fun r => (rowAddr d r, o.width * o.n))
    | _, _ => []

/-- An operation leaves its queue, and the event-pending bit of its slot is set (R193). -/
def State.dropPl (s : State) (c : CoreRef) (o : PlOp) : State :=
  let s := s.setCore c { s.core c with plq := (s.core c).plq.filter fun x => x.origin.seq ≠ o.origin.seq }
  s.setEvent ⟨c, o.origin.slot⟩

/-- Cancels the operations of a slot that have not started (R207, R218). -/
def State.cancelPl (s : State) (c : CoreRef) (slot : SlotId) : State :=
  ((s.core c).plq.filter fun x => x.origin.slot = slot ∧ !x.started).foldl (fun s o => s.dropPl c o) s

/-- An operation fails (R207). -/
def State.failPl (s : State) (c : CoreRef) (o : PlOp) (tr : Trap) : State :=
  ((s.dropPl c o).cancelPl c o.origin.slot).engineFault c o.origin tr.cause tr.info tr.addr

/-- What a start samples (R192). -/
def PlOp.sample (o : PlOp) (regs : CoreRegs) : PlOp :=
  { o with started := true, fmtA := regs.fmtA, fmtB := regs.fmtB, sclA := regs.sclA, sclB := regs.sclB }

/-- A scale of a sampled operand breaks the placement rule (R201). -/
def State.scaleCheck (s : State) (c : CoreRef) (code k : Nat) (scl : Word) (rows : List Nat) : Option Word :=
  if isMx code then
    (rows.find? fun r => !s.rowOk c (scaleAddr scl r) (blocksOf k)).map fun r => poolSpace + word (scaleAddr scl r)
  else none

/-- A copied register group is shorter than the sampled formats need (R200). -/
def groupShort (side : PlSide) (code k rows : Nat) : Bool :=
  match side with
  | .regs bs => decide (bs.length < 32 * ceilDiv (rows * rowBytes code k) 32)
  | .desc _ => false

/-- A sampled record is ill-formed for an operation (04 R76, R204): its code is reserved, or is not accepted by the form. The forms that
do not multiply accept every code that is not reserved (log 113). -/
def PlOp.illRecord (o : PlOp) (c : Nat) : Bool := if o.multiplies then !codeOk o.blk c else reservedCode c

/-- Why a sampled operation cannot start (04 R76, R200, R201, R204): record A before record B, then the groups, then the
scales of what it reads; an operation with no tile reads nothing (R216). -/
def State.startCause (s : State) (c : CoreRef) (o : PlOp) : Option Trap :=
  let a := fmtCode o.fmtA
  let b := fmtCode o.fmtB
  if o.illRecord a then some { cause := 0x20, info := word a }
  else if o.illRecord b then some { cause := 0x20, info := word (b + 32) }
  else if !o.multiplies then none
  else if groupShort o.a a o.k o.m || groupShort o.b b o.k o.n then some { cause := 0x32, info := word o.next }
  else if o.tiles = 0 then none
  else match s.scaleCheck c a o.k o.sclA o.rowsA, s.scaleCheck c b o.k o.sclB o.rowsB with
    | some x, _ => some { cause := 0x32, info := word o.next, addr := x }
    | _, some x => some { cause := 0x32, info := word o.next, addr := x }
    | none, none => none

/-- Operations with no tiles start and complete at the head of their queue (R192, R193; log 38). -/
def State.settlePl : Nat → State → CoreRef → State
  | 0, s, _ => s
  | n + 1, s, c =>
    match (s.core c).plq with
    | o :: _ =>
      if o.tiles = 0 ∧ !s.suspended c ∧ !s.frozen c.die then
        match s.startCause c (o.sample (s.core c).regs) with
        | some tr => State.settlePl n (s.failPl c o tr) c
        | none => State.settlePl n (s.dropPl c o) c
      else s
    | [] => s

/-- Issues a checked operation: its entries, its queue place (R191, R208, 10 R231). -/
def State.issuePl (s : State) (r : SlotRef) (t : Task) (o : PlOp) : Eff :=
  let c := s.core r.core
  let locks := o.needs r.core c.regs
  if Config.lockEntries < locks.length then .trap { cause := 0x32 }
  else if Config.engineEntries ≤ c.plq.length then waitFor r .plough
  else if !c.lockRoom locks.length then .wait []
  else
    let o := { o with origin := t.origin r.slot s.nextId, locks := locks }
    let s := s.flushLocks r.core locks
    let s := { s.setCore r.core { s.core r.core with plq := (s.core r.core).plq ++ [o] } with nextId := s.nextId + 1 }
    .done (s.settlePl 4 r.core) 0

/-! ## Arbitration and start (R195) -/

/-- The operation that the plough would run for a core: its oldest, with a tile left, of a queue that is not suspended, not
kept from its start by an operation of the drill (10 R230). -/
def State.ready (s : State) (c : CoreRef) : Option PlOp :=
  match (s.core c).plq with
  | o :: _ =>
    let drill := (s.core c).drq.map fun d => (d.origin.seq, d.locks)
    if o.next < o.tiles ∧ !s.suspended c ∧ (o.started ∨ !blockedBy o.locks o.origin.seq drill) then some o
    else none
  | [] => none

/-- A core of a cluster by its index. -/
def inCluster (die : DieId) (cl : Fin 60) (q : Nat) : CoreRef := ⟨die, clusterCore cl q⟩

/-- NextTile (R195): the core, with the pointer and the credit after the grant. -/
def State.nextTile (s : State) (die : DieId) (cl : Fin 60) : Option (Nat × Nat) :=
  let x := s.cluster die cl
  let has := fun q => (s.ready (inCluster die cl q)).isSome
  if 0 < x.cr && has x.p.val then some (x.p.val, x.cr - 1)
  else (cyclic 8 (x.p.val + 1) has).map fun q => (q, bits (s.core (inCluster die cl q)).regs.plWt 3 0 - 1)

/-- Grants a tile; a start that fails counts as no grant, and the plough chooses again (R195). -/
def State.grantTile (die : DieId) (cl : Fin 60) : Nat → State → State
  | 0, s => s
  | n + 1, s =>
    match s.nextTile die cl with
    | none => s
    | some (q, cr) =>
      let c := inCluster die cl q
      match s.ready c with
      | none => s
      | some o =>
        let o' := if o.started then o else o.sample (s.core c).regs
        match (if o.started then none else s.startCause c o') with
        | some tr => State.grantTile die cl n ((s.failPl c o tr).settlePl 4 c)
        | none =>
          let plq := (s.core c).plq.map fun x => if x.origin.seq = o.origin.seq then o' else x
          let s := s.setCore c { s.core c with plq := plq }
          s.setCluster die cl { s.cluster die cl with p := ⟨q % 8, Nat.mod_lt _ (by decide)⟩, cr := cr, running := some ⟨q % 8, Nat.mod_lt _ (by decide)⟩ }

/-- PLOUGH_GRANT (R195, R192): an idle plough takes its next tile. -/
def execPloughGrant (die : DieId) (cl : Fin 60) (s : State) : Host.Outcome State Fault Refusal :=
  if (s.cluster die cl).running.isSome || s.frozen die then .next s else .next (s.grantTile die cl 17)

/-! ## Tiles (R203, R207, 10 R227) -/

/-- The bytes of an operand row, and the address of the first poisoned one. -/
def State.sideRow (s : State) (c : CoreRef) (side : PlSide) (len r : Nat) : List Byte × Option Word :=
  match side with
  | .desc d => (s.poolBytes c (rowAddr d r) len, s.poolPoison c (rowAddr d r) len)
  | .regs bs => ((bs.drop (r * len)).take len, none)

/-- The scales of an operand row. -/
def State.sideScales (s : State) (c : CoreRef) (code k : Nat) (scl : Word) (r : Nat) : List Byte × Option Word :=
  if isMx code then (s.poolBytes c (scaleAddr scl r) (blocksOf k), s.poolPoison c (scaleAddr scl r) (blocksOf k))
  else ([], none)

/-- An operand of a tile: its rows as blocks of values, or the cause (0x52 before 0x21, log 39). -/
def State.sideVals (s : State) (c : CoreRef) (side : PlSide) (code k : Nat) (scl : Word) (rows : List Nat) :
    Trap ⊕ List (List (List FVal)) :=
  let raw := rows.map fun r => (s.sideRow c side (rowBytes code k) r, s.sideScales c code k scl r)
  match raw.findSome? fun x => x.1.2.orElse fun _ => x.2.2 with
  | some a => .inl { cause := 0x52, addr := a }
  | none => match raw.mapM fun x => rowVals code k x.1.1 x.2.1 with
    | some vs => .inr vs
    | none => .inl { cause := 0x21 }

/-- The codes of a row of elements of a unit, or the address of a poisoned line. -/
def State.unitRow (s : State) (c : CoreRef) (u i cols : Nat) : List W32 :=
  let bs := Memory.read (s.core c).pool.bytes (accOffset u (32 * i)) (4 * cols)
  (List.range cols).map fun j => BitVec.ofNat 32 (field bs (4 * j) 4)
def State.unitPoison (s : State) (c : CoreRef) (u rows cols : Nat) : Option Word :=
  (List.range rows).findSome? fun i => s.poolPoison c (accOffset u (32 * i)) (4 * cols)

/-- The plough writes pool bytes for the task that issued an operation. -/
def State.plWrite (s : State) (home : Option HomeRef) (c : CoreRef) (off : Nat) (bs : List Byte) : State :=
  (s.noteGuest home (.pool c off bs.length)).writePool c off bs

/-- Writes rows of codes at pool offsets, all at once. -/
def State.commitRows (s : State) (home : Option HomeRef) (c : CoreRef) (rows : List (Nat × List Byte)) : State :=
  rows.foldl (fun s x => s.plWrite home c x.1 x.2) s

/-- Bytes of codes of `n` bytes each. -/
def codeBytes (n : Nat) (xs : List Nat) : List Byte := xs.flatMap (toBytes n)

/-- The rows of a multiplied tile (RunTile, R203), or its cause: operand A is judged before operand B, each by its poison and
then by its scales, and the accumulators last (log 39). -/
def State.mulTile (s : State) (c : CoreRef) (o : PlOp) : Trap ⊕ List (Nat × List Byte) :=
  let ms := o.tileRows o.next
  let ns := o.tileCols o.next
  let u := o.unit + o.next
  match s.sideVals c o.a (fmtCode o.fmtA) o.k o.sclA ms, s.sideVals c o.b (fmtCode o.fmtB) o.k o.sclB ns with
  | .inl tr, _ => .inl tr
  | _, .inl tr => .inl tr
  | .inr va, .inr vb =>
    match (if o.z then none else s.unitPoison c u ms.length ns.length) with
    | some a => .inl { cause := 0x52, addr := a }
    | none => .inr ((List.range ms.length).map fun i =>
        let accs := if o.z then List.replicate ns.length 0 else s.unitRow c u i ns.length
        let row := va.getD i []
        (accOffset u (32 * i), codeBytes 4 ((accs.zip vb).map fun (acc, col) => (blockDot acc ((row.zip col).map fun (x, y) => x.zip y)).toNat)))

/-- The rows of a unit that `pl.ldacc` loads. -/
def State.loadTile (s : State) (c : CoreRef) (o : PlOp) (d : Word) : Trap ⊕ List (Nat × List Byte) :=
  let ms := o.tileRows o.next
  let ns := o.tileCols o.next
  let at_ := fun m => rowAddr d m + 4 * ns.headD 0
  match ms.findSome? fun m => s.poolPoison c (at_ m) (4 * ns.length) with
  | some a => .inl { cause := 0x52, addr := a }
  | none => .inr ((List.range ms.length).map fun i =>
      (accOffset (o.unit + o.next) (32 * i), s.poolBytes c (at_ (ms.getD i 0)) (4 * ns.length)))

/-- An element as `pl.stacc` writes it (R217). -/
def outCode (out : BitVec 2) (x : W32) : Nat :=
  if out = 1 then Fmt.bf16.convert (fval x) else if out = 2 then Fmt.fp16.convert (fval x) else x.toNat

/-- Bytes written to a range of pool space. -/
def State.writePieces (s : State) (home : Option HomeRef) (c : CoreRef) (off : Nat) (bs : List Byte) : State :=
  (pieces c off bs.length).foldl (fun s p => s.plWrite home p.core p.off ((bs.drop (p.at_ - off)).take p.len)) s

/-- `pl.stacc` writes a tile to its pool, row by row: where rows overlap, the bytes of the higher row stand (log 133). -/
def State.storeTile (s : State) (c : CoreRef) (o : PlOp) (d : Word) : Trap ⊕ State :=
  let ms := o.tileRows o.next
  let ns := o.tileCols o.next
  let u := o.unit + o.next
  match s.unitPoison c u ms.length ns.length with
  | some a => .inl { cause := 0x52, addr := a }
  | none => .inr ((List.range ms.length).foldl (fun s' i =>
      s'.writePieces o.origin.home c (rowAddr d (ms.getD i 0) + o.width * ns.headD 0)
        (codeBytes o.width ((s.unitRow c u i ns.length).map (outCode o.out)))) s)

/-- Runs the next tile of an operation whole: its effect, or its cause. -/
def State.runTile (s : State) (c : CoreRef) (o : PlOp) : Trap ⊕ State :=
  match o.kind, o.a with
  | .zacc, _ => .inr (s.plWrite o.origin.home c (accOffset (o.unit + o.next) 0) (List.replicate 4096 0))
  | .ldacc, .desc d => (s.loadTile c o d).map id (s.commitRows o.origin.home c)
  | .stacc, .desc d => s.storeTile c o d
  | .mma, _ => (s.mulTile c o).map id (s.commitRows o.origin.home c)
  | .mmt, _ => (s.mulTile c o).map id (s.commitRows o.origin.home c)
  | .tile, _ => (s.mulTile c o).map id (s.commitRows o.origin.home c)
  | _, .regs _ => .inr s

/-- A tile of an operation ends: it is committed, or the operation fails with the tile index (R193, R203, R207). -/
def State.commitTile (s : State) (c : CoreRef) (o : PlOp) : State :=
  match s.runTile c o with
  | .inl tr => (s.failPl c o { tr with info := word o.next }).settlePl 4 c
  | .inr s' =>
    if o.next + 1 < o.tiles then
      s'.setCore c { s'.core c with
        plq := (s'.core c).plq.map fun x => if x.origin.seq = o.origin.seq then { x with next := x.next + 1 } else x }
    else (s'.dropPl c o).settlePl 4 c

/-- TILE_COMMIT (R203): the tile in progress ends. -/
def execTileCommit (die : DieId) (cl : Fin 60) (s : State) : Host.Outcome State Fault Refusal :=
  match (s.cluster die cl).running with
  | none => .next s
  | some q =>
    let c := inCluster die cl q.val
    let s := { s.setCluster die cl { s.cluster die cl with running := none } with freshCount := s.freshCount + 1 }
    match (s.core c).plq with
    | o :: _ => if o.started && o.next < o.tiles then .next (s.commitTile c o) else .next s
    | [] => .next s

/-! ## The instructions (R213 to R218) -/

/-- The accumulator units of a core (07 R148). -/
def State.units (s : State) (c : CoreRef) : Nat := partAcc (s.core c).part

/-- `pl.geo` (R214). -/
def execPlGeo (a : Reg) (sel : BitVec 2) (s : State) : Host.Outcome State Fault Refusal :=
  runOp [a] 0 (fun s r t vs =>
    let v := vs.headD 0
    let c := (s.core r.core).noteReg t.home (0x1000 + sel.toNat)
    let bad := if sel = 0 then decide (bits v 63 56 ≠ 0) else if sel = 1 then decide (bits v 63 6 ≠ 0) else false
    if bad then .trap { cause := 0x31 }
    else
      let regs := if sel = 0 then { c.regs with geo0 := v } else if sel = 1 then { c.regs with geo1 := v } else { c.regs with geo2 := v }
      .done (s.setCore r.core { c with regs := regs }) 0) s

/-- The captured shape and accumulator registers (R197). -/
def CoreRegs.shape (g : CoreRegs) (o : PlOp) : PlOp :=
  let m := bits g.geo0 15 0
  let n := bits g.geo0 31 16
  { o with m := m, n := n, k := bits g.geo0 55 32, unit := bits g.geo1 5 0, tiles := ceilDiv m 32 * ceilDiv n 32 }

/-- The bytes of a register group of `rows` rows (R200): none where the group is refused. -/
def Task.group (t : Task) (v : Reg) (len : Nat) : Option (List Byte) :=
  let n := ceilDiv len 32
  if 8 < n ∨ 31 < v.toNat + n - 1 then none
  else some ((List.range n).flatMap fun i => toBytes 32 ((t.v.toList.getD (v.toNat + i) 0).toNat))

/-- The checks of a matrix operation on its captured registers, then its operands (R215). -/
def State.matShape (s : State) (r : SlotRef) (kind : PlKind) (blk : Bool) (z : BitVec 1) (k : PlOp → Nat → Nat → Eff) : Eff :=
  let g := (s.core r.core).regs
  let o := g.shape { kind := kind, blk := blk, z := z = 1 }
  if o.m = 0 ∨ o.n = 0 ∨ o.k = 0 ∨ s.units r.core < o.unit + o.tiles then .trap { cause := 0x31 }
  else k o (rowBytes (issueCode blk (fmtCode g.fmtA)) o.k) (rowBytes (issueCode blk (fmtCode g.fmtB)) o.k)

/-- `pl.mma` and its block form. -/
def mma (blk : Bool) (a b : Reg) (z : BitVec 1) (s : State) : Host.Outcome State Fault Refusal :=
  runOp [] 0 (fun s r t _ =>
    s.matShape r .mma blk z fun o la lb =>
      match t.group a (o.m * la), t.group b (o.n * lb) with
      | some x, some y => s.issuePl r t { o with a := .regs x, b := .regs y }
      | _, _ => .trap { cause := 0x32 }) s

/-- `pl.mmt` and its block form. -/
def mmt (blk : Bool) (a b : Reg) (z : BitVec 1) (s : State) : Host.Outcome State Fault Refusal :=
  runOp [a, b] 0 (fun s r t vs =>
    let da := vs.headD 0
    let db := vs.getD 1 0
    s.matShape r .mmt blk z fun o la lb =>
      match s.descCheck r.core da o.rowsA la, s.descCheck r.core db o.rowsB lb with
      | some x, _ => .trap { cause := 0x32, addr := x }
      | _, some x => .trap { cause := 0x32, addr := x }
      | none, none => s.issuePl r t { o with a := .desc da, b := .desc db }) s

/-- `pl.tile` and its block form (R216): the tile of the issuing task's own coordinates. -/
def tileOp (blk : Bool) (a b : Reg) (z : BitVec 1) (s : State) : Host.Outcome State Fault Refusal :=
  runOp [a, b] 0 (fun s r t vs =>
    let g := (s.core r.core).regs
    let da := vs.headD 0
    let db := vs.getD 1 0
    let xy := s.taskCoord r t
    let o : PlOp := { kind := .tile, blk := blk, z := z = 1, k := bits g.geo0 55 32, unit := bits g.geo1 5 0, a := .desc da, b := .desc db,
                      mtot := bits g.geo2 15 0, ntot := bits g.geo2 31 16,
                      ti := (xy.hy : Int) - bits g.geo2 63 48, tj := (xy.hx : Int) - bits g.geo2 47 32 }
    let o := { o with tiles := if (o.tileRows 0).isEmpty || (o.tileCols 0).isEmpty then 0 else 1 }
    if o.k = 0 ∨ s.units r.core ≤ o.unit then .trap { cause := 0x31 }
    else if o.tiles = 0 then
      if descRefused da || descRefused db then .trap { cause := 0x32 } else s.issuePl r t o
    else match s.descCheck r.core da o.rowsA (rowBytes (issueCode blk (fmtCode g.fmtA)) o.k),
        s.descCheck r.core db o.rowsB (rowBytes (issueCode blk (fmtCode g.fmtB)) o.k) with
      | some x, _ => .trap { cause := 0x32, addr := x }
      | _, some x => .trap { cause := 0x32, addr := x }
      | none, none => s.issuePl r t o) s

/-- `pl.ldacc` and `pl.stacc` (R217). -/
def accMove (kind : PlKind) (out : BitVec 2) (a : Reg) (s : State) : Host.Outcome State Fault Refusal :=
  runOp [a] 0 (fun s r t vs =>
    let d := vs.headD 0
    let o := (s.core r.core).regs.shape { kind := kind, out := out, a := .desc d }
    if o.m = 0 ∨ o.n = 0 ∨ s.units r.core < o.unit + o.tiles then .trap { cause := 0x31 }
    else match s.descCheck r.core d (List.range o.m) (o.width * o.n) with
      | some x => .trap { cause := 0x32, addr := x }
      | none => s.issuePl r t o) s

/-- `pl.mma` (R215). -/
def execPlMma (a b : Reg) (z : BitVec 1) (s : State) : Host.Outcome State Fault Refusal := mma false a b z s

/-- `pl.mmt` (R215). -/
def execPlMmt (a b : Reg) (z : BitVec 1) (s : State) : Host.Outcome State Fault Refusal := mmt false a b z s

/-- `pl.tile` (R216). -/
def execPlTile (a b : Reg) (z : BitVec 1) (s : State) : Host.Outcome State Fault Refusal := tileOp false a b z s

/-- `pl.mma.blk` (R215, R205). -/
def execPlMmaBlk (a b : Reg) (z : BitVec 1) (s : State) : Host.Outcome State Fault Refusal :=
  onFull 1 s fun s => mma true a b z s

/-- `pl.mmt.blk` (R215, R205). -/
def execPlMmtBlk (a b : Reg) (z : BitVec 1) (s : State) : Host.Outcome State Fault Refusal :=
  onFull 1 s fun s => mmt true a b z s

/-- `pl.tile.blk` (R216, R205). -/
def execPlTileBlk (a b : Reg) (z : BitVec 1) (s : State) : Host.Outcome State Fault Refusal :=
  onFull 1 s fun s => tileOp true a b z s

/-- `pl.zacc` (R217). -/
def execPlZacc (a b : Reg) (s : State) : Host.Outcome State Fault Refusal :=
  runOp [a, b] 0 (fun s r t vs =>
    let u := (vs.headD 0).toNat
    let n := (vs.getD 1 0).toNat
    if s.units r.core < u + n then .trap { cause := 0x31 }
    else s.issuePl r t { kind := .zacc, unit := u, tiles := n }) s

/-- `pl.ldacc` (R217). -/
def execPlLdacc (a : Reg) (s : State) : Host.Outcome State Fault Refusal := accMove .ldacc 0 a s

/-- `pl.stacc` (R217). -/
def execPlStacc (a : Reg) (out : BitVec 2) (s : State) : Host.Outcome State Fault Refusal := accMove .stacc out a s

/-- Plough operations of a slot that are not complete. -/
def Core.plPending (c : Core) (i : SlotId) : Nat := (c.plq.filter fun o => o.origin.slot = i).length

/-- `pl.wait` (R218): an acquire (R209), and every load reads what has been performed (log 24). -/
def execPlWait (a : Reg) (s : State) : Host.Outcome State Fault Refusal :=
  runOp [a] 0 (fun s r _ vs =>
    if (s.core r.core).plPending r.slot ≤ (vs.headD 0).toNat then .done s 0 else waitFor r .plough) s

/-- `pl.flush` (R218): what has not started is cancelled at once; the started operation is waited for. -/
def execPlFlush (s : State) : Host.Outcome State Fault Refusal :=
  let s := if (s.task s.cur).isSome then (s.cancelPl s.cur.core s.cur.slot).settlePl 4 s.cur.core else s
  runOp [] 0 (fun s r _ _ => if (s.core r.core).plPending r.slot = 0 then .done s 0 else waitFor r .plough) s

end Sys2Proof.Machine
end

