-- ==== Sys2Proof/Machine/Headland.lean ====
section
/-! DEFINITION. Headlands, gang switches and changes of partition mode (16 R330 to R345, R444; 19 R400, R401, R410; 14 R305): DRAIN,
DRAIN_WATCHDOG, HEADLAND_MOVE, HEADLAND_RESUME, GANG_SWITCH and HL_CTL_WRITE. -/

namespace Sys2Proof.Machine

def holdRefs (e : Fin 4) : List HoldRef := (List.finRange 8).map fun i => ⟨e, i⟩

/-- The dies of an estate in course order. -/
def courseDies (mode : BitVec 3) (e : Fin 4) : List DieId := (course mode e).map dieId

/-! ## The tasks of a drain (R336) -/

/-- The slots of the listed cores. -/
def State.listedSlots (s : State) : List SlotRef :=
  s.listedCores.flatMap fun c => (List.finRange 4).map fun i => ⟨c, i⟩

/-- The unhalted tasks of the holdings of an estate that satisfy `p`. -/
def State.tasksWith (s : State) (e : Fin 4) (p : HoldRef → Task → Bool) : List SlotRef :=
  s.listedSlots.filter fun r => match s.task r with
    | some t => (s.taskHold r t).est = e && p (s.taskHold r t) t && !(s.slot r).halted
    | none => false

/-- The tasks that a drain waits for. -/
def State.pausedTasks (s : State) (e : Fin 4) : List SlotRef := s.tasksWith e fun h _ => s.paused h

/-- Aborts tasks with cause 0x46 (05 R109). -/
def State.abortDrained (s : State) (rs : List SlotRef) : State :=
  rs.foldl (fun s r => match s.task r with
    | some t => s.takeTrap r { cause := 0x46 } t.pc t.pc false
    | none => s) s

/-! ## Turns and switches (19 R400, R401) -/

/-- The next member of a group that is OUT, after index `i` in ascending cyclic order. -/
def State.nextOut (s : State) (e : Fin 4) (i : Fin 8) : Option (Fin 8) :=
  (cyclic 8 (i.val + 1) fun j => (s.hold ⟨e, ⟨j % 8, Nat.mod_lt _ (by decide)⟩⟩).state = .out &&
    (s.hold ⟨e, ⟨j % 8, Nat.mod_lt _ (by decide)⟩⟩).group = (s.hold ⟨e, i⟩).group).map fun j => ⟨j % 8, Nat.mod_lt _ (by decide)⟩

/-- A STOP of the holding is under way. -/
def State.stopping (s : State) (h : HoldRef) : Bool :=
  match (s.estate h.est).pending with
  | some c => decide (c.op = 3) && c.begun && decide (c.hold = h.ix)
  | none => false

/-- The occupant's turn is over at this headland; an occupant whose STOP goes on stays (log 52). -/
def State.turnOver (s : State) (h : HoldRef) : Bool :=
  let x := s.hold h
  x.state = .running && !s.stopping h && decide (Nat.max 1 x.slice.toNat ≤ x.stood + 1)

/-- The occupants that leave at this headland with the members that come. -/
def State.turns (s : State) (e : Fin 4) : List (Fin 8 × Fin 8) :=
  (List.finRange 8).filterMap fun i => if s.turnOver ⟨e, i⟩ then (s.nextOut e i).map fun j => (i, j) else none

/-- Adds an index once. -/
def withIndex (xs : List (Fin 8)) (i : Fin 8) : List (Fin 8) := if xs.contains i then xs else xs ++ [i]

/-- The indices that go out and come in at a headland whose drain begins: those whose turn is over, with the members that follow
them, and those of a gang switch that is under way. While a change of partition mode waits, every placed holding goes out. -/
def State.outsIns (s : State) (e : Fin 4) : List (Fin 8) × List (Fin 8) :=
  if (s.estate e).saving then ((List.finRange 8).filter fun i => (s.hold ⟨e, i⟩).placed, [])
  else
    let ts := s.turns e
    match (s.estate e).phase with
    | .draining _ _ _ outs ins => (outs.foldl withIndex (ts.map (·.1)), ins.foldl withIndex (ts.map (·.2)))
    | _ => (ts.map (·.1), ts.map (·.2))

/-- The switch command whose moment falls in a pause that goes on now merges with the headland (R400, 16 R343): the indices that
it sends out and brings in. While a change of partition mode waits, no switch acts (R410). -/
def State.switchNow (s : State) (e : Fin 4) : List (Fin 8) × List (Fin 8) :=
  match (s.estate e).pending with
  | some c =>
    if c.begun && decide (c.time ≤ s.panelNs) && s.pmNext.isNone then
      (if c.op = 5 then [c.hold] else [], if c.op = 6 then [c.hold] else [])
    else ([], [])
  | none => ([], [])

/-- A gang switch is under way. -/
def Phase.gang : Phase → Bool
  | .draining _ _ march _ _ => !march
  | _ => false

/-! ## DRAIN (R335) -/

/-- The tasks that asked the next headland to wait (R348). -/
def State.deferring (s : State) (e : Fin 4) : List SlotRef := s.tasksWith e fun _ t => t.deferring

/-- An ESTATE-RESET of the estate is under way. -/
def State.resettingEstate (s : State) (e : Fin 4) : Bool :=
  match (s.estate e).pending with
  | some c => c.op = 9 && c.begun
  | none => false

/-- The drain of the next headland may begin: the sequencer runs (21 R439), the due time has come, and no task defers it. A gang
switch that is under way becomes part of it. -/
def State.drainDue (s : State) (e : Fin 4) : Bool :=
  let est := s.estate e
  decide (6 ≤ s.bootStage.toNat) && e.val < estateCount s.mode && (est.phase = .running || est.phase.gang) &&
    decide (est.due ≤ s.panelNs) && ((s.deferring e).isEmpty || decide (est.due + Config.deferNs ≤ s.panelNs))

/-- Sets the event-pending bits of a core's slots and clears the marks of its tasks. -/
def Core.drained (c : Core) : Core :=
  { c with slots := c.slots.map fun sl => { sl with
      event := true
      task := sl.task.map fun t => { t with deferring := false, caller := t.caller.map fun k => { k with deferring := false } } } }

/-- The event bits of every slot of the given dies are set. -/
def State.markDies (s : State) (ds : List DieId) : State :=
  ds.foldl (fun s d => s.setImage d { s.image d with
    cores := (s.image d).cores.map fun (i, c) => (i, c.drained), events := true }) s

/-- The latest panel time that a region of an estate reads, kept while dispatch stops (14 R305). -/
def State.noteStop (s : State) (e : Fin 4) : State :=
  let read := fun (g : Region) => (g.count + g.toff).toNat
  let latest := (courseDies s.mode e).foldl (fun n d => max n (max (read (s.die d).north) (read (s.die d).south))) (s.estate e).stopTime
  s.setEstate e { s.estate e with stopTime := latest }

/-- The start of a drain: dispatch closes and the networks freeze, because the phase says so (`State.open`, DELIVER). -/
def State.beginDrain (s : State) (e : Fin 4) : State :=
  let est := s.estate e
  let (outs, ins) := s.outsIns e
  let post := if !est.asked then 0 else Nat.min (s.panelNs - est.due) Config.deferNs
  let s := (s.setEstate e { est with
    phase := .draining s.panelNs 0 true outs ins, deferred := [], asked := false, lastPost := BitVec.ofNat 16 post }).noteStop e
  let s := s.markDies (courseDies s.mode e)
  match s.harvest.cut with
  | some h => if h.est = e then { s with harvest := { s.harvest with armed := true } } else s
  | none => s

/-- DRAIN (R335). -/
def execDrain (e : Fin 4) (s : State) : Host.Outcome State Fault Refusal :=
  .next (if s.drainDue e then s.beginDrain e else s)

/-! ## DRAIN_WATCHDOG (R336, 19 R405) -/

/-- A STOP has drained for 16,384 cycles. -/
def State.stopOverrun (s : State) (e : Fin 4) : Option HoldRef :=
  match (s.estate e).pending with
  | some c => if c.op = 3 ∧ c.begun ∧ Config.drainCycles ≤ c.cycles then some ⟨e, c.hold⟩ else none
  | none => none

/-- DRAIN_WATCHDOG (R336): the tasks that still run after 16,384 cycles of a drain are aborted. -/
def execDrainWatchdog (e : Fin 4) (s : State) : Host.Outcome State Fault Refusal :=
  match (s.estate e).phase, s.stopOverrun e with
  | .draining _ n _ _ _, _ => .next (if Config.drainCycles ≤ n then s.abortDrained (s.pausedTasks e) else s)
  | .running, some h => .next (s.abortDrained (s.tasksWith e fun h' _ => h' = h))
  | _, _ => .next s

/-! ## The move (R337 to R339, R345) -/

/-- What becomes of a die's translation requests at a move (10 R224, R342): nobody waits any more; the reply of one that has been
sent will be discarded, and the answer to a page request will be cached. -/
def DieHw.forget (x : DieHw) : DieHw :=
  { x with ats := x.ats.zipIdx.filterMap fun (q, n) => match q.stage with
    | .failed _ => none
    | .paging .. => some { q with who := .gone }
    | _ => if x.outstanding n then some { q with who := .gone, stage := .stale } else none }

/-- A task under migration in a slot becomes a seed at the head of the ready queue of its home die (R344); while that lacks room, it stays
in the slot, with which it moves. -/
def State.landSeed (s : State) (r : SlotRef) : State :=
  match (s.slot r).migrating with
  | some x =>
    let d := match x.mig with
      | some m => if (s.hold m.home.hold).placed then s.dieOf m.home.hold m.home.hdie else r.core.die
      | none => r.core.die
    if s.readyRoom d then (s.setSlot r { s.slot r with migrating := none }).pushFront d x else s
  | none => s

/-- What the move finds on a die: every store is performed (R336); translation waits and the drill rows that wait for one (10
R224) are abandoned, and so is the tile in progress (09 R210); a task under migration stays as a seed in its home die's ready queue
(R344). -/
def State.quiet (s : State) (d : DieId) : State :=
  let s := s.flushDie d
  let s := s.setDie d (s.die d).forget
  let s := s.setImage d { s.image d with clusters := (s.image d).clusters.map fun k => { k with running := none } }
  (s.image d).cores.foldr (fun c s => (List.finRange 4).foldr (fun i s => s.landSeed ⟨⟨d, coreIdx c.1⟩, i⟩) s) s

/-- A holding's images move to its save area (19 R394). One that is being reset will be OUT after the reset (19 R406); a ticket of
it becomes void (20 R423). Its work on dies that are not its own comes home first, so that it waits in the image (19 R402). The pools of
the dies that it leaves read zero (log 146). -/
def State.save (s : State) (h : HoldRef) : State :=
  let ds := s.diesOf h
  let s := s.gather h
  let s := s.modHold h fun x => { x with
    images := ds.map s.image, lastDies := ds, closed := false, exported := none
    state := if x.state = .resetting then .resetting else .out
    resetFrom := if x.state = .resetting then .out else x.resetFrom }
  ds.foldl State.wipeDie s

/-- A holding that stands on dies goes out. -/
def State.goOut (s : State) (h : HoldRef) : State := if (s.hold h).placed then s.save h else s

/-- Every die hands its image to its successor, and the map moves with it (R330; log 49). -/
def State.rotate (s : State) (e : Fin 4) : State :=
  let len := courseLen s.mode e
  let s' := (List.range len).foldl (fun t p => t.setImage (dieAt s.mode e (p + 1)) (s.image (dieAt s.mode e p))) s
  (holdRefs e).foldl (fun t h => if (t.hold h).state = .absent then t else t.modHold h fun x => { x with position := (x.position + 1) % len }) s'

/-- A harvest has cut a holding and copies still (20 R425). -/
def State.cutting (s : State) (h : HoldRef) : Bool := s.harvest.ready && decide (s.harvest.cut = some h)

/-- A holding comes in from its save area, onto its group's run or another (19 R399), which is then the run of the group's members
that are OUT; it stays OUT where there is none. -/
def State.comeIn (s : State) (h : HoldRef) : State :=
  let x := s.hold h
  let run := if x.state ≠ .out then none else if s.runFallow h.est x.position x.dies then some x.position else s.findRun h.est x.dies
  match run with
  | none => s
  | some p =>
    let ds := (runPositions (courseLen s.mode h.est) p x.dies).map (dieAt s.mode h.est)
    let s := ds.foldl State.clearDie s
    let s := (ds.zip x.images).foldl (fun s di => s.setImage di.1 di.2) s
    let s := s.setHold h { x with state := .running, position := p, stood := 0, images := [], closed := s.cutting h }
    (s.groupOf h.est x.group).foldl (fun s i =>
      s.modHold ⟨h.est, i⟩ fun y => if y.state = .out then { y with position := p } else y) s

/-- The move of a headland: every holding that stays counts the headland toward its turn (19 R401), outgoing images are saved, every
image advances, incoming images are placed. -/
def State.march (s : State) (e : Fin 4) (outs ins : List (Fin 8)) : State :=
  let s := (courseDies s.mode e).foldl State.quiet s
  let s := (holdRefs e).foldl (fun s h => if (s.hold h).placed && !outs.contains h.ix then
    s.modHold h fun x => { x with stood := if s.turnOver h then 0 else x.stood + 1 } else s) s
  let s := outs.foldl (fun s i => s.goOut ⟨e, i⟩) s
  let s := s.rotate e
  ins.foldl (fun s i => s.comeIn ⟨e, i⟩) s

/-! ## A change of partition mode (19 R410) -/

/-- The head die that decides where a holding goes: the one on which its holding die 0 stands or last stood; for one created with share
that has never stood, the die of its group's position (log 142). -/
def State.headDie (s : State) (h : HoldRef) : DieId :=
  if (s.hold h).placed then s.dieOf h 0 else ((s.hold h).lastDies.head?).getD (s.dieOf h 0)

/-- The old holdings that a new estate receives, in ascending order of estate and index. -/
def State.received (s : State) (mode : BitVec 3) (e : Fin 4) : List HoldRef :=
  allHolds.filter fun h => (s.hold h).state ≠ .absent && estOf mode (s.headDie h).val = e

/-- The indices that the received holdings take: their own if it is free, otherwise the lowest free. Holdings that can keep
their index are seated first. -/
def seat (hs : List HoldRef) : List (HoldRef × Fin 8) :=
  let keep := hs.foldl (fun acc h => if acc.any (fun p => p.2 = h.ix) then acc else acc ++ [(h, h.ix)]) ([] : List (HoldRef × Fin 8))
  (hs.filter fun h => !keep.any fun p => p.1 = h).foldl (fun acc h =>
    match (List.finRange 8).find? fun i => !acc.any fun p => p.2 = i with
    | some i => acc ++ [(h, i)]
    | none => acc) keep

/-- Where every holding goes in the new mode. -/
def State.seating (s : State) (mode : BitVec 3) : List (HoldRef × HoldRef) :=
  (List.finRange 4).flatMap fun e => (seat (s.received mode e)).map fun p => (p.1, ⟨e, p.2⟩)

/-- The new name of a holding. -/
def renamed (seats : List (HoldRef × HoldRef)) (h : HoldRef) : HoldRef :=
  match seats.find? fun p => p.1 = h with
  | some p => p.2
  | none => h

def HomeRef.rename (f : HoldRef → HoldRef) (x : HomeRef) : HomeRef := { x with hold := f x.hold }
def Seed.rename (f : HoldRef → HoldRef) (x : Seed) : Seed :=
  { x with mig := x.mig.map fun m => { m with home := m.home.rename f } }
def Origin.rename (f : HoldRef → HoldRef) (o : Origin) : Origin := { o with home := o.home.map (HomeRef.rename f) }
def Slot.rename (f : HoldRef → HoldRef) (x : Slot) : Slot :=
  { x with
    task := x.task.map fun t => { t with
      home := t.home.map (HomeRef.rename f)
      async := t.async.map fun a => { a with origin := a.origin.rename f }
      kind := match t.kind with | .seeded sd => .seeded (sd.rename f) | k => k }
    restore := x.restore.map (Seed.rename f)
    migrating := x.migrating.map (Seed.rename f)
    stores := x.stores.map fun b => { b with hold := f b.hold, home := b.home.map (HomeRef.rename f) } }
def Core.rename (f : HoldRef → HoldRef) (c : Core) : Core :=
  { c with
    slots := c.slots.map (Slot.rename f), deque := c.deque.map (Seed.rename f)
    plq := c.plq.map fun o => { o with origin := o.origin.rename f }
    drq := c.drq.map fun o => { o with origin := o.origin.rename f }
    saved := c.saved.map fun v => { v with home := v.home.rename f } }

/-- The references of an image to the homes of migrated work follow the holdings' new names. -/
def Image.rename (f : HoldRef → HoldRef) (im : Image) : Image :=
  { im with cores := im.cores.map fun (i, c) => (i, c.rename f), ready := im.ready.map (Seed.rename f) }

/-- A holding in its new estate: OUT, or being reset to OUT, with its group's lowest new index, and the lottery state that its new
index has had (19 R404). -/
def Holding.reseat (x : Holding) (f : HoldRef → HoldRef) (group : Fin 8) (position : Nat) (lseed : W32) : Holding :=
  { x with
    state := if x.state = .resetting then .resetting else .out, resetFrom := if x.state = .resetting then .out else x.resetFrom
    group := group, position := position, lseed := lseed, images := x.images.map (Image.rename f) }

/-- The new holding of a place. -/
def State.seated (s : State) (seats : List (HoldRef × HoldRef)) (mode : BitVec 3) (e : Fin 4) (i : Fin 8) : Holding :=
  match seats.find? fun p => p.2 = ⟨e, i⟩ with
  | none => { lseed := (s.hold ⟨e, i⟩).lseed }
  | some (old, _) =>
    let mates := seats.filter fun p => p.2.est = e && p.1.est = old.est && (s.hold p.1).group = (s.hold old).group
    let lo := mates.foldl (fun (g : Fin 8) p => if p.2.ix < g then p.2.ix else g) i
    (s.hold old).reseat (renamed seats) lo (posOf mode (s.headDie old)) (s.hold ⟨e, i⟩).lseed

/-- An estate after the change: a new sequencer, and commands that were pending ended (log 53). -/
def Estate.renew (x : Estate) (now stopTime : Nat) (holdings : Vector Holding 8) : Estate :=
  let stat : HmStat := if x.pending.isSome then ⟨7, false, 0⟩ else x.hmStat
  { x with
    holdings := holdings, phase := .running, deferred := [], asked := false, pending := none, saving := false, hmStat := stat
    due := now + 1000 * x.interval.toNat, count := 0, stopTime := stopTime }

/-- The mode changes in one step (R410). -/
def State.changeMode (s : State) (mode : BitVec 3) : State :=
  let seats := s.seating mode
  let f := renamed seats
  let stop := s.estates.toList.foldl (fun n x => max n x.stopTime) 0
  { s with
    mode := mode, pmStatus := 0, pmNext := none
    dies := s.dies.map fun d => { d with tlb := [] }
    images := s.images.map (Image.rename f)
    rung := s.rung.map f
    estates := Vector.ofFn fun e => s.estates[e].renew s.panelNs stop (Vector.ofFn fun i => s.seated seats mode e i)
    transplant := { s.transplant with target := s.transplant.target.map f }
    harvest := { s.harvest with cut := s.harvest.cut.map f } }

/-! ## The resume (R340, R444) -/

/-- The panel time that every region of an estate reads exceeds the latest at which dispatch has stopped by at least 32 ns (14
R305). -/
def State.timePassed (s : State) (e : Fin 4) : Bool :=
  let t := (s.estate e).stopTime
  (courseDies s.mode e).all fun d => decide (t + 32 ≤ ((s.die d).north.count + (s.die d).north.toff).toNat) &&
    decide (t + 32 ≤ ((s.die d).south.count + (s.die d).south.toff).toNat)

/-- The plough pointers start again (09 R195). -/
def State.resetPointers (s : State) (d : DieId) : State :=
  s.setImage d { s.image d with clusters := (s.image d).clusters.map fun k => { k with p := 7, cr := 0 } }

/-- A switch command that this pause carried out ends (19 R397, R399). -/
def State.endSwitch (s : State) (e : Fin 4) (outs ins : List (Fin 8)) : State :=
  match (s.estate e).pending with
  | some c =>
    let x := s.hold ⟨e, c.hold⟩
    if c.op = 5 && c.begun && outs.contains c.hold then s.hmStatus e 0 0
    else if c.op = 6 && c.begun && ins.contains c.hold then (if x.placed then s.hmStatus e 0 x.position else s.hmStatus e 2 0)
    else s
  | none => s

/-- What a pause held: function-level resets, retirements, an ESTATE-RESET, which ends a pending command (19 R408), and a holding
command (R343), which waits on while a change of partition mode does (19 R410). -/
def State.runHeld (s : State) (e : Fin 4) : State :=
  let s := (holdRefs e).foldl (fun s h => if (s.hold h).resetHeld then s.beginReset h else s) s
  let mine := s.health.todo.filter fun c => estOf s.mode c.die.val = e
  let s := mine.foldl State.retireCore s
  let x := s.health
  let stat := if mine.isEmpty then x.stat else ⟨x.stat.pending && !mine.contains (hlthCore x.cmd), 0⟩
  let s := { s with health := { x with todo := x.todo.filter fun c => !mine.contains c, stat := stat } }
  if (s.estate e).resetHeld then s.beginEstateReset e
  else if s.pmNext.isSome then s
  else match (s.estate e).pending with
    | some c => if c.begun then s else s.runCommand e c
    | none => s

/-- The change takes place once no estate still saves its holdings. -/
def State.settleMode (s : State) : State :=
  match s.pmNext with
  | some m => if (List.finRange 4).any fun e => (s.estate e).saving then s else (List.finRange 4).foldl State.runHeld (s.changeMode m)
  | none => s

/-- A harvest of a holding of the estate is cut at this headland: dispatch of the holding stays closed (20 R425). -/
def State.holdCut (s : State) (e : Fin 4) : State :=
  match s.harvest.cut with
  | some h => if h.est = e && s.harvest.armed then
      { s.modHold h fun x => { x with closed := true } with harvest := { s.harvest with ready := true } } else s
  | none => s

/-- Dispatch opens. -/
def State.openEstate (s : State) (e : Fin 4) : State := (holdRefs e).foldl (fun s h => if (s.hold h).placed then s.reopen h else s) s

/-- The holdings whose switch merges with a headland at a moment of its pause go out and come in. -/
def State.mergeSwitch (s : State) (e : Fin 4) : State × List (Fin 8) × List (Fin 8) :=
  let (outs, ins) := s.switchNow e
  let s := outs.foldl (fun s i => s.goOut ⟨e, i⟩) s
  (ins.foldl (fun s i => s.comeIn ⟨e, i⟩) s, outs, ins)

/-- The plough queues of dies whose suspension has ended, or whose operations at the head have no tiles, go on (09 R192, R211). -/
def State.settleDies (s : State) (ds : List DieId) : State :=
  ds.foldl (fun s d => (s.image d).cores.foldl (fun s p => s.settlePl Config.engineEntries ⟨d, coreIdx p.1⟩) s) s

/-- The resume of a headland. -/
def State.resume (s : State) (e : Fin 4) (t : Nat) (outs ins : List (Fin 8)) : State :=
  let (s, outs', ins') := s.mergeSwitch e
  let (outs, ins) := (outs'.foldl withIndex outs, ins'.foldl withIndex ins)
  let s := (holdRefs e).foldl (fun s h => if (s.hold h).placed then
    (s.reach h).modHold h fun x => { x with hlcount := x.hlcount + 1 } else s) s
  let s := (courseDies s.mode e).foldl (fun s d => (s.resetPointers d).holdDie d) s
  let est := s.estate e
  let s := s.setEstate e { est with
    phase := .running, count := est.count + 1, due := est.due + 1000 * est.interval.toNat
    lastPause := BitVec.ofNat 32 (s.panelNs - t) }
  ((((s.settleDies (courseDies s.mode e)).holdCut e).endSwitch e outs ins).runHeld e).openEstate e

/-- HEADLAND_MOVE: once the drain has ended, the images move; a switch whose moment has come by then is part of it. -/
def execHeadlandMove (e : Fin 4) (s : State) : Host.Outcome State Fault Refusal :=
  match (s.estate e).phase with
  | .draining t _ true outs ins =>
    if (s.pausedTasks e).isEmpty then
      let (outs', ins') := s.switchNow e
      let (outs, ins) := (outs'.foldl withIndex outs, ins'.foldl withIndex ins)
      let s := s.march e outs ins
      let s := s.setEstate e { s.estate e with phase := .moved t true outs ins, saving := (s.estate e).saving && (holdRefs e).any fun h => (s.hold h).placed }
      .next s.settleMode
    else .next s
  | _ => .next s

/-- HEADLAND_RESUME (R340). -/
def execHeadlandResume (e : Fin 4) (s : State) : Host.Outcome State Fault Refusal :=
  match (s.estate e).phase with
  | .moved t true outs ins => .next (if s.timePassed e then s.resume e t outs ins else s)
  | _ => .next s

/-! ## GANG_SWITCH (19 R400, 16 R345) -/

/-- The switch command whose moment has come outside the drain watchdog before a headland (R400), while no change of partition mode
waits (R410). -/
def State.switchDue (s : State) (e : Fin 4) : Option Command :=
  match (s.estate e).pending with
  | some c => if (c.op = 5 ∨ c.op = 6) ∧ c.begun ∧ c.time ≤ s.panelNs ∧ s.panelNs + Config.deferNs < (s.estate e).due ∧ s.pmNext.isNone then some c else none
  | none => none

/-- A gang switch begins in one step on every die of the holding. -/
def State.beginGang (s : State) (e : Fin 4) (c : Command) : State :=
  let outs := if c.op = 5 then [c.hold] else []
  let ins := if c.op = 6 then [c.hold] else []
  let ds := if c.op = 5 then s.diesOf ⟨e, c.hold⟩ else []
  ((s.setEstate e { s.estate e with phase := .draining s.panelNs 0 false outs ins }).noteStop e).markDies ds

/-- The move and the resume of a gang switch; `hlcount` stays (14 R305). -/
def State.gang (s : State) (e : Fin 4) (outs ins : List (Fin 8)) : State :=
  let s := (outs.flatMap fun i => s.diesOf ⟨e, i⟩).foldl State.quiet s
  let s := outs.foldl (fun s i => s.goOut ⟨e, i⟩) s
  let s := ins.foldl (fun s i => s.comeIn ⟨e, i⟩) s
  let s := ins.foldl (fun s i =>
    let h : HoldRef := ⟨e, i⟩
    if (s.hold h).placed then (s.diesOf h).foldl (fun s d => (s.resetPointers d).holdDie d) (s.reach h) else s) s
  let s := (s.setEstate e { s.estate e with phase := .running }).settleDies (ins.flatMap fun i => s.diesOf ⟨e, i⟩)
  ((s.endSwitch e outs ins).runHeld e).openEstate e

/-- GANG_SWITCH (R400): it begins at its moment, and ends once the holding is drained and time has passed (14 R305). -/
def execGangSwitch (e : Fin 4) (s : State) : Host.Outcome State Fault Refusal :=
  match (s.estate e).phase with
  | .running => match s.switchDue e with
    | some c => .next (if e.val < estateCount s.mode then s.beginGang e c else s)
    | none => .next s
  | .draining _ _ false outs ins =>
    .next (if (s.pausedTasks e).isEmpty && (ins.isEmpty || s.timePassed e) then s.gang e outs ins else s)
  | _ => .next s

end Sys2Proof.Machine
end

