-- ==== Sys2Proof/Machine/Transplants.lean ====
section
/-! DEFINITION. The transplant engine (20 R423): EXPORT, IMPORT, IMPORT_COMPLETE and TRANSPLANT_TICKET_CHECK. -/

namespace Sys2Proof.Machine

/-- The holding that TR.CMD or HV.CMD names. -/
def cmdHold (v : Word) : HoldRef :=
  ⟨⟨bits v 13 12 % 4, Nat.mod_lt _ (by decide)⟩, ⟨bits v 10 8 % 8, Nat.mod_lt _ (by decide)⟩⟩

/-- A transplant command ends, and HOST.EVT tells it. -/
def State.trEnd (s : State) (status : BitVec 8) : State :=
  { s with transplant := { s.transplant with stat := ⟨false, status⟩, target := none } }.hostEvent 5

/-- A write of TR.CMD with an op value: BUSY while a command is pending. One with another op only stores the command (log 145). -/
def State.trWrite (s : State) (port : BitVec 1) (op : Nat) (v : Word) (f : State → State) : State :=
  if bits v 7 0 ≠ op then s
  else s.pfWrite port fun s =>
    if s.transplant.stat.pending then { s with transplant := { s.transplant with stat := ⟨true, 1⟩ } }
    else f { s with transplant := { s.transplant with cmd := v &&& 0x37FF } }

/-! ## Tickets -/

/-- The check of a ticket's first 24 bytes with a secret. -/
def ticketCheck (secret : BitVec 256) (ws : List Word) : Word :=
  word (ofBytes ((Config.sm3 (bytesOf (ws.take 3) ++ toBytes 32 secret.toNat)).take 8))

/-- The ticket of a holding (its image size in chunks is a free value, log 62). -/
def State.ticket (s : State) (h : HoldRef) (serial : W32) : Vector Word 4 :=
  let w0 : Word := ownId.setWidth 64
  let w1 := word (h.est.val + h.ix.val * 2 ^ 8 + (s.hold h).dies * 2 ^ 16 + serial.toNat * 2 ^ 32)
  let w2 := Config.freeWord s.freshCount
  #v[w0, w1, w2, ticketCheck s.transplant.secret [w0, w1, w2]]

/-- EXPORT after its write: a STOPPED holding's ticket is written into TR.TICKET. -/
def State.exportHold (s : State) (h : HoldRef) : State :=
  if decide (estateCount s.mode ≤ h.est.val) || (s.hold h).state ≠ .stopped then s.trEnd 2
  else
    let n := s.transplant.serial + 1
    let t := s.ticket h n
    let s := { s with freshCount := s.freshCount + 1, transplant := { s.transplant with serial := n, ticket := t } }
    (s.modHold h fun x => { x with exported := some t, granted := false }).trEnd 0

/-- EXPORT (R423). -/
def execExportTicket (port : BitVec 1) (v : Word) (s : State) : Host.Outcome State Fault Refusal :=
  .next (s.trWrite port 1 v fun s => s.exportHold (cmdHold v))

/-- The source judges a ticket: the check holds, it is the latest export of that estate and index, and the holding is still
STOPPED with no import completed. -/
def State.ticketOk (s : State) (ws : List Word) : Bool :=
  let w1 := ws.getD 1 0
  let h : HoldRef := ⟨⟨bits w1 7 0 % 4, Nat.mod_lt _ (by decide)⟩, ⟨bits w1 15 8 % 8, Nat.mod_lt _ (by decide)⟩⟩
  ws.length = 4 && ws.getD 3 0 = ticketCheck s.transplant.secret ws && decide (bits w1 7 0 < estateCount s.mode) &&
    decide (bits w1 15 8 < 8) && (s.hold h).state = .stopped && (s.hold h).exported.map Vector.toList = some ws

/-- TRANSPLANT_TICKET_CHECK (R423): the source accepts or refuses an import. -/
def execTransplantTicketCheck (ticket : List Word) (s : State) : Host.Outcome State Fault Refusal :=
  let s' := { s with outbox := s.outbox ++ [.ticket (s.ticketOk ticket)] }
  let w1 := ticket.getD 1 0
  let h : HoldRef := ⟨⟨bits w1 7 0 % 4, Nat.mod_lt _ (by decide)⟩, ⟨bits w1 15 8 % 8, Nat.mod_lt _ (by decide)⟩⟩
  .next (if s.ticketOk ticket then s'.modHold h fun x => { x with granted := true } else s')

/-! ## Imports -/

/-- The dies of a ticket's holding. -/
def ticketDies (t : Vector Word 4) : Nat := bits t[1] 23 16

/-- IMPORT after its write, in the order of R423: a path to the source, the source's acceptance of the ticket, which both come from
outside, and then what the creation needs: an estate with less than 8 holdings and a fallow run (16 R331), an ABSENT index (19 R399). -/
def State.importHold (s : State) (h : HoldRef) (path accepted : Bool) : State :=
  if !path || !(s.links.toList.any fun l => l.state = 2) then s.trEnd 4
  else if !accepted then s.trEnd 5
  else if decide (estateCount s.mode ≤ h.est.val) then s.trEnd 2
  else if s.fullEstate h.est then s.trEnd 3
  else if (s.hold h).state ≠ .absent then s.trEnd 2
  else if (s.findRun h.est (ticketDies s.transplant.ticket)).isNone then s.trEnd 3
  else { s with transplant := { s.transplant with stat := ⟨true, 0⟩, taken := s.transplant.ticket, target := some h } }

/-- IMPORT (R423). -/
def execImportTicket (port : BitVec 1) (v : Word) (path accepted : Bool) (s : State) : Host.Outcome State Fault Refusal :=
  .next (s.trWrite port 2 v fun s => s.importHold (cmdHold v) path accepted)

/-- The pulled holding stands STOPPED on a run of the course, with the index's own lottery seed (19 R404). Its cores meet the retired
cores of the dies that they reach as at a switch-in (16 R444; log 63), and lean dies (09 R211). -/
def State.placeImport (s : State) (h : HoldRef) (x : Holding) (p : Nat) : State :=
  let ds := (runPositions (courseLen s.mode h.est) p x.dies).map (dieAt s.mode h.est)
  let s := ds.foldl State.clearDie s
  let s := (ds.zip x.images).foldl (fun s di => s.setImage di.1 (di.2.rename fun _ => h)) s
  let s := s.setHold h { x with
    state := .stopped, closed := true, position := p, group := h.ix, images := [], exported := none, granted := false, lastDies := []
    resetHeld := false, lseed := (s.hold h).lseed }
  (ds.foldl State.holdDie (s.reach h)).settleDies ds

/-- The target's side of the end, with the ticket that the source has judged: what IMPORT requires of the index and its estate is
required still, and the run is allotted now (log 63). -/
def State.finishImport (s : State) (h : HoldRef) (pulled : Bool) : State :=
  match s.peers.find? fun p => p.ticket = s.transplant.taken with
  | none => s.trEnd 4
  | some p =>
    if !pulled then s.trEnd 4
    else if decide (estateCount s.mode ≤ h.est.val) then s.trEnd 2
    else if s.fullEstate h.est then s.trEnd 3
    else if (s.hold h).state ≠ .absent then s.trEnd 2
    else if s.vfBound p.hold.vf.toNat then s.trEnd 2
    else match s.findRun h.est p.hold.dies with
      | none => s.trEnd 3
      | some q => (s.placeImport h p.hold q).trEnd 0

/-- The source's side of the end: the holding is ABSENT and its ticket used. -/
def State.leaveImport (s : State) (h : HoldRef) : State :=
  let s := (s.diesOf h).foldl State.leaveDie ((s.withdraw h).undefer h)
  (s.setHold h { weights := (s.hold h).weights, lseed := (s.hold h).lseed }).regroup h.est (s.hold h).group

/-- IMPORT_COMPLETE (R423): the pull has ended, at the target or at the source. While a change of partition mode waits, no holding comes
in (19 R410), and none while the estate is being reset (19 R408, log 63). -/
def execImportComplete (h : HoldRef) (pulled : Bool) (s : State) : Host.Outcome State Fault Refusal :=
  if s.transplant.target = some h then .next (if s.pmNext.isSome || s.resettingEstate h.est then s else s.finishImport h pulled)
  else
    let x := s.hold h
    .next (if pulled && x.granted && x.exported.isSome && x.state = .stopped then s.leaveImport h else s)

end Sys2Proof.Machine
end

