-- ==== Sys2Proof/Machine/Harvests.lean ====
section
/-! DEFINITION. The harvest engine (20 R424 to R426): HARVEST, HARVEST_CUT and RESTORE. -/

namespace Sys2Proof.Machine

/-! ## The table (R425) -/

/-- An entry of a harvest table. -/
structure HvEntry where
  kind : Nat
  pasid : BitVec 20
  reserved : Nat
  shard : Nat
  shards : Nat
  length : Nat
  source : Nat
  dest : Nat
deriving DecidableEq, Repr

def parseHv (bs : List Byte) : HvEntry :=
  ⟨field bs 0 1, BitVec.ofNat 20 (field bs 1 3), field bs 1 3 / 2 ^ 20, field bs 4 2, field bs 6 2, field bs 8 8, field bs 16 8, field bs 24 8⟩

/-- An entry that the table's layout does not admit (log 64). -/
def HvEntry.bad (x : HvEntry) : Bool :=
  decide (3 < x.kind) || decide (x.reserved ≠ 0) || decide (x.shards ≤ x.shard) || decide (x.length = 0) || decide (2 ^ 40 < x.length)

/-- The table that HV.TAB and HV.N name, in the host's memory. -/
def State.hvTable (s : State) : List HvEntry :=
  (List.range s.harvest.n.toNat).map fun i => parseHv (Memory.read s.hostMem (s.harvest.tab.toNat + 32 * i) 32)

/-! ## Commands (R424) -/

/-- A harvest or restore ends, and HOST.EVT tells it. -/
def State.hvEnd (s : State) (status : BitVec 8) (detail : W32) : State :=
  { s with harvest := { s.harvest with stat := ⟨false, status⟩, detail := detail, cut := none, armed := false, ready := false } }.hostEvent 6

/-- A write of HV.CMD with an op value: BUSY while a harvest or a holding command of the estate is pending, an ESTATE-RESET
that a pause holds among them (16 R343). -/
def State.hvWrite (s : State) (port : BitVec 1) (op : Nat) (v : Word) (f : State → State) : State :=
  if bits v 7 0 ≠ op then s
  else s.pfWrite port fun s =>
    let x := s.harvest
    let est := s.estate (cmdHold v).est
    if x.stat.pending || est.pending.isSome || est.resetHeld then { s with harvest := { x with stat := ⟨x.stat.pending, 1⟩ } }
    else f { s with harvest := { x with cmd := v &&& 0x37FF } }

/-- HARVEST after its write: it waits for the next headland of the estate. `reach`: the host translates the table's address. -/
def State.startHarvest (s : State) (h : HoldRef) (reach : Bool) : State :=
  let x := s.hold h
  if decide (estateCount s.mode ≤ h.est.val) || !(x.state = .running || x.state = .stopped) then s.hvEnd 2 0
  else if !reach then s.hvEnd 6 0
  else if s.hvTable.any HvEntry.bad then s.hvEnd 5 0
  else { s with harvest := { s.harvest with stat := ⟨true, 0⟩, cut := some h, armed := false, ready := false } }

/-- HARVEST (R425). -/
def execHarvest (port : BitVec 1) (w : TableCommand) (s : State) : Host.Outcome State Fault Refusal :=
  .next (s.hvWrite port 1 w.v fun s => s.startHarvest (cmdHold w.v) w.reach)

/-! ## The cut (R425) -/

/-- The 32 bytes of a digest. -/
def digest (bs : List Byte) : List Byte := (List.range 32).map fun i => (Config.sm3 bs).getD i 0

/-- A sheaf: header and content. -/
def HvEntry.sheaf (x : HvEntry) (step : Word) (content : List Byte) : List Byte :=
  toBytes 4 0x53484546 ++ toBytes 2 1 ++ toBytes 1 x.kind ++ toBytes 1 0 ++ toBytes 8 step.toNat ++ toBytes 2 x.shard ++
    toBytes 2 x.shards ++ toBytes 4 0 ++ toBytes 8 x.length ++ digest content ++ content

/-- Writes the sheaf of an entry; none where a translation fails. -/
def State.writeSheaf (s : State) (e : Fin 4) (x : HvEntry) : Option State :=
  (s.sysRead e x.pasid x.source x.length).bind fun bs => s.sysWrite e x.pasid x.dest (x.sheaf s.harvest.step bs)

/-- Writes the sheaves in table order until one fails. -/
def State.writeSheaves (s : State) (e : Fin 4) : List HvEntry → State × Bool
  | [] => (s, true)
  | x :: xs => match s.writeSheaf e x with
    | some s' => s'.writeSheaves e xs
    | none => (s, false)

/-- The holding's dispatch reopens, unless it has gone OUT. -/
def State.reopenCut (s : State) (h : HoldRef) : State :=
  let s := s.modHold h fun x => { x with closed := x.state = .stopped }
  if (s.hold h).placed then s.reopen h else s

/-- HARVEST_CUT (R425): after the resume the sheaves are written, and dispatch reopens. -/
def execHarvestCut (cut : CutOrder) (s : State) : Host.Outcome State Fault Refusal :=
  match s.harvest.cut with
  | none => .next s
  | some h =>
    if !s.harvest.ready || h.est ≠ cut.est then .next s
    else if !cut.reach then .next ((s.reopenCut h).hvEnd 6 0)
    else if s.hvTable.any HvEntry.bad then .next ((s.reopenCut h).hvEnd 5 0)
    else match s.writeSheaves cut.est s.hvTable with
      | (s', ok) => .next ((s'.reopenCut h).hvEnd (if ok then 0 else 6) 0)

/-! ## RESTORE (R426) -/

/-- A candidate sheaf: its entry, its step and its content. -/
structure Candidate where
  entry : HvEntry
  step : Nat
  content : List Byte
deriving DecidableEq, Repr

/-- What reading a candidate gives: a sheaf that fits its entry, a mismatch, or a failed translation. -/
inductive Read where
  | good (c : Candidate)
  | mismatch
  | fault
deriving DecidableEq, Repr

/-- A header that fits its entry. -/
def HvEntry.fits (x : HvEntry) (hd : List Byte) : Bool :=
  field hd 0 4 = 0x53484546 && field hd 4 2 = 1 && field hd 6 1 = x.kind && field hd 16 2 = x.shard && field hd 18 2 = x.shards &&
    field hd 24 8 = x.length

def State.readSheaf (s : State) (e : Fin 4) (x : HvEntry) : Read :=
  match s.sysRead e x.pasid x.dest 64 with
  | none => .fault
  | some hd =>
    if x.bad || !x.fits hd then .mismatch
    else match s.sysRead e x.pasid (x.dest + 64) x.length with
      | none => .fault
      | some bs => if (hd.drop 32).take 32 = digest bs then .good ⟨x, field hd 8 8, bs⟩ else .mismatch

/-- Every shard of every kind present is listed at a step. -/
def complete_ (cs : List Candidate) (step : Nat) : Bool :=
  cs.all fun c => (List.range c.entry.shards).all fun i => cs.any fun d =>
    d.step = step && d.entry.kind = c.entry.kind && d.entry.shards = c.entry.shards && d.entry.shard = i

/-- The newest complete step. -/
def newestStep (cs : List Candidate) : Option Nat :=
  cs.foldl (fun b c => if complete_ cs c.step then some (match b with | some n => Nat.max n c.step | none => c.step) else b) none

/-- Copies every content back to its source range, until a translation fails. -/
def State.copyBackSheaves (s : State) (e : Fin 4) : List Candidate → State × Bool
  | [] => (s, true)
  | c :: cs => match s.sysWrite e c.entry.pasid c.entry.source c.content with
    | some s' => s'.copyBackSheaves e cs
    | none => (s, false)

def Read.candidate : Read → Option Candidate
  | .good c => some c
  | _ => none

/-- RESTORE after its write. -/
def State.restoreHold (s : State) (h : HoldRef) (reach : Bool) : State :=
  if decide (estateCount s.mode ≤ h.est.val) || (s.hold h).state ≠ .stopped then s.hvEnd 2 0
  else if !reach then s.hvEnd 6 0
  else
    let rs := s.hvTable.map (s.readSheaf h.est)
    if rs.contains .fault then s.hvEnd 6 0
    else if rs.contains .mismatch then s.hvEnd 5 0
    else
      let cs := rs.filterMap Read.candidate
      let detail : W32 := match newestStep cs with | some n => BitVec.ofNat 32 n | none => 0xFFFFFFFF
      if cs.any fun c => cs.any fun d => decide (c.step ≠ d.step) then s.hvEnd 3 detail
      else if cs.any fun c => !complete_ cs c.step then s.hvEnd 4 detail
      else match s.copyBackSheaves h.est cs with
        | (s', ok) => s'.hvEnd (if ok then 0 else 6) detail

/-- RESTORE (R426). -/
def execRestore (port : BitVec 1) (w : TableCommand) (s : State) : Host.Outcome State Fault Refusal :=
  .next (s.hvWrite port 2 w.v fun s => s.restoreHold (cmdHold w.v) w.reach)

end Sys2Proof.Machine
end

