-- ==== Sys2Proof/Machine/Control.lean ====
section
/-! DEFINITION. Branches, jumps, `brk`, and the access to system registers (06 R133 to R136, R143 to R146). -/

namespace Sys2Proof.Machine

/-- sext(offset16) × 4 (R143). -/
def branchOffset (o : BitVec 16) : Word := o.signExtend 64 <<< 2
/-- sext(offset26) × 4 (R144). -/
def jumpOffset (o : BitVec 26) : Word := o.signExtend 64 <<< 2

/-- A conditional branch (R143). -/
def branch (c : Cond) (a b : Reg) (o : BitVec 16) (s : State) : Host.Outcome State Fault Refusal :=
  runOp [a, b] 0 (fun s _ t vs => match vs with
    | [x, y] => .jump s 0 (if c.holds x y then t.pc + branchOffset o else t.pc + 4)
    | _ => .done s 0) s

/-- `beq` (R143). -/
def execBeq (a b : Reg) (o : BitVec 16) (s : State) : Host.Outcome State Fault Refusal := branch .eq a b o s

/-- `bne` (R143). -/
def execBne (a b : Reg) (o : BitVec 16) (s : State) : Host.Outcome State Fault Refusal := branch .ne a b o s

/-- `blt` (R143). -/
def execBlt (a b : Reg) (o : BitVec 16) (s : State) : Host.Outcome State Fault Refusal := branch .lt a b o s

/-- `bge` (R143). -/
def execBge (a b : Reg) (o : BitVec 16) (s : State) : Host.Outcome State Fault Refusal := branch .ge a b o s

/-- `bltn` (R143). -/
def execBltn (a b : Reg) (o : BitVec 16) (s : State) : Host.Outcome State Fault Refusal := branch .ltn a b o s

/-- `bgen` (R143). -/
def execBgen (a b : Reg) (o : BitVec 16) (s : State) : Host.Outcome State Fault Refusal := branch .gen a b o s

/-- `j` (R144). -/
def execJ (o : BitVec 26) (s : State) : Host.Outcome State Fault Refusal :=
  runOp [] 0 (fun s _ t _ => .jump s 0 (t.pc + jumpOffset o)) s

/-- `jal` (R144): the link goes to g31. -/
def execJal (o : BitVec 26) (s : State) : Host.Outcome State Fault Refusal :=
  runOp [] 31 (fun s _ t _ => .jump s (t.pc + 4) (t.pc + jumpOffset o)) s

/-- `jr` (R144). -/
def execJr (a : Reg) (i : BitVec 16) (s : State) : Host.Outcome State Fault Refusal :=
  runOp [a] 0 (fun s _ _ vs => .jump s 0 (vs.headD 0 + branchOffset i)) s

/-- `jalr` (R144): g[a] is read before g[d] is written. -/
def execJalr (d a : Reg) (i : BitVec 16) (s : State) : Host.Outcome State Fault Refusal :=
  runOp [a] d (fun s _ t vs => .jump s (t.pc + 4) (vs.headD 0 + branchOffset i)) s

/-- `brk` (R146): cause 0x50, with no other effect. -/
def execBrk (s : State) : Host.Outcome State Fault Refusal :=
  match s.task s.cur with
  | none => .fault .noTask
  | some t => .next (s.takeTrap s.cur { cause := 0x50 } t.pc t.pc false)

/-- The task of a slot takes the cause of a word that the decoder refuses (03 R55), with the word as information (12 R266). -/
def State.takeIllegal (s : State) (r : SlotRef) (w : W32) : State :=
  match s.task r, wordCause w with
  | some t, some c => s.takeTrap r { cause := c.code, info := wordInfo w } t.pc (t.pc + 4) false
  | _, _ => s

/-- A word that the decoder refuses (03 R55). As an event it acts only where the slot `cur` fetches that word. -/
def execIllegalInstruction (w : W32) (s : State) : Host.Outcome State Fault Refusal :=
  match s.task s.cur with
  | none => .next s
  | some t =>
    match s.fetch s.cur t with
    | .ok x => .next (if x = w then s.takeIllegal s.cur w else s)
    | _ => .next s

/-! ## System registers -/

/-- Reads a system register (R134). -/
def State.readSys (s : State) (r : SlotRef) (t : Task) (n : Nat) : Word :=
  let c := s.core r.core
  let xy := s.taskCoord r t
  let h := s.hold (s.taskHold r t)
  match n with
  | 0x000 => word xy.hx
  | 0x001 => word xy.hy
  | 0x002 => word (cidxOf (s.homeSlot r t).core.idx)
  | 0x003 => word (xy.hx / 20)
  | 0x004 => word h.dies
  | 0x005 => word r.slot.val
  | 0x006 => spbase c.part
  | 0x007 => c.part
  | 0x010 => t.args[0]
  | 0x011 => t.args[1]
  | 0x012 => t.args[2]
  | 0x013 => t.args[3]
  | 0x014 => t.cw
  | 0x020 => c.regs.fmtA
  | 0x021 => c.regs.fmtB
  | 0x022 => c.regs.sclA
  | 0x023 => c.regs.sclB
  | 0x024 => c.regs.plWt
  | 0x030 => c.regs.gbpEps
  | 0x040 => (s.region r.core).count
  | 0x041 => (s.region r.core).toff
  | 0x042 => h.hlcount
  | 0x050 => c.regs.dbg
  | 0x060 => c.regs.fltCause
  | 0x061 => c.regs.fltPc
  | 0x062 => c.regs.fltAddr
  | 0x063 => c.regs.fltInfo
  | _ => 0

/-- The bits of a value that a scale pointer keeps (09 R201). -/
def sclMask (v : Word) : Word := v &&& 0x0000FFFF001FFFFF
/-- A value stored in `pl.wt`: 0 stores 1 (09 R194). -/
def wtValue (v : Word) : Word := if v &&& 0xF = 0 then 1 else v &&& 0xF

/-- Writes `dbg` (12 R270): bit 4 releases every held seed and is not kept. -/
def Core.writeDbg (c : Core) (v : Word) : Core :=
  { c with
    regs := { c.regs with dbg := v &&& 0xF }
    deque := if bit v 4 then c.deque.map fun x => { x with held := false } else c.deque }

/-- Writes a system register of a core: reserved bits read as zero, RO registers ignore the write (R133, R136). -/
def Core.writeSys (c : Core) (n : Nat) (v : Word) : Core :=
  match n with
  | 0x020 => { c with regs := { c.regs with fmtA := zext v 5 } }
  | 0x021 => { c with regs := { c.regs with fmtB := zext v 5 } }
  | 0x022 => { c with regs := { c.regs with sclA := sclMask v } }
  | 0x023 => { c with regs := { c.regs with sclB := sclMask v } }
  | 0x024 => { c with regs := { c.regs with plWt := wtValue v } }
  | 0x030 => { c with regs := { c.regs with gbpEps := zext v 32 } }
  | 0x050 => c.writeDbg v
  | _ => c

/-- An SV register is writable only by a task on the supervisor core (R133). -/
def State.svRefused (s : State) (r : SlotRef) (n : Nat) : Bool := n = 0x050 && !s.isSupervisor r.core

/-- `srd` (R136). -/
def execSrd (d : Reg) (n : BitVec 12) (s : State) : Host.Outcome State Fault Refusal :=
  readOp [] d (fun s r t _ => s.readSys r t n.toNat) s

/-- `swr` (R136). -/
def execSwr (a : Reg) (n : BitVec 12) (s : State) : Host.Outcome State Fault Refusal :=
  runOp [a] 0 (fun s r t vs =>
    if s.svRefused r n.toNat then .trap { cause := 0x51, info := wordInfo (encSY 0 a n 1) }
    else .done (s.setCore r.core (((s.core r.core).noteReg t.home n.toNat).writeSys n.toNat (vs.headD 0))) 0) s

/-- `sxch` (R136). -/
def execSxch (d a : Reg) (n : BitVec 12) (s : State) : Host.Outcome State Fault Refusal :=
  runOp [a] d (fun s r t vs =>
    if s.svRefused r n.toNat then .trap { cause := 0x51, info := wordInfo (encSY d a n 2) }
    else .done (s.setCore r.core (((s.core r.core).noteReg t.home n.toNat).writeSys n.toNat (vs.headD 0))) (s.readSys r t n.toNat)) s

end Sys2Proof.Machine
end

