-- ==== Sys2Proof/Machine/Supervisor.lean ====
section
/-! DEFINITION. Software traps and the supervisor's instructions (12 R273 to R276). -/

namespace Sys2Proof.Machine

/-- `trap` (R273): cause 0x54. -/
def execTrap (i : BitVec 16) (s : State) : Host.Outcome State Fault Refusal :=
  runOp [] 0 (fun _ _ _ _ => .trap { cause := 0x54, info := i.setWidth 64 }) s

/-- The operand of `resume` is refused (R274). -/
def State.resumeRefused (s : State) (h : HoldRef) (v : Word) : Bool :=
  bits v 63 35 ≠ 0 || !s.inGrid h (bits v 15 0) (bits v 31 16) || s.retired (s.coreAt h (bits v 15 0) (bits v 31 16))

/-- `resume` (R274): the return from a trap, by the supervisor core only; a release at holding scope. -/
def execResume (a : Reg) (h : BitVec 1) (s : State) : Host.Outcome State Fault Refusal :=
  runOp [a] 0 (fun s r t vs =>
    let v := vs.headD 0
    let hold := s.taskHold r t
    if !s.isSupervisor r.core || s.resumeRefused hold v then
      .trap { cause := 0x55, info := wordInfo (encRR 0x36 0 a 0 h 0 0x00) }
    else s.fences r fun s => .done (s.resumeAt hold (bits v 15 0) (bits v 31 16) (slotId (bits v 33 32)) (bit v 34)) 0) s

/-- `park` (R275): cause 0x56. -/
def execPark (_ : BitVec 1) (s : State) : Host.Outcome State Fault Refusal :=
  runOp [] 0 (fun _ _ _ _ => .trap { cause := 0x56 }) s

/-- A record that a task posts about itself (R276), an inline child as well: its caller is named for a trap only (05 R102). It is no trap:
the fault registers keep their values (log 44). -/
def State.postOwn (s : State) (r : SlotRef) (t : Task) (info addr : Word) : State :=
  let cw := causeWord (s.homeSlot r t).slot (s.taskCoord r t) t.home.isSome false false false false false 0x57
  s.post (s.taskHold r t) (s.recordOf t t.kind t.msg t.cw cw t.pc addr info)

/-- `fault.post` (R276): a release at holding scope. -/
def execFaultPost (a b : Reg) (_ : BitVec 1) (s : State) : Host.Outcome State Fault Refusal :=
  runOp [a, b] 0 (fun s r t vs => s.fences r fun s => .done (s.postOwn r t (vs.headD 0) (vs.getD 1 0)) 0) s

end Sys2Proof.Machine
end

