-- ==== Sys2Proof/Machine/HostCmds.lean ====
section
/-! DEFINITION. The host command blocks (20 R416 to R418): SURVEY, SV_RESUME and SET_DBG, and the survey report. -/

namespace Sys2Proof.Machine

/-! ## The host command block (R416, R417) -/

def State.hcStat (s : State) (fn : Fin 64) (pending : Bool) (status : BitVec 8) : State :=
  s.setFn fn { s.fn fn with hcPending := pending, hcStatus := status }

/-- A command with an op value: BUSY while another is pending. -/
def State.hcCommand (s : State) (fn : Fin 64) (op : Nat) (f : State → State) : State :=
  if (s.fn fn).hcPending then s.hcStat fn true 1 else f (s.setFn fn { s.fn fn with hcCmd := word op })

/-- The holding that a command names: that of the virtual function, or the one of HC.ARG; none if it is ABSENT or the mode
has no such estate. -/
def State.hcHold (s : State) (fn : Fin 64) : Option HoldRef :=
  let a := (s.fn fn).hcArg
  let h : HoldRef := ⟨⟨bits a 45 44 % 4, Nat.mod_lt _ (by decide)⟩, ⟨bits a 42 40 % 8, Nat.mod_lt _ (by decide)⟩⟩
  if fn ≠ 0 then s.holdOfFn fn
  else if h.est.val < estateCount s.mode ∧ (s.hold h).state ≠ .absent then some h else none

/-- The coordinates name a core of the holding that is not retired. An OUT holding stands on no core (log 58). -/
def State.hcTarget (s : State) (h : HoldRef) (x y : Nat) : Bool := (s.hold h).placed && s.inGrid h x y && !s.retired (s.coreAt h x y)

/-- The slot named by `resume`'s operand is parked, or its migrated task is halted. -/
def State.isParked (s : State) (h : HoldRef) (x y : Nat) (slot : SlotId) : Bool :=
  (s.slot ⟨s.coreAt h x y, slot⟩).parked || (s.haltedGuest ⟨h, x / 20, (s.coreAt h x y).idx, slot⟩).isSome

/-- A release by a holding's supervisor core: the stores of its slots that are still buffered are performed. -/
def State.svRelease (s : State) (h : HoldRef) : State :=
  match s.supervisor h with
  | some c => s.flushCore c
  | none => s

/-- SV-RESUME after its write: `resume` as the supervisor core executes it, whose release covers the stores of all four slots, since
no slot of it executes this one (log 93). -/
def State.svResume (s : State) (fn : Fin 64) : State :=
  let a := (s.fn fn).hcArg
  let x := bits a 15 0
  let y := bits a 31 16
  let slot := slotId (bits a 33 32)
  match s.hcHold fn with
  | none => s.hcStat fn false 2
  | some h =>
    if bits a 39 35 ≠ 0 || bit a 43 || bits a 63 46 ≠ 0 || !s.hcTarget h x y then s.hcStat fn false 2
    else if !s.isParked h x y slot then s.hcStat fn false 5
    else ((s.svRelease h).resumeAt h x y slot (bit a 34)).hcStat fn false 0

/-- SV_RESUME (R417). -/
def execSvResume (fn : Fin 64) (port : BitVec 1) (s : State) : Host.Outcome State Fault Refusal :=
  .next (s.fnWrite fn port fun s => s.hcCommand fn 2 fun s => s.svResume fn)

/-- The host writes a core's `dbg`: under a migrated task, the core's own saved registers take it too. -/
def Core.hostDbg (c : Core) (v : Word) : Core :=
  let c := c.writeDbg v
  { c with saved := c.saved.map fun sv => { sv with regs := { sv.regs with dbg := c.regs.dbg } } }

/-- SET-DBG after its write. -/
def State.hostDbg (s : State) (fn : Fin 64) : State :=
  let a := (s.fn fn).hcArg
  let x := bits a 15 0
  let y := bits a 31 16
  match s.hcHold fn with
  | none => s.hcStat fn false 2
  | some h =>
    if bits a 39 37 ≠ 0 || bit a 43 || bits a 63 46 ≠ 0 || !s.hcTarget h x y then s.hcStat fn false 2
    else
      let c := s.coreAt h x y
      (s.setCore c ((s.core c).hostDbg (word (bits a 36 32)))).hcStat fn false 0

/-- SET_DBG (R417). -/
def execSetDbg (fn : Fin 64) (port : BitVec 1) (s : State) : Host.Outcome State Fault Refusal :=
  .next (s.fnWrite fn port fun s => s.hcCommand fn 3 fun s => s.hostDbg fn)

/-! ## Register values that the survey reports -/

def stateCode : HoldState → Nat
  | .absent => 0
  | .running => 1
  | .stopped => 2
  | .out => 3
  | .resetting => 4

/-- HM.STATE (19 R398). -/
def Holding.stateWord (x : Holding) : Nat :=
  x.slice.toNat * 2 ^ 40 + x.group.val * 2 ^ 37 + x.w * 2 ^ 32 + x.dies * 2 ^ 26 + (if x.placed then x.position else 0) * 2 ^ 21 +
    x.vf.toNat * 2 ^ 14 + stateCode x.state

/-- HL.CTL and HL.LAST (16 R333). -/
def Estate.ctlWord (x : Estate) : Nat := x.deferEn.toNat * 2 ^ 32 + x.interval.toNat
def Estate.lastWord (x : Estate) : Nat := x.lastPost.toNat * 2 ^ 32 + x.lastPause.toNat

/-- STW.OWNER (20 R413). -/
def State.ownerWord (s : State) : Nat := (if s.led then 2 ^ 17 else 0) + s.steward.port.toNat * 2 ^ 16 + s.steward.key.toNat

/-! ## Sections of the report (R418) -/

/-- Fields of a section: offset, length, value; bytes between them are 0. -/
def section_ (size : Nat) (fs : List (Nat × Nat × Nat)) : List Byte :=
  fs.foldl (fun bs f => bs.take f.1 ++ toBytes f.2.1 f.2.2 ++ bs.drop (f.1 + f.2.1)) (List.replicate size 0)

def State.fallowMask (s : State) (e : Fin 4) : Nat :=
  (List.range (courseLen s.mode e)).foldl (fun m p => if s.fallowAt e p then m + 2 ^ p else m) 0

def State.estateSection (s : State) (e : Fin 4) : List Byte :=
  let x := s.estate e
  section_ 64 [(0, 8, x.ctlWord), (8, 8, x.due), (16, 8, x.lastWord), (24, 8, x.count.toNat), (32, 1, e.val),
    (33, 1, courseLen s.mode e), (36, 4, s.fallowMask e), (40, 8, x.partner.toNat)]

/-- The images of a holding, where it stands or in its save area. -/
def State.imagesOf (s : State) (h : HoldRef) : List Image := if (s.hold h).placed then (s.diesOf h).map s.image else (s.hold h).images

/-- Seeds in deques, ready queues and restore places. -/
def Image.readySeeds (im : Image) : Nat :=
  im.ready.length + im.cores.foldl (fun n p => n + p.2.deque.length + (p.2.slots.toList.flatMap fun x => x.restore).length) 0

def Ring.indices (x : Ring) : Nat := x.head.toNat + x.tail.toNat * 2 ^ 16

def State.holdSection (s : State) (h : HoldRef) : List Byte :=
  let x := s.hold h
  let v := x.serving
  section_ 384 ([(0, 8, x.stateWord), (8, 8, x.hlcount.toNat), (16, 1, h.ix.val), (17, 1, h.est.val), (18, 1, x.faultQ.length),
    (19, 1, saturate x.faultDrops 255), (20, 4, (s.imagesOf h).foldl (fun n im => n + im.readySeeds) 0), (24, 4, v.rq.indices),
    (28, 4, v.cq.indices), (32, 4, v.kvFree.length), (36, 4, (v.seqs.filter fun p => p.2.active).length), (40, 2, v.outstanding)] ++
    (List.finRange 16).map (fun q => (64 + 4 * q.val, 4, (v.lq[q]).indices)) ++
    (List.range 32).map fun p => (128 + 8 * p, 8, if p < courseLen s.mode h.est then FMap.get 0 x.posNs p else 0))

/-- The memory sites that a die links to (01 R8, R9). -/
def sitesAround (d : DieId) : List (Fin 32) :=
  (List.finRange 32).filter fun n =>
    let dx := (memFx n.val : Int) - dieFx d.val
    let dy := (siteFy n.val : Int) - siteFy d.val
    decide (dx.natAbs + dy.natAbs = 1)

/-- The wear summary of a die (21 R435). -/
def State.wearSummary (s : State) (d : DieId) : Nat :=
  let w := s.health.wear
  let own := w[d.val]'(by omega)
  let near := (sitesAround d).foldl (fun n m => Nat.min n (w[32 + m.val]'(by omega)).eol.toNat) 0xFFFF
  near * 2 ^ 32 + own.ageing.toNat * 2 ^ 24 + own.retired.toNat * 2 ^ 16 + own.eol.toNat

def State.dieSection (s : State) (d : DieId) : List Byte :=
  let at_ := s.holdAt d
  let ix := match at_ with | some (h, _) => h.ix.val | none => 0xFF
  let k := match at_ with | some (_, k) => k | none => 0xFF
  section_ 32 [(0, 1, d.val), (1, 1, dieFx d.val), (2, 1, siteFy d.val),
    (3, 1, (if lean d then 1 else 0) + (if at_.isNone then 2 else 0)), (4, 1, ix), (5, 1, estNat s.mode d.val), (6, 1, k),
    (8, 2, (s.die d).retired.length), (16, 8, s.wearSummary d)]

/-- A parked slot: the holding coordinates and slot by which `resume` names it, the core with its fault registers, and the
register image of a halted task. -/
structure ParkedSlot where
  xy : Coord
  slot : SlotId
  core : Core
  image : Option (List Byte)

/-- The parked slots of an image of holding die `k`. -/
def Image.parkedSlots (im : Image) (k : Nat) : List ParkedSlot :=
  im.cores.flatMap fun (i, c) => (List.finRange 4).filterMap fun n =>
    let sl := c.slots[n]
    let bytes := Memory.read c.pool.bytes (imageOffset c.part n) 1280
    if !sl.parked then none
    else match sl.task with
      | some t =>
        if t.home.isSome then none
        else some ⟨coordOn k (coreIdx i), n, c, if sl.halted then some bytes else none⟩
      | none => some ⟨coordOn k (coreIdx i), n, c, none⟩

/-- The halted tasks of a holding on migration targets. -/
def State.parkedGuests (s : State) (h : HoldRef) : List ParkedSlot :=
  s.listedCores.flatMap fun c => (List.finRange 4).filterMap fun n =>
    match (s.slot ⟨c, n⟩).parked, s.task ⟨c, n⟩ with
    | true, some t => match t.home with
      | some m =>
        if m.hold = h then some ⟨coordOn m.hdie m.core, m.slot, s.core (s.homeCore m), some (s.imageBytes ⟨c, n⟩)⟩ else none
      | none => none
    | _, _ => none

def State.parkedOf (s : State) (h : HoldRef) : List ParkedSlot :=
  ((s.imagesOf h).zipIdx.flatMap fun p => p.1.parkedSlots p.2) ++ s.parkedGuests h

def ParkedSlot.bytes (x : ParkedSlot) (h : HoldRef) (images : Bool) : List Byte :=
  let g := x.core.regs
  let im := if images then x.image.getD [] else []
  section_ 64 [(0, 2, x.xy.hx), (2, 2, x.xy.hy), (4, 1, x.slot.val), (5, 1, h.ix.val), (6, 1, h.est.val),
    (7, 1, (if x.image.isSome then 1 else 0) + (if im.isEmpty then 0 else 2)), (8, 8, g.fltCause.toNat), (16, 8, g.fltPc.toNat),
    (24, 8, g.fltAddr.toNat), (32, 8, g.fltInfo.toNat)] ++ im

/-! ## SURVEY (R418) -/

/-- The estates, holdings and dies that a survey reports. -/
def State.surveyed (s : State) (fn : Fin 64) : List (Fin 4) × List HoldRef × List DieId :=
  if fn = 0 then
    ((List.finRange 4).filter fun e => e.val < estateCount s.mode, allHolds.filter fun h => (s.hold h).state ≠ .absent, List.finRange 32)
  else match s.holdOfFn fn with
    | some h => ([h.est], [h], if (s.hold h).placed then s.diesOf h else [])
    | none => ([], [], [])

/-- The longest run of whole sections that fit in the room. -/
def fitting : (room : Nat) → List (List Byte) → List Byte × Bool
  | _, [] => ([], true)
  | room, x :: xs =>
    if x.length ≤ room then
      let (bs, all) := fitting (room - x.length) xs
      (x ++ bs, all)
    else ([], false)

/-- A certificate in the report: its 4-byte length and its DER, padded to a multiple of 8. -/
def certificateBytes (der : List Byte) : List Byte :=
  let bs := toBytes 4 der.length ++ der
  bs ++ List.replicate ((8 - bs.length % 8) % 8) 0

/-- The report, and whether all of it fits. -/
def State.report (s : State) (fn : Fin 64) : List Byte × Bool :=
  let x := s.fn fn
  let images := bit x.hcArg 0
  let certs := bit x.hcArg 1
  let (es, hs, ds) := s.surveyed fn
  let parked := hs.flatMap fun h => (s.parkedOf h).map fun p => p.bytes h images
  let body := es.map s.estateSection ++ hs.map s.holdSection ++ ds.map s.dieSection ++ parked
  let bodyLen := body.foldl (fun n b => n + b.length) 64
  let certBytes := if certs then Config.certificates.flatMap certificateBytes else []
  let whole := bodyLen + certBytes.length
  let all := decide (whole ≤ x.hcLen.toNat)
  let header := section_ 64 [(0, 4, 0x53565259), (4, 2, 1), (6, 1, s.mode.toNat),
    (7, 1, (if all then 0 else 1) + (if images then 2 else 0) + (if certs then 4 else 0)), (8, 8, s.ownerWord),
    (16, 8, s.panelNs), (24, 8, whole), (32, 1, es.length), (33, 1, hs.length), (34, 1, ds.length), (36, 2, parked.length),
    (40, 8, if certs then bodyLen else 0), (48, 4, certBytes.length)]
  ((fitting x.hcLen.toNat ([header] ++ body ++ (if certs then [certBytes] else []))).1, all)

/-- Writes a report in the context of a function (20 R411, log 92): in the host's memory as the physical function or a virtual one
reaches it without a PASID, or through the host's page table; none where the translation fails. -/
def State.hcReport (s : State) (fn : Fin 64) (reach : Bool) (bs : List Byte) : Option State :=
  let x := s.fn fn
  if fn ≠ 0 && bit x.hcArg 52 then
    (s.holdOfFn fn).bind fun h => s.sysWrite h.est (BitVec.ofNat 20 (bits x.hcArg 51 32)) x.hcAddr.toNat bs
  else if !reach then none
  else if fn = 0 then some (s.hostWriteMem x.hcAddr.toNat bs)
  else some (s.setFn fn { x with hostMem := Memory.write x.hostMem x.hcAddr.toNat bs })

/-- A pause holds the survey of a function. -/
def State.surveyHeld (s : State) (fn : Fin 64) : Bool := (s.surveyed fn).1.any fun e => (s.estate e).inPause

/-- Takes the snapshot and writes it; vector 1 of the function signals the end. -/
def State.takeSurvey (s : State) (fn : Fin 64) (reach : Bool) : State :=
  let (bs, all) := s.report fn
  let s := match s.hcReport fn reach bs with
    | some s' => s'.hcStat fn false (if all then 0 else 3)
    | none => s.hcStat fn false 4
  s.signal fn 1

/-- SURVEY after its write: one requested in a pause is taken after the resume. -/
def State.startSurvey (s : State) (fn : Fin 64) (reach : Bool) : State :=
  if fn = 0 && bits (s.fn fn).hcArg 52 32 ≠ 0 then s.hcStat fn false 2
  else if fn ≠ 0 && (s.holdOfFn fn).isNone then s.hcStat fn false 2
  else if s.surveyHeld fn then s.hcStat fn true 0
  else s.takeSurvey fn reach

/-- SURVEY (R418): the write of HC.CMD, and the end of a survey that a pause holds. `reach`: the host translates the report's
address where no PASID is named. -/
def execSurvey (fn : Fin 64) (port : BitVec 1) (reach again : Bool) (s : State) : Host.Outcome State Fault Refusal :=
  if again then .next (if (s.fn fn).hcPending && !s.surveyHeld fn then s.takeSurvey fn reach else s)
  else .next (s.fnWrite fn port fun s => s.hcCommand fn 1 fun s => s.startSurvey fn reach)

end Sys2Proof.Machine
end

