-- ==== Sys2Proof/Machine/HoldingCmds.lean ====
section
/-! DEFINITION. The writes of HL.CTL, HM.CMD and PM.CTL, and the function-level reset (16 R333, 19 R395 to R410): HL_CTL_WRITE,
CREATE, DESTROY, STOP, START, SWITCH_OUT, SWITCH_IN, SET_WD, RESET, ESTATE_RESET, FUNCTION_LEVEL_RESET and
PARTITION_MODE_WRITE. -/

namespace Sys2Proof.Machine

/-- HL_CTL_WRITE (16 R333): an interval outside 1,000 to 100,000 is ignored. -/
def execHlCtlWrite (port : BitVec 1) (e : Fin 4) (v : Word) (s : State) : Host.Outcome State Fault Refusal :=
  .next (s.estWrite port e fun s =>
    let n := bits v 16 0
    let est := s.estate e
    s.setEstate e { est with
      deferEn := BitVec.ofNat 8 (bits v 39 32)
      interval := if 1000 ≤ n ∧ n ≤ 100000 then BitVec.ofNat 17 n else est.interval })

/-- A write of HM.CMD with the op value of a command; a write with another op value is another command's row. -/
def State.command (s : State) (port : BitVec 1) (e : Fin 4) (op : Nat) (v : Word) : State :=
  if bits v 7 0 = op then s.estWrite port e fun s => s.hmWrite e v else s

/-- The holding of the estate's pending command, if that command has the op value and is under way. -/
def State.underWay (s : State) (e : Fin 4) (op : Nat) : Option HoldRef :=
  match (s.estate e).pending with
  | some c => if c.op = op ∧ c.begun then some ⟨e, c.hold⟩ else none
  | none => none

/-- CREATE (R399). -/
def execCreate (port : BitVec 1) (e : Fin 4) (v : Word) (s : State) : Host.Outcome State Fault Refusal := .next (s.command port e 1 v)
/-- DESTROY (R399). -/
def execDestroy (port : BitVec 1) (e : Fin 4) (v : Word) (s : State) : Host.Outcome State Fault Refusal := .next (s.command port e 2 v)

/-- STOP (R405): the command, and its end once the holding is drained. -/
def execStop (port : BitVec 1) (e : Fin 4) (v : Word) (work : StopWork) (s : State) : Host.Outcome State Fault Refusal :=
  if work.again then match s.underWay e 3 with
    | some h => .next (s.endStop h work.reach)
    | none => .next s
  else .next (s.command port e 3 v)

/-- START (R399). -/
def execStart (port : BitVec 1) (e : Fin 4) (v : Word) (s : State) : Host.Outcome State Fault Refusal := .next (s.command port e 4 v)
/-- SWITCH_OUT (R399, R400). -/
def execSwitchOut (port : BitVec 1) (e : Fin 4) (v : Word) (s : State) : Host.Outcome State Fault Refusal := .next (s.command port e 5 v)
/-- SWITCH_IN (R399, R400). -/
def execSwitchIn (port : BitVec 1) (e : Fin 4) (v : Word) (s : State) : Host.Outcome State Fault Refusal := .next (s.command port e 6 v)
/-- SET_WD (R399). -/
def execSetWd (port : BitVec 1) (e : Fin 4) (v : Word) (s : State) : Host.Outcome State Fault Refusal := .next (s.command port e 7 v)

/-- RESET (R406): the command, and its end once the holding's started engine operations are complete. -/
def execResetHolding (port : BitVec 1) (e : Fin 4) (v : Word) (again : Bool) (s : State) : Host.Outcome State Fault Refusal :=
  if again then match s.underWay e 8 with
    | some h => .next (if s.resetReady h then (s.endReset h).hmStatus e 0 (s.hold h).cancelled else s)
    | none => .next s
  else .next (s.command port e 8 v)

/-- ESTATE_RESET (R408); `lost` names the slice lines that are discarded (log 28). -/
def execEstateReset (port : BitVec 1) (e : Fin 4) (v : Word) (lost : List (Nat × Byte)) (again : Bool) (s : State) :
    Host.Outcome State Fault Refusal :=
  if again then match s.underWay e 9 with
    | some _ => .next (s.endEstateReset e lost)
    | none => .next s
  else .next (s.command port e 9 v)

/-- A function-level reset of the holding of a function: now, or after the pause in progress (16 R343). -/
def State.flr (s : State) (h : HoldRef) : State :=
  if (s.hold h).state = .resetting then s
  else if (s.estate h.est).inPause || s.paused h then s.modHold h fun x => { x with resetHeld := true }
  else s.beginReset h

/-- FUNCTION_LEVEL_RESET (R406): as RESET; HM.STAT tells of commands only. -/
def execFunctionLevelReset (fn : Fin 64) (again : Bool) (s : State) : Host.Outcome State Fault Refusal :=
  match s.holdOfFn fn with
  | none => .next s
  | some h =>
    let mine := s.underWay h.est 8 = some h || (s.underWay h.est 9).isSome
    if again then .next (if s.resetReady h && !mine then s.endReset h else s) else .next (s.flr h)

/-! ## Partition modes (R409, R410) -/

/-- A holding that a change of mode meets on its dies. -/
def State.stands (s : State) (h : HoldRef) : Bool := (s.hold h).placed

/-- Why a change to a mode is refused: 1 BUSY, 3 FULL, 4 TOO-LARGE. Every estate of the old mode is affected; a holding that is being
reset on its dies counts as what it was before (log 54). -/
def State.modeRefusal (s : State) (mode : BitVec 3) (drain : Bool) : Option (BitVec 3) :=
  if allHolds.any s.stands && !drain then some 1
  else if (List.finRange 4).any fun e => decide (8 < (s.received mode e).length) then some 3
  else if (List.finRange 4).any fun e => (s.received mode e).any fun h => decide (courseLen mode e < (s.hold h).dies) then some 4
  else none

/-- An estate saves its holdings at its next headland, which is the one in whose pause it stands if there is one (16 R343): before
the move, they go out with it, and after the move they go out at once. A holding that a gang switch under way brings in is saved like
the others. -/
def State.saveEstate (s : State) (e : Fin 4) : State :=
  let mine := (List.finRange 8).filter fun i => s.stands ⟨e, i⟩
  let x := s.estate e
  match x.phase with
  | .draining t n true _ _ => s.setEstate e { x with saving := true, phase := .draining t n true mine [] }
  | .moved _ true _ _ => mine.foldl (fun s i => s.save ⟨e, i⟩) s
  | .draining _ _ false _ ins => s.setEstate e { x with saving := !mine.isEmpty || !ins.isEmpty }
  | _ => s.setEstate e { x with saving := !mine.isEmpty }

/-- A write of PM.CTL (R409, R410); while a change waits, it is ignored (log 54). -/
def State.pmWrite (s : State) (v : Word) : State :=
  let mode := BitVec.ofNat 3 (bits v 2 0)
  if s.pmNext.isSome then s
  else
    let s := { s with pmDrain := bit v 8 }
    if mode ≠ 1 && mode ≠ 2 && mode ≠ 4 then s
    else if mode = s.mode then { s with pmStatus := 0 }
    else match s.modeRefusal mode (bit v 8) with
      | some st => { s with pmStatus := st }
      | none =>
        if allHolds.any s.stands then
          ((List.finRange 4).foldl State.saveEstate { s with pmNext := some mode, pmStatus := 2 }).settleMode
        else s.changeMode mode

/-- PARTITION_MODE_WRITE (R410). -/
def execPartitionModeWrite (port : BitVec 1) (v : Word) (s : State) : Host.Outcome State Fault Refusal :=
  .next (s.pfWrite port fun s => s.pmWrite v)

end Sys2Proof.Machine
end

