-- ==== Sys2Proof/Machine/Services.lean ====
section
/-! DEFINITION. Time, power and health services (14 R303, 21 R430 to R438): TIME_BEACON, ARBITER_EPOCH, WEAR_UPDATE, CORE_FAILURE
and RETIRE_CORE. -/

namespace Sys2Proof.Machine

/-! ## TIME_BEACON (14 R303) -/

/-- A beacon, once 4,096 ns of local time have passed since the last: a region measures its offset to panel time, toward which `toff`
slews as time passes. The measured offset changes only as the two have drifted apart since the last beacon; `miss` ns of that drift
it may leave out while it stays within 14 ns of the offset (log 12). -/
def Region.measure (g : Region) (now : Nat) (miss : BitVec 5) : Region :=
  if g.beacon < Config.beaconNs then g
  else
    let off := word now - g.count
    let drift := (off - g.base).toInt
    let seen := if drift < 0 then min 0 (drift + miss.toNat) else max 0 (drift - miss.toNat)
    let part := g.target + BitVec.ofInt 64 seen
    { g with
      target := if (part - off).toInt.natAbs ≤ 14 then part else g.target + BitVec.ofInt 64 drift
      base := off, beacon := g.beacon - Config.beaconNs }

/-- TIME_BEACON. -/
def execTimeBeacon (die : DieId) (south : Bool) (miss : BitVec 5) (s : State) : Host.Outcome State Fault Refusal :=
  let x := s.die die
  .next (s.setDie die (if south then { x with south := x.south.measure s.panelNs miss } else { x with north := x.north.measure s.panelNs miss }))

/-! ## ARBITER_EPOCH (21 R431)

Powers are in mW (log 55). A share is a fraction: numerator and denominator. -/

/-- Equal shares of what is left among the dies that are not capped; a die whose demand is at most its share is capped. -/
def waterFill : (rounds : Nat) → (left : Nat) → (demand : List (Nat × Nat)) → (capped : NSet) → Nat × NSet
  | 0, left, _, capped => (left, capped)
  | n + 1, left, demand, capped =>
    let open_ := demand.filter fun d => !capped.contains d.1
    let full := open_.filter fun d => decide (d.2 * open_.length ≤ left)
    if full.isEmpty then (left, capped)
    else waterFill n (left - full.foldl (fun a d => a + d.2) 0) demand (full.foldl (fun c d => NSet.insert c d.1) capped)

/-- The grant of a die as a fraction. -/
def grantOf (left uncapped demand : Nat) (isCapped : Bool) : Nat × Nat :=
  if isCapped then (demand, 1) else (left, Nat.max 1 uncapped)

/-- duty = min(16, max(1, floor(16 × g / d))); 0 with no demand. -/
def dutyOf (g : Nat × Nat) (d : Nat) : Nat := if d = 0 then 0 else Nat.min 16 (Nat.max 1 (16 * g.1 / (g.2 * d)))

/-- The grants of every die. -/
def grants (budget : Nat) (demand : List Nat) : Fin 32 → Nat × Nat := fun i =>
  let ds := (List.range 32).map fun k => (k, demand.getD k 0)
  let (left, capped) := waterFill 32 budget ds []
  grantOf left (32 - capped.length) (demand.getD i.val 0) (capped.contains i.val)

/-- An epoch's draw (R433): `over` is set while the draw has exceeded the envelope for the last 500 epochs with every duty at 1,
so a cleared bit is set again in the next such epoch (log 55). -/
def Power.epoch (p : Power) (draw : Nat) (allLow : Bool) : Power :=
  let n := if allLow && decide (1000 * p.env.toNat < draw) then Nat.min 500 (p.saturated + 1) else 0
  { p with
    since := p.since - Config.epochNs
    draw := BitVec.ofNat 15 (saturate (draw / 1000) 32767)
    saturated := n
    overLimit := p.overLimit || decide (n = 500) }

/-- An epoch: non-plough draw, package draw and the dies' plough demands, in mW. Vector 2 signals that `over` has become set. -/
def State.epoch (s : State) (nonPlough draw : Nat) (demand : List Nat) : State :=
  let g := grants (1000 * s.power.env.toNat - nonPlough) demand
  let duty := fun (i : Fin 32) => dutyOf (g i) (demand.getD i.val 0)
  let dies := Vector.ofFn fun i => { s.dies[i] with
    duty := BitVec.ofNat 5 (duty i), grant := BitVec.ofNat 16 (saturate ((g i).1 / ((g i).2 * 1000)) 65535) }
  let p := s.power.epoch draw ((List.finRange 32).all fun i => decide (duty i ≤ 1))
  let t := { s with dies := dies, power := p }
  if p.overLimit && !s.power.overLimit then t.signal 0 2 else t

/-- ARBITER_EPOCH: once 2,000 ns of panel time have passed since the last epoch. -/
def execArbiterEpoch (nonPlough draw : Nat) (demand : List Nat) (s : State) : Host.Outcome State Fault Refusal :=
  .next (if s.power.since < Config.epochNs then s else s.epoch nonPlough draw demand)

/-! ## WEAR_UPDATE (21 R434, R435) -/

/-- WEAR_UPDATE, once a second of panel time has passed since the entry's last (R434): the entry of a die shows its retired cores; an
eol that falls below the threshold sets the entry's event. -/
def execWearUpdate (j : Fin 80) (ageing retired : BitVec 8) (eol : BitVec 16) (s : State) : Host.Outcome State Fault Refusal :=
  let x := s.health
  let n := if h : j.val < 32 then BitVec.ofNat 8 (saturate (s.die ⟨j.val, h⟩).retired.length 255) else retired
  let low := decide (x.warn.toNat ≤ (x.wear[j]).eol.toNat) && decide (eol.toNat < x.warn.toNat)
  let y := { x with wear := vset x.wear j ⟨(x.wear[j]).since - Config.wearNs, ageing, n, eol⟩ }
  .next (if (x.wear[j]).since < Config.wearNs then s else if low then { s with health := { y with evt := y.evt ||| BitVec.ofNat 80 (2 ^ j.val) } }.signal 0 2 else { s with health := y })

/-! ## CORE_FAILURE and RETIRE_CORE (21 R436) -/

/-- A retirement waits while a headland pauses the estate of the die (16 R343). -/
def State.pausedDie (s : State) (d : DieId) : Bool := (s.estate (estOf s.mode d.val)).inPause

def State.holdRetirement (s : State) (c : CoreRef) : State :=
  { s with health := { s.health with todo := if s.health.todo.contains c then s.health.todo else s.health.todo ++ [c] } }

def State.hlthStat (s : State) (pending : Bool) (status : BitVec 8) : State :=
  { s with health := { s.health with stat := ⟨pending, status⟩ } }

/-- CORE_FAILURE: the health service retires a core that fails in service; the status becomes OK, and a command that is pending
stays so. -/
def execCoreFailure (core : CoreRef) (s : State) : Host.Outcome State Fault Refusal :=
  .next (if s.pausedDie core.die then s.holdRetirement core
    else if s.retired core then s
    else (s.retireCore core).hlthStat s.health.stat.pending 0)

/-- A write of HLTH.CMD: its reserved bits ignore the write (00 R3). -/
def State.hlthWrite (s : State) (v : Word) : State :=
  if s.health.stat.pending then s.hlthStat true 1
  else
    let s := { s with health := { s.health with cmd := word (bits v 13 0) } }
    if 59 < bits v 10 5 then s.hlthStat false 2
    else if s.retired (hlthCore v) then s.hlthStat false 3
    else if s.pausedDie (hlthCore v).die then (s.holdRetirement (hlthCore v)).hlthStat true 0
    else (s.retireCore (hlthCore v)).hlthStat false 0

/-- RETIRE_CORE. -/
def execRetireCore (port : BitVec 1) (v : Word) (s : State) : Host.Outcome State Fault Refusal :=
  .next (s.pfWrite port fun s => s.hlthWrite v)

end Sys2Proof.Machine
end

