-- ==== Sys2Proof/Machine/Bringup.lean ====
section
/-! DEFINITION. Attestation (20 R427, R428), bring-up (21 R439), MSI-X (18 R374) and the writes of the registers that have no row
of their own (00 R3): ATTEST, POWER_ON, MSI_X_UNMASK and REGISTER_WRITE. -/

namespace Sys2Proof.Machine

/-! ## ATTEST (R428) -/

/-- The configuration that the report's digest covers. -/
def State.configBytes (s : State) : List Byte :=
  toBytes 1 s.mode.toNat ++ allHolds.flatMap (fun h => toBytes 8 (s.hold h).stateWord) ++
    s.links.toList.flatMap fun l => toBytes 6 l.expected.toNat ++ toBytes 6 l.peer.toNat

/-- The 256-byte report (the widths of its first fields and its padding are the model's, its version is free: log 65). -/
def State.attestation (s : State) : List Byte :=
  let body := toBytes 8 (Config.freeWord s.freshCount).toNat ++ toBytes 8 ownId.toNat ++ digest Config.firmware ++
    digest s.configBytes ++ bytesOf s.security.nonce.toList ++ toBytes 8 s.panelNs
  let body := body ++ List.replicate (192 - body.length) 0
  body ++ (List.range 64).map fun i => (Config.sm2Sign (digest body)).getD i 0

/-- ATTEST (R428): the service starts at stage 7 of bring-up; `reach` is the host's translation of SEC.ADDR. -/
def execAttest (port : BitVec 1) (v : Word) (reach : Bool) (s : State) : Host.Outcome State Fault Refusal :=
  .next (s.stewardWrite port fun s =>
    let s := { s with security := { s.security with cmd := v &&& 1 } }
    if !bit v 0 || !s.isOpen then s
    else if reach then
      let t := { s with freshCount := s.freshCount + 1, security := { s.security with stat := ⟨false, 0⟩ } }
      t.hostWriteMem s.security.addr.toNat s.attestation
    else { s with security := { s.security with stat := ⟨false, 4⟩ } })

/-! ## POWER_ON (21 R439) -/

/-- What a power cycle keeps: the fuses, and what is not the device's, the memory that each function's context reaches among it. -/
def State.powerCycle (s : State) : State :=
  { State.reset with
    cur := s.cur, sched := s.sched, freshCount := s.freshCount, nextId := s.nextId, outbox := s.outbox, iommu := s.iommu
    hostMem := s.hostMem, peers := s.peers, dies := s.dies.map fun d => { retired := d.retired }
    functions := s.functions.map fun p => (p.1, { hostMem := p.2.hostMem }) }

/-- Stage 2 in a region: its counter has counted since the region's power-up, within 1 ms of the start of panel time, and the first
beacon sets `toff` (14 R303; log 12). `off` is the offset that the beacon measures. -/
def Region.start (now : Nat) (off : Int) : Region :=
  let o := max (-1000000) (min off (min now 1000000))
  { count := BitVec.ofInt 64 (now - o), toff := BitVec.ofInt 64 o, target := BitVec.ofInt 64 o, base := BitVec.ofInt 64 o }

/-- Stage 2: the clock regions, and the panel time reference. -/
def State.startClocks (s : State) (rep : BootReport) : State :=
  let region := fun (d : Fin 32) (south : Bool) => Region.start rep.panelNs (FMap.get 0 rep.offsets (2 * d.val + south.toNat))
  { s with panelNs := rep.panelNs, dies := Vector.ofFn fun d => { s.dies[d] with north := region d false, south := region d true } }

/-- Stages 3 and 4: pseudo-channels of the memory sites and lanes of the span links that fail are recorded in the wear entries. -/
def State.recordFailed (s : State) (failed : List (Nat × BitVec 8)) : State :=
  let wear := Vector.ofFn fun (j : Fin 80) =>
    let w := s.health.wear[j]
    if j.val < 32 then w else { w with retired := FMap.get w.retired failed j.val }
  { s with health := { s.health with wear := wear } }

/-- Bring-up stops at a stage. -/
def State.bootFailed (s : State) (stage : BitVec 8) : State := { s with bootStage := stage, bootResult := 1 }

/-- Stages 5 to 7: failing cores are retired, the mode is set, and the register space opens. -/
def State.bootEnd (s : State) (rep : BootReport) : State :=
  let s := rep.failing.foldl State.markRetired s
  let ests := s.estates.map fun x => { x with due := s.panelNs + 1000 * x.interval.toNat }
  { s with
    mode := 4, estates := ests, bootStage := 7, bootResult := 0, transplant := { s.transplant with secret := rep.secret } }

/-- POWER_ON: the stages of bring-up, as far as they go. -/
def execPowerOn (rep : BootReport) (s : State) : Host.Outcome State Fault Refusal :=
  let s := s.powerCycle
  let trained := (s.startClocks rep).recordFailed rep.failed
  .next (if !rep.firmwareOk then s.bootFailed 1
    else if rep.stopAt = 2 then s.bootFailed 2
    else if rep.stopAt = 4 then trained.bootFailed 4
    else trained.bootEnd rep)

/-! ## MSI_X_UNMASK (18 R374) -/

/-- Sends the messages of vectors that are pending and no longer masked. -/
def State.release_ (s : State) (f : Fin 64) : State :=
  (List.finRange 3).foldl (fun s v =>
    let x := s.fn f
    if x.vecPend[v] && !x.fnMask && !x.vecMask[v] then
      let s := s.setFn f { x with vecPend := vset x.vecPend v false }
      { s with outbox := s.outbox ++ [.msi f v] }
    else s) s

/-- MSI_X_UNMASK: a vector's mask, or the function's, is cleared. -/
def execMsiXUnmask (fn : Fin 64) (w : MaskClear) (s : State) : Host.Outcome State Fault Refusal :=
  .next (s.fnWrite fn w.port fun s =>
    let x := s.fn fn
    let s := match w.vec with
      | some v => s.setFn fn { x with vecMask := vset x.vecMask v false }
      | none => s.setFn fn { x with fnMask := false }
    s.release_ fn)

/-! ## REGISTER_WRITE (00 R3) -/

/-- A write of a register that every function has. -/
def State.fnReg (s : State) (fn : Fin 64) (port : BitVec 1) (f : Function → Function) : State :=
  s.fnWrite fn port fun s => s.setFn fn (f (s.fn fn))

def State.modEstate (s : State) (e : Fin 4) (f : Estate → Estate) : State := s.setEstate e (f (s.estate e))

/-- A write of a register of an estate's blocks. -/
def State.writeEstate (s : State) (port : BitVec 1) (e : Fin 4) (f : Estate → Estate) : State := s.estWrite port e fun s => s.modEstate e f

/-- A base register of a ring: ignored while the ring is enabled. -/
def Ring.setBase (x : Ring) (v : Word) : Ring := if x.en then x else { x with base := v }

/-- The registers of a function's serving block and collective ring. -/
def State.writeServing (s : State) (fn : Fin 64) (port : BitVec 1) (f : Serving → Serving) : State :=
  s.vfWrite fn port fun h s => s.modServing h f

/-- The stored value of a register whose write has no row of its own: RW fields take the value, W1C fields are cleared. HM.ARG keeps its
reserved bits, which its table calls RW (log 122). -/
def State.writeHostReg (s : State) (fn : Fin 64) (port : BitVec 1) (r : HostReg) (v : Word) : State :=
  match r with
  | .hmCmdOther e => if 1 ≤ bits v 7 0 ∧ bits v 7 0 ≤ 9 then s else s.estWrite port e fun s => s.hmWrite e v
  | .hmArg e => s.writeEstate port e fun x => { x with hmArg := v }
  | .hmTime e => s.writeEstate port e fun x => { x with hmTime := v }
  | .hmDpr e => s.writeEstate port e fun x => { x with hmDpr := v }
  | .hmDprLen e => s.writeEstate port e fun x => { x with hmDprLen := zext v 24 }
  | .partner e => s.writeEstate port e fun x => { x with partner := v &&& 0x9F }
  | .lseed e h => s.estWrite port e fun s => s.modHold ⟨e, h⟩ fun x => { x with lseed := if lo32 v = 0 then 1 else lo32 v }
  | .pw e h i => s.estWrite port e fun s => s.modHold ⟨e, h⟩ fun x => { x with weights := vset x.weights i (BitVec.ofNat 24 v.toNat) }
  | .ringBase ring => s.writeServing fn port fun x => x.setRing ring ((x.ring ring).setBase v)
  | .ringCtl ring => s.vfWrite fn port fun h s => if bit v 16 && !((s.serving h).ring ring).en then s else s.writeControl h ring v
  | .rqTail => s.writeServing fn port fun x => { x with rq := { x.rq with tail := x.rq.index v } }
  | .lqTail q => s.writeServing fn port fun x => { x with lq := vset x.lq q { x.lq[q] with tail := (x.lq[q]).index v } }
  | .kvBase => s.writeServing fn port fun x => { x with kvBase := v }
  | .crTaddr => s.writeServing fn port fun x => if x.cr.en then x else { x with crTaddr := v }
  | .hcCmdOther => if 1 ≤ bits v 7 0 ∧ bits v 7 0 ≤ 3 then s
    else s.fnWrite fn port fun s => s.hcCommand fn (bits v 7 0) fun s => s.hcStat fn false 2
  | .hcArg => s.fnReg fn port fun x => { x with hcArg := v }
  | .hcAddr => s.fnReg fn port fun x => { x with hcAddr := v }
  | .hcLen => s.fnReg fn port fun x => { x with hcLen := v }
  | .hostEvt => s.pfWrite port fun s => { s with hostEvt := s.hostEvt &&& ~~~(v.setWidth 7) }
  | .hostMask => s.pfWrite port fun s => { s with hostMask := v.setWidth 7 }
  | .slCtl k => s.pfWrite port fun s =>
    { s with links := vset s.links k { s.links[k] with en := bit v 0, expected := BitVec.ofNat 48 (bits v 63 16) } }
  | .collTmo => s.pfWrite port fun s =>
    if 1 ≤ bits v 13 0 ∧ bits v 13 0 ≤ 10000 then { s with collTmo := BitVec.ofNat 14 (bits v 13 0) } else s
  | .trTicket i => s.pfWrite port fun s => { s with transplant := { s.transplant with ticket := vset s.transplant.ticket i v } }
  | .trCmdOther => if bits v 7 0 = 1 ∨ bits v 7 0 = 2 then s else s.trWrite port (bits v 7 0) v id
  | .hvTab => s.pfWrite port fun s => { s with harvest := { s.harvest with tab := v } }
  | .hvN => s.pfWrite port fun s => { s with harvest := { s.harvest with n := v } }
  | .hvStep => s.pfWrite port fun s => { s with harvest := { s.harvest with step := v } }
  | .hvCmdOther => if bits v 7 0 = 1 ∨ bits v 7 0 = 2 then s else s.hvWrite port (bits v 7 0) v id
  | .secNonce i => s.stewardWrite port fun s => { s with security := { s.security with nonce := vset s.security.nonce i v } }
  | .secAddr => s.stewardWrite port fun s => { s with security := { s.security with addr := v } }
  | .stwLease => s.stewardWrite port fun s =>
    if 100 ≤ bits v 16 0 ∧ bits v 16 0 ≤ 60000 then { s with steward := { s.steward with lease := BitVec.ofNat 17 (bits v 16 0) } } else s
  | .pwrEnv => s.pfWrite port fun s =>
    if 6000 ≤ bits v 14 0 ∧ bits v 14 0 ≤ 14000 then { s with power := { s.power with env := BitVec.ofNat 15 (bits v 14 0) } } else s
  | .pwrStat => s.pfWrite port fun s => { s with power := { s.power with overLimit := s.power.overLimit && !bit v 32 } }
  | .wearWarn => s.pfWrite port fun s => { s with health := { s.health with warn := v.setWidth 16 } }
  | .wearEvt high => s.pfWrite port fun s =>
    let m : BitVec 80 := if high then BitVec.ofNat 80 (bits v 15 0 * 2 ^ 64) else v.setWidth 80
    { s with health := { s.health with evt := s.health.evt &&& ~~~m } }
  | .priAlloc => s.fnReg fn port fun x => { x with priAlloc := zext v 32 }
  | .msixMask vec => s.fnReg fn port fun x => { x with vecMask := vset x.vecMask vec true }
  | .msixFnMask => s.fnReg fn port fun x => { x with fnMask := true }
  | .numVfs => s.pfWrite port fun s => if port = 0 && decide (bits v 15 0 ≤ 63) then { s with numVfs := BitVec.ofNat 16 (bits v 15 0) } else s
  | .readOnly early => if fn ≠ 0 then s else if early then s.stewardWrite port id else s.pfWrite port id

/-- REGISTER_WRITE. -/
def execRegisterWrite (fn : Fin 64) (port : BitVec 1) (r : HostReg) (v : Word) (s : State) : Host.Outcome State Fault Refusal :=
  .next (s.writeHostReg fn port r v)

end Sys2Proof.Machine
end

