-- ==== Sys2Proof/Machine/PoolMem.lean ====
section
/-! DEFINITION. Scalar loads and stores, bit-granular access, and circular buffers (07 R157 to R167). -/

namespace Sys2Proof.Machine

/-- A load of `z` bytes (R157): the address is g[a] + SExt(imm16) × z. -/
def load (z : Nat) (ext : Nat → Word) (w : W32) (d a : Reg) (i : BitVec 16) (s : State) :
    Host.Outcome State Fault Refusal :=
  runOp [a] d (fun s r t vs =>
    let ea := vs.headD 0 + simm i * word z
    if ea.toNat % z ≠ 0 then .trap { cause := 0x11, info := wordInfo w, addr := ea }
    else (s.locate r (ownerOf t.cw) ea z { read := true }).eff (wordInfo w) ea fun l =>
      s.loads r [l] fun s => if s.poisoned l then .trap { cause := 0x52, addr := ea } else .done s (ext (ofBytes (s.readLoc l)))) s

/-- A store of the low `z` bytes of g[d] (R157): at first it is visible to its slot alone (11 R245). -/
def store (z : Nat) (w : W32) (d a : Reg) (i : BitVec 16) (s : State) : Host.Outcome State Fault Refusal :=
  runOp [a, d] 0 (fun s r t vs =>
    let ea := vs.headD 0 + simm i * word z
    if ea.toNat % z ≠ 0 then .trap { cause := 0x11, info := wordInfo w, addr := ea }
    else (s.locate r (ownerOf t.cw) ea z { write := true }).eff (wordInfo w) ea fun l =>
      .done (s.buffer r { hold := s.taskHold r t, home := t.home, loc := l, bytes := toBytes z (vs.getD 1 0).toNat }) 0) s

/-- `ld.s8` (R157). -/
def execLdS8 (d a : Reg) (i : BitVec 16) (s : State) : Host.Outcome State Fault Refusal :=
  load 1 (fun v => sext (word v) 8) (encRI 0x10 d a i) d a i s

/-- `ld.n8` (R157). -/
def execLdN8 (d a : Reg) (i : BitVec 16) (s : State) : Host.Outcome State Fault Refusal :=
  load 1 (fun v => word v) (encRI 0x11 d a i) d a i s

/-- `ld.s16` (R157). -/
def execLdS16 (d a : Reg) (i : BitVec 16) (s : State) : Host.Outcome State Fault Refusal :=
  load 2 (fun v => sext (word v) 16) (encRI 0x12 d a i) d a i s

/-- `ld.n16` (R157). -/
def execLdN16 (d a : Reg) (i : BitVec 16) (s : State) : Host.Outcome State Fault Refusal :=
  load 2 (fun v => word v) (encRI 0x13 d a i) d a i s

/-- `ld.s32` (R157). -/
def execLdS32 (d a : Reg) (i : BitVec 16) (s : State) : Host.Outcome State Fault Refusal :=
  load 4 (fun v => sext (word v) 32) (encRI 0x14 d a i) d a i s

/-- `ld.n32` (R157). -/
def execLdN32 (d a : Reg) (i : BitVec 16) (s : State) : Host.Outcome State Fault Refusal :=
  load 4 (fun v => word v) (encRI 0x15 d a i) d a i s

/-- `ld.64` (R157). -/
def execLd64 (d a : Reg) (i : BitVec 16) (s : State) : Host.Outcome State Fault Refusal :=
  load 8 (fun v => word v) (encRI 0x16 d a i) d a i s

/-- `st.8` (R157). -/
def execSt8 (d a : Reg) (i : BitVec 16) (s : State) : Host.Outcome State Fault Refusal :=
  store 1 (encRI 0x18 d a i) d a i s

/-- `st.16` (R157). -/
def execSt16 (d a : Reg) (i : BitVec 16) (s : State) : Host.Outcome State Fault Refusal :=
  store 2 (encRI 0x19 d a i) d a i s

/-- `st.32` (R157). -/
def execSt32 (d a : Reg) (i : BitVec 16) (s : State) : Host.Outcome State Fault Refusal :=
  store 4 (encRI 0x1a d a i) d a i s

/-- `st.64` (R157). -/
def execSt64 (d a : Reg) (i : BitVec 16) (s : State) : Host.Outcome State Fault Refusal :=
  store 8 (encRI 0x1b d a i) d a i s

/-! ## Bit-granular access (R158) -/

/-- A bit field that a descriptor names: the first word touched, the bit offset in it, the width, and whether a second word
is touched. -/
structure BitPlace where
  first : Word
  shift : Nat
  width : Nat
  two : Bool

def bitPlace (base desc : Word) : BitPlace :=
  let w := bits desc 36 32 + 1
  let p := bits desc 31 0 % 32
  ⟨base + word (bits desc 31 0 / 32 * 4), p, w, decide (32 < p + w)⟩

/-- The words of a field, each checked under R153, R154 and the range-lock table: the first word whole, then the second
(log 97). -/
def State.locateWord (s : State) (r : SlotRef) (a : Word) : Got Loc :=
  match s.poolRange r.core (poolOffset a) 4 with
  | none => .trap 0x12
  | some (t, b) => if s.lockedAt r.core (.pool t.idx) b 4 then .trap 0x30 else .ok (.pool t b 4)

def State.locateBits (s : State) (r : SlotRef) (b : BitPlace) : Got (List Loc) :=
  let last := if b.two then b.first + 4 else b.first
  if !inPoolSpace b.first || !inPoolSpace last then .trap 0x12
  else (s.locateWord r b.first).bind fun l =>
    if b.two then (s.locateWord r last).bind fun l' => .ok [l, l'] else .ok [l]

/-- The operand checks of a bit access, in the order of R158. -/
def bitChecks (base desc : Word) (store : Bool) : Option (BitVec 8) :=
  if base.toNat % 4 ≠ 0 then some 0x11
  else if bits desc 63 38 ≠ 0 || (store && bit desc 37) then some 0x14
  else none

/-- `ldbit` (R158). A report names the first word touched, whichever word raises it (log 125). -/
def execLdbit (d a b : Reg) (h : BitVec 1) (s : State) : Host.Outcome State Fault Refusal :=
  let w := wordInfo (encRR 0x03 d a b h 0 0x00)
  runOp [a, b] d (fun s r _ vs =>
    let base := vs.headD 0
    let desc := vs.getD 1 0
    match bitChecks base desc false with
    | some c => .trap { cause := c, info := w, addr := base }
    | none =>
      let p := bitPlace base desc
      (s.locateBits r p).eff w p.first fun ls =>
        s.loads r ls fun s => if ls.any s.poisoned then .trap { cause := 0x52, addr := p.first }
        else
          let f := word (ofBytes (ls.flatMap s.readLoc) / 2 ^ p.shift % 2 ^ p.width)
          .done s (if bit desc 37 then sext f p.width else f)) s

/-- The bytes of the words of a field as one location, where they lie in one pool. -/
def joined : List Loc → Option Loc
  | [.pool c off len] => some (.pool c off len)
  | [.pool c off len, .pool d off' len'] => if c = d ∧ off' = off + len then some (.pool c off (len + len')) else none
  | _ => none

/-- `stbit` (R158): a store (11 R243), whose words are read and written back as one indivisible access when it is performed. Where they lie
in two pools, it is performed as it retires, after the slot's earlier stores (log 93). -/
def execStbit (d a b : Reg) (h : BitVec 1) (s : State) : Host.Outcome State Fault Refusal :=
  let w := wordInfo (encRR 0x03 d a b h 0 0x01)
  runOp [a, b, d] 0 (fun s r t vs =>
    let base := vs.headD 0
    let desc := vs.getD 1 0
    match bitChecks base desc true with
    | some c => .trap { cause := c, info := w, addr := base }
    | none =>
      let p := bitPlace base desc
      (s.locateBits r p).eff w p.first fun ls => match joined ls with
        | some l =>
          .done (s.buffer r
            { hold := s.taskHold r t, home := t.home, loc := l, bytes := toBytes (4 * ls.length) ((vs.getD 2 0).toNat % 2 ^ p.width)
              am := some (.bits p.shift p.width) }) 0
        | none => s.fences r fun s =>
          let bs := toBytes (4 * ls.length) (insertBits p.shift p.width (ofBytes (ls.flatMap s.readLoc)) (vs.getD 2 0).toNat)
          .done ((ls.zip [bs.take 4, bs.drop 4]).foldl (fun s (l, x) => s.storeNow r t l x) s) 0) s

/-! ## Circular buffers (R159 to R167) -/

/-- A drill operation of the core names a handle (R164). -/
def Core.drillNames (c : Core) (k : BitVec 4) : Bool := c.drq.any fun o => o.dring = some k || o.sring = some k

/-- What `cb.init` refuses after the handle is not busy (R164). -/
def ringRefused (part base v : Word) : Bool :=
  let size := (bits v 15 0 + 1) * 8
  let n := bits v 31 16 + 1
  bits v 63 35 ≠ 0 || bits v 33 32 = 3 || 4096 < n || base.toNat % 8 ≠ 0 || base.toNat < (spbase part).toNat ||
    poolEnd.toNat < base.toNat + size * n || (bits v 33 32 = 1 && size ≠ 8)

/-- `cb.init` (R164). -/
def execCbInit (a b : Reg) (h : BitVec 1) (k : BitVec 4) (s : State) : Host.Outcome State Fault Refusal :=
  let w := wordInfo (encRR 0x03 0 a b h k 0x02)
  runOp [a, b] 0 (fun s r _ vs =>
    let c := s.core r.core
    let base := vs.headD 0
    let v := vs.getD 1 0
    if c.drillNames k then .trap { cause := 0x3C, info := w }
    else if ringRefused c.part base v then .trap { cause := 0x3A, info := w }
    else .done (s.setCore r.core (c.setHandle k
      { init := true, base := base, size := (bits v 15 0 + 1) * 8, slots := bits v 31 16 + 1, head := 0, tail := 0, fill := 0
        prod := BitVec.ofNat 2 (bits v 33 32), cons := BitVec.ofNat 1 (bits v 34 34) })) 0) s

/-- The checks of a `cb` instruction on a handle, in the order of R165 and R166. -/
def cbChecks (x : Handle) (wrongSide : Bool) (n limit : Nat) : Option (BitVec 8) :=
  if !x.init then some 0x38 else if wrongSide then some 0x39 else if limit < n then some 0x3B else none

/-- `cb.need` (R165): it completes at the first moment at which the slots are filled. While it waits, its checks meet the handle as it
is then, also where another slot has set it up anew (log 117). -/
def execCbNeed (a : Reg) (h : BitVec 1) (k : BitVec 4) (s : State) : Host.Outcome State Fault Refusal :=
  runOp [a] 0 (fun s r t vs =>
    let x := (s.core r.core).handle k
    let n := (vs.headD 0).toNat
    if t.hasMet (.need k n) then .done s 0
    else match cbChecks x (x.cons ≠ 0) n x.slots with
    | some c => .trap { cause := c, info := wordInfo (encRR 0x03 0 a 0 h k 0x03) }
    | none => if n ≤ x.fill then .done s 0 else waitFor r (.need k n)) s

/-- `cb.room` (R165): it completes at the first moment at which the slots are free. A handle set up anew meanwhile is met as it is then
(log 117). -/
def execCbRoom (a : Reg) (h : BitVec 1) (k : BitVec 4) (s : State) : Host.Outcome State Fault Refusal :=
  runOp [a] 0 (fun s r t vs =>
    let x := (s.core r.core).handle k
    let n := (vs.headD 0).toNat
    if t.hasMet (.room k n) then .done s 0
    else match cbChecks x (x.prod ≠ 0) n x.slots with
    | some c => .trap { cause := c, info := wordInfo (encRR 0x03 0 a 0 h k 0x04) }
    | none => if n ≤ x.slots - x.fill then .done s 0 else waitFor r (.room k n)) s

/-- A consumer's advance (R160). -/
def Handle.consume (x : Handle) (n : Nat) : Handle := { x with head := (x.head + n) % x.slots, fill := x.fill - n }
/-- A producer's advance (R160). -/
def Handle.produce (x : Handle) (n : Nat) : Handle := { x with tail := (x.tail + n) % x.slots, fill := x.fill + n }

/-- `cb.adv.h` (R166): a release at core scope (R162). -/
def execCbAdvH (a : Reg) (h : BitVec 1) (k : BitVec 4) (s : State) : Host.Outcome State Fault Refusal :=
  runOp [a] 0 (fun s r _ vs =>
    let x := (s.core r.core).handle k
    let n := (vs.headD 0).toNat
    match cbChecks x (x.cons ≠ 0) n x.fill with
    | some c => .trap { cause := c, info := wordInfo (encRR 0x03 0 a 0 h k 0x05) }
    | none => s.fences r fun s => .done (s.setCore r.core ((s.core r.core).setHandle k (x.consume n))) 0) s

/-- `cb.adv.t` (R166): a release at core scope (R162). -/
def execCbAdvT (a : Reg) (h : BitVec 1) (k : BitVec 4) (s : State) : Host.Outcome State Fault Refusal :=
  runOp [a] 0 (fun s r _ vs =>
    let x := (s.core r.core).handle k
    let n := (vs.headD 0).toNat
    match cbChecks x (x.prod ≠ 0) n (x.slots - x.fill) with
    | some c => .trap { cause := c, info := wordInfo (encRR 0x03 0 a 0 h k 0x06) }
    | none => s.fences r fun s => .done (s.setCore r.core ((s.core r.core).setHandle k (x.produce n))) 0) s

/-- The value of `cb.stat` (R167). -/
def Handle.stat (x : Handle) : Word :=
  if !x.init then 0
  else word (x.fill + x.head * 2 ^ 16 + x.tail * 2 ^ 32 + 2 ^ 48 + x.prod.toNat * 2 ^ 49 + x.cons.toNat * 2 ^ 51)

/-- `cb.stat` (R167). -/
def execCbStat (d : Reg) (_ : BitVec 1) (k : BitVec 4) (s : State) : Host.Outcome State Fault Refusal :=
  readOp [] d (fun s r _ _ => ((s.core r.core).handle k).stat) s

end Sys2Proof.Machine
end

