-- ==== Sys2Proof/Machine/Drill.lean ====
section
/-! DEFINITION. The drill (10 R232 to R239): issue checks, rows, and the drill instructions. -/

namespace Sys2Proof.Machine

/-! ## The sides of an operation (R234) -/

/-- Where the rows of a side lie. -/
inductive SideKind where
  | global
  | pool
  | fill
deriving DecidableEq, Repr

def DrKind.src : DrKind → SideKind
  | .copyGp => .global
  | .copyPg => .pool
  | .copyPp => .pool
  | .copyGg => .global
  | .gathG => .global
  | .gathP => .pool
  | .scatG => .pool
  | .scatP => .pool
  | .fillG => .fill
  | .fillP => .fill
def DrKind.dst : DrKind → SideKind
  | .copyGp => .pool
  | .copyPg => .global
  | .copyPp => .pool
  | .copyGg => .global
  | .gathG => .pool
  | .gathP => .pool
  | .scatG => .global
  | .scatP => .pool
  | .fillG => .global
  | .fillP => .pool
/-- The source, or the destination, is indexed by the list. -/
def DrKind.gathers (k : DrKind) : Bool := k = .gathG || k = .gathP
def DrKind.scatters (k : DrKind) : Bool := k = .scatG || k = .scatP

/-- The address of source row `i`, and of destination row `i`, where the side is no ring (R234). -/
def DrOp.srcAddr (o : DrOp) (i : Nat) : Word :=
  o.src + BitVec.ofInt 64 ((if o.kind.gathers then (o.list.getD i 0 : Int) else i) * o.spitch)
def DrOp.dstAddr (o : DrOp) (i : Nat) : Word :=
  o.dst + BitVec.ofInt 64 ((if o.kind.scatters then (o.list.getD i 0 : Int) else i) * o.dpitch)

/-- The side is tested and locked: it is neither a fill source nor a ring (R235). -/
def DrOp.srcRows (o : DrOp) : Bool := o.kind.src ≠ .fill && o.sring.isNone
def DrOp.dstRows (o : DrOp) : Bool := o.dring.isNone

/-! ## Issue (R233, R235) -/

/-- The operation that a descriptor names. -/
def drOp (kind : DrKind) (pasid : BitVec 20) (n : Nat) (bs : List Byte) : DrOp :=
  let rings := field bs 28 2
  { kind := kind, pasid := pasid, n := n
    dst := word (field bs 0 8), src := word (field bs 8 8), len := field bs 16 4
    dpitch := (BitVec.ofNat 32 (field bs 20 4)).toInt, spitch := (BitVec.ofNat 32 (field bs 24 4)).toInt
    dring := if rings.testBit 4 then some (BitVec.ofNat 4 rings) else none
    sring := if rings.testBit 12 then some (BitVec.ofNat 4 (rings / 256)) else none
    pat := word (field bs 40 8) }

/-- Check 2 of R235. -/
def descriptorRefused (o : DrOp) (n : Word) (bs : List Byte) : Bool :=
  let rings := field bs 28 2
  rings / 32 % 8 ≠ 0 || rings / 2 ^ 13 ≠ 0 || field bs 30 2 ≠ 0 || o.len = 0 || decide (1048576 < o.len) ||
    decide (16777215 < n.toNat) || (o.dring.isSome && o.kind.dst ≠ .pool) || (o.sring.isSome && o.kind.src ≠ .pool)

/-- Check 3 of R235: each test on the destination ring and on the source ring, before the next test. -/
def ringCheck (c : Core) (o : DrOp) : Option (BitVec 8) :=
  let d := o.dring.map c.handle
  let r := o.sring.map c.handle
  if d.any (!·.init) || r.any (!·.init) then some 0x38
  else if d.any (fun x => x.prod ≠ 2) || r.any (fun x => x.cons ≠ 1) then some 0x39
  else if d.any (fun x => x.size < o.len) || r.any (fun x => x.size < o.len) then some 0x33
  else none

/-- Check 5 of R235 on one row of one side: its cause. -/
def State.rowCause (s : State) (c : CoreRef) (kind : SideKind) (a : Word) (len : Nat) : Option (BitVec 8) :=
  match kind with
  | .fill => none
  | .global =>
    if poolSpace.toNat < a.toNat + len then some 0x33
    else if !canonical a || !canonical (a + word (len - 1)) then some 0x13
    else none
  | .pool => if inPoolSpace a && s.rowOk c (poolOffset a) len then none else some 0x12

/-- The first row and side at fault, with its cause. -/
def State.rowsCause (s : State) (c : CoreRef) (o : DrOp) : Option (Word × BitVec 8) :=
  (List.range o.n).findSome? fun i =>
    let src := if o.srcRows then (s.rowCause c o.kind.src (o.srcAddr i) o.len).map fun x => (o.srcAddr i, x) else none
    src.orElse fun _ => if o.dstRows then (s.rowCause c o.kind.dst (o.dstAddr i) o.len).map fun x => (o.dstAddr i, x) else none

/-- The entries of one side (check 6). -/
def sideSpans (c : CoreRef) (pasid : BitVec 20) (kind : SideKind) (write : Bool) (len : Nat) (rows : List Word) : List Lock :=
  match kind with
  | .fill => []
  | .global => rows.foldl (fun ls a => addSpan (.virt pasid) a.toNat (a.toNat + len - 1) write ls) []
  | .pool => poolLocks c write (rows.map fun a => (poolOffset a, len))

/-- The entries of an operation: the source side's, then the destination side's. -/
def DrOp.needs (o : DrOp) (c : CoreRef) : List Lock :=
  let rows := List.range o.n
  (if o.srcRows then sideSpans c o.pasid o.kind.src false o.len (rows.map o.srcAddr) else []) ++
    (if o.dstRows then sideSpans c o.pasid o.kind.dst true o.len (rows.map o.dstAddr) else [])

/-- Checks 5 and 6, then the queue place (R231, R232). An instruction that waits for its place is executed anew at the slot's next turn,
checks included (log 135). -/
def State.issueDr (s : State) (r : SlotRef) (t : Task) (info : Word) (o : DrOp) : Eff :=
  let c := s.core r.core
  match s.rowsCause r.core o with
  | some (a, x) => .trap { cause := x, info := info, addr := a }
  | none =>
    let locks := o.needs r.core
    if Config.lockEntries < locks.length then .trap { cause := 0x33, info := info }
    else if Config.engineEntries ≤ c.drq.length || !c.lockRoom locks.length then .wait []
    else
      let o := { o with origin := t.origin r.slot s.nextId, locks := locks }
      let s := s.flushLocks r.core locks
      .done { s.setCore r.core { s.core r.core with drq := (s.core r.core).drq ++ [o] } with nextId := s.nextId + 1 } 0

/-- Check 4 of R235, the index list, and what follows it. A list that R233's alignment does not admit is refused here with 0x33 (log 128). -/
def State.listDr (s : State) (r : SlotRef) (t : Task) (info list : Word) (o : DrOp) : Eff :=
  if !(o.kind.gathers || o.kind.scatters) || o.n = 0 then s.issueDr r t info o
  else if 4096 < o.n || !ownScratch (s.core r.core).part list (4 * o.n) 4 then
    .trap { cause := 0x33, info := info, addr := list }
  else s.loads r [ownLoc r.core list (4 * o.n)] fun s => match s.ownRead r.core list (4 * o.n) 4 with
    | some (x, a) => .trap { cause := x, info := if x = 0x30 then info else 0, addr := a }
    | none =>
      let bs := Memory.read (s.core r.core).pool.bytes (poolOffset list) (4 * o.n)
      s.issueDr r t info { o with list := (List.range o.n).map fun i => field bs (4 * i) 4 }

/-- A drill operation (R239). -/
def drill (kind : DrKind) (w : W32) (a b : Reg) (s : State) : Host.Outcome State Fault Refusal :=
  let info := wordInfo w
  runOp [a, b] 0 (fun s r t vs =>
    let at_ := vs.headD 0
    let n := vs.getD 1 0
    if !ownScratch (s.core r.core).part at_ 48 8 then .trap { cause := 0x33, info := info, addr := at_ }
    else s.loads r [ownLoc r.core at_ 48] fun s => match s.ownRead r.core at_ 48 8 with
      | some (x, a) => .trap { cause := x, info := if x = 0x30 then info else 0, addr := a }
      | none =>
        let c := s.core r.core
        let bs := Memory.read c.pool.bytes (poolOffset at_) 48
        let o := drOp kind (ownerOf t.cw) n.toNat bs
        if descriptorRefused o n bs then .trap { cause := 0x33, info := info }
        else match ringCheck c o with
          | some x => .trap { cause := x, info := info }
          | none => s.listDr r t info (word (field bs 32 8)) o) s

/-! ## Completion and failure (R232, R237) -/

/-- An operation leaves its queue, and the event-pending bit of its slot is set, also where it fails or is cancelled (log 131). -/
def State.dropDr (s : State) (c : CoreRef) (o : DrOp) : State :=
  let s := s.setCore c { s.core c with drq := (s.core c).drq.filter fun x => x.origin.seq ≠ o.origin.seq }
  s.setEvent ⟨c, o.origin.slot⟩

/-- An operation fails: later operations of its slot are cancelled, and the cause goes to the issuing task, with the row
index (R237, 12 R266). -/
def State.failDr (s : State) (c : CoreRef) (o : DrOp) (cause : BitVec 8) (addr : Word) : State :=
  let s := s.dropDr c o
  let s := ((s.core c).drq.filter fun x => x.origin.slot = o.origin.slot).foldl (fun s x => s.dropDr c x) s
  (s.abandon c.die (.drill c.idx)).engineFault c o.origin cause (word o.next) addr

/-! ## Rows (R236) -/

/-- The bytes of a row, each with the mark that its line was poisoned. -/
abbrev RowData := List (Byte × Bool)

/-- The location of a ring slot. -/
def Handle.slotLoc (x : Handle) (c : CoreRef) (i len : Nat) : Loc := .pool c (poolOffset (x.base + word (x.size * i))) len

/-- The location of a row in a pool. -/
def poolLoc (c : CoreRef) (a : Word) (len : Nat) : Loc :=
  .pool (windowCore c (poolOffset a)) (poolOffset a % Config.poolBytes) len

/-- The location of a global row, translated as the row runs. -/
def State.rowLoc (s : State) (c : CoreRef) (pasid : BitVec 20) (a : Word) (len : Nat) (n : Need) : Got Loc :=
  (s.translateRange c.die (.drill c.idx) pasid a.toNat n len).bind fun ks => .ok (.mem ks pasid a.toNat)

def State.srcLoc (s : State) (c : CoreRef) (o : DrOp) : Got (Option Loc) :=
  match o.sring with
  | some k =>
    let x := (s.core c).handle k
    .ok (some (x.slotLoc c x.head o.len))
  | none => match o.kind.src with
    | .fill => .ok none
    | .pool => .ok (some (poolLoc c (o.srcAddr o.next) o.len))
    | .global => (s.rowLoc c o.pasid (o.srcAddr o.next) o.len { read := true }).bind fun l => .ok (some l)

def State.dstLoc (s : State) (c : CoreRef) (o : DrOp) : Got Loc :=
  match o.dring with
  | some k =>
    let x := (s.core c).handle k
    .ok (x.slotLoc c x.tail o.len)
  | none => match o.kind.dst with
    | .global => s.rowLoc c o.pasid (o.dstAddr o.next) o.len { write := true }
    | _ => .ok (poolLoc c (o.dstAddr o.next) o.len)

/-- The poison marks of the bytes of a location. -/
def State.marks (s : State) : Loc → List Bool
  | .pool c off len => (List.range len).map fun i => (s.core c).pool.poison.contains ((off + i) / 64)
  | .mem ks _ _ => ks.map fun k => s.memPoison.contains (k / 64)

/-- The source bytes of a row: those of a location, or of the fill pattern. -/
def State.rowData (s : State) (o : DrOp) : Option Loc → RowData
  | some l => (s.readLoc l).zip (s.marks l)
  | none => (List.range o.len).map fun j => (BitVec.ofNat 8 (o.pat.toNat / 256 ^ (j % 8)), false)

/-- The poison of lines after a single write of bytes at addresses: a line that receives a poisoned byte is poisoned; one
whose 64 bytes are all written, once or more, none of them poisoned, is cleared (R226). -/
def poisonAfter (poison : NSet) (ws : List (Nat × Bool)) : NSet :=
  ((ws.map fun w => w.1 / 64).eraseDups).foldl (fun p l =>
    let mine := ws.filter fun w => w.1 / 64 = l
    if mine.any (·.2) then NSet.insert p l else if (mine.map (·.1)).eraseDups.length = 64 then NSet.erase p l else p) poison

/-- Writes a row at a location. -/
def State.writeRow (s : State) (h : HoldRef) (l : Loc) (row : RowData) : State :=
  let bad := row.map (·.2)
  let s := s.writeLoc h l (row.map (·.1))
  match l with
  | .pool c off len =>
    let p := (s.core c).pool
    s.setCore c { s.core c with pool := { p with poison := poisonAfter p.poison (((List.range len).map (off + ·)).zip bad) } }
  | .mem ks _ _ => { s with memPoison := poisonAfter s.memPoison (ks.zip bad) }

/-- The address at which a global row fails. -/
def State.failAddr (s : State) (c : CoreRef) (pasid : BitVec 20) (a : Word) (n : Need) (len : Nat) : Word :=
  match (List.range len).find? fun i =>
      match s.translate c.die (.drill c.idx) pasid ((a.toNat + i) % 2 ^ 64) n with
      | .trap _ => true
      | _ => false with
  | some i => addr a i
  | none => a

/-- A ring side cannot go on: the destination is full or the source empty (R236). -/
def Core.ringWaits (c : Core) (o : DrOp) : Bool :=
  (match o.dring with | some k => (c.handle k).fill = (c.handle k).slots | none => false) ||
    (match o.sring with | some k => (c.handle k).fill = 0 | none => false)

/-- The rings advance by one slot (R160). -/
def Core.ringStep (c : Core) (o : DrOp) : Core :=
  let c := match o.sring with | some k => c.setHandle k ((c.handle k).consume 1) | none => c
  match o.dring with | some k => c.setHandle k ((c.handle k).produce 1) | none => c

/-- The holding for which an operation writes. -/
def State.originHold (s : State) (c : CoreRef) (o : Origin) : HoldRef :=
  match o.home with
  | some h => h.hold
  | none => s.holdOf c

/-- One row of the head operation, whole; it waits for a translation or a ring, or fails. -/
def State.drillRow (s : State) (c : CoreRef) (o : DrOp) : State :=
  if (s.core c).ringWaits o then s
  else match s.srcLoc c o with
    | .wait q => s.addReq c.die q
    | .trap x => s.failDr c o x (s.failAddr c o.pasid (o.srcAddr o.next) { read := true } o.len)
    | .ok src => match s.dstLoc c o with
      | .wait q => s.addReq c.die q
      | .trap x => s.failDr c o x (s.failAddr c o.pasid (o.dstAddr o.next) { write := true } o.len)
      | .ok dst =>
        let s := (s.noteGuest o.origin.home dst).writeRow (s.originHold c o.origin) dst (s.rowData o src)
        let k := (s.core c).ringStep o
        let s := s.setCore c { k with drq := k.drq.map fun x => if x.origin.seq = o.origin.seq then { x with next := x.next + 1 } else x }
        if o.next + 1 < o.n then s else s.dropDr c o

/-- DRILL_ROW (R236): the oldest operation of a drill starts, if no earlier operation of the plough holds it back (R230), and
runs its next row; with no rows it completes. While a headland drains or moves, no row starts (R238). -/
def execDrillRow (c : CoreRef) (s : State) : Host.Outcome State Fault Refusal :=
  match (s.core c).drq with
  | [] => .next s
  | o :: _ =>
    let plough := (s.core c).plq.map fun p => (p.origin.seq, p.locks)
    if s.drillPaused c.die then .next s
    else if !o.started && blockedBy o.locks o.origin.seq plough then .next s
    else
      let s := s.setCore c { s.core c with
        drq := (s.core c).drq.map fun x => if x.origin.seq = o.origin.seq then { x with started := true } else x }
      if o.n ≤ o.next then .next (s.dropDr c o) else .next (s.drillRow c { o with started := true })

/-! ## The instructions -/

/-- `dr.copy.gp` (R234, R239). -/
def execDrCopyGp (a b : Reg) (s : State) : Host.Outcome State Fault Refusal := drill .copyGp (encEC 0x39 0x00 a b 0) a b s

/-- `dr.copy.pg` (R234, R239). -/
def execDrCopyPg (a b : Reg) (s : State) : Host.Outcome State Fault Refusal := drill .copyPg (encEC 0x39 0x01 a b 0) a b s

/-- `dr.copy.pp` (R234, R239). -/
def execDrCopyPp (a b : Reg) (s : State) : Host.Outcome State Fault Refusal := drill .copyPp (encEC 0x39 0x02 a b 0) a b s

/-- `dr.copy.gg` (R234, R239). -/
def execDrCopyGg (a b : Reg) (s : State) : Host.Outcome State Fault Refusal := drill .copyGg (encEC 0x39 0x03 a b 0) a b s

/-- `dr.gath.g` (R234, R239). -/
def execDrGathG (a b : Reg) (s : State) : Host.Outcome State Fault Refusal := drill .gathG (encEC 0x39 0x04 a b 0) a b s

/-- `dr.gath.p` (R234, R239). -/
def execDrGathP (a b : Reg) (s : State) : Host.Outcome State Fault Refusal := drill .gathP (encEC 0x39 0x05 a b 0) a b s

/-- `dr.scat.g` (R234, R239). -/
def execDrScatG (a b : Reg) (s : State) : Host.Outcome State Fault Refusal := drill .scatG (encEC 0x39 0x06 a b 0) a b s

/-- `dr.scat.p` (R234, R239). -/
def execDrScatP (a b : Reg) (s : State) : Host.Outcome State Fault Refusal := drill .scatP (encEC 0x39 0x07 a b 0) a b s

/-- `dr.fill.g` (R234, R239). -/
def execDrFillG (a b : Reg) (s : State) : Host.Outcome State Fault Refusal := drill .fillG (encEC 0x39 0x08 a b 0) a b s

/-- `dr.fill.p` (R234, R239). -/
def execDrFillP (a b : Reg) (s : State) : Host.Outcome State Fault Refusal := drill .fillP (encEC 0x39 0x09 a b 0) a b s

/-- Drill operations of a slot that are not complete. -/
def Core.drPending (c : Core) (i : SlotId) : Nat := (c.drq.filter fun o => o.origin.slot = i).length

/-- `dr.wait` (R239): an acquire, which the model's order of accesses gives (log 24). -/
def execDrWait (a : Reg) (s : State) : Host.Outcome State Fault Refusal :=
  runOp [a] 0 (fun s r _ vs =>
    if (s.core r.core).drPending r.slot ≤ (vs.headD 0).toNat then .done s 0 else .wait []) s

end Sys2Proof.Machine
end

