-- ==== Sys2Proof/Machine/Gaussian.lean ====
section
/-! DEFINITION. Mailbox and Gaussian instructions (17 R349 to R366). -/

namespace Sys2Proof.Machine

/-! ## Records (R351 to R355) -/

/-- A mailbox record: its header and the 14 FP32 positions, η first and then Λ in the order of R351. -/
structure GRec where
  hdr : Word
  vals : List W32
deriving DecidableEq, Repr

def GRec.live (x : GRec) : Bool := bit x.hdr 34
def GRec.dim (x : GRec) : Nat := bits x.hdr 33 32 + 1
def GRec.beta (x : GRec) : Nat := bits x.hdr 47 40
/-- Bits [39:35] of the header are not zero (R354), whether the record is live or not (log 137). -/
def GRec.ill (x : GRec) : Bool := bits x.hdr 39 35 ≠ 0

/-- The 14 FP32 codes that follow a header, or the 16 of a coupling. -/
def codesOf (n : Nat) (bs : List Byte) : List W32 := (List.range n).map fun k => BitVec.ofNat 32 (field bs (4 * k) 4)

def GRec.parse (bs : List Byte) : GRec := ⟨word (field bs 0 8), codesOf 14 (bs.drop 8)⟩
def GRec.bytes (x : GRec) : List Byte :=
  toBytes 8 x.hdr.toNat ++ (List.range 14).flatMap fun k => toBytes 4 (vecAt x.vals k).toNat

/-- The position of Λ element pq, p ≤ q (R351). -/
def lambdaPos (p q : Nat) : Nat := 4 + [0, 4, 7, 9].getD p 0 + (q - p)
/-- Fields(d) as positions (R353). -/
def fieldsOf (d : Nat) : List Nat :=
  List.range d ++ (List.range d).flatMap fun p => (List.range (d - p)).map fun k => lambdaPos p (p + k)

/-- A record with values for Fields(d) in order, and +0 in every unused position. -/
def GRec.make (hdr : Word) (d : Nat) (vs : List W32) : GRec :=
  ⟨hdr, (List.range 14).map fun k => match indexOf (· == k) (fieldsOf d) with
    | some i => vecAt vs i
    | none => 0⟩

/-- The fields of a record in the order of Fields(d). -/
def GRec.fields (x : GRec) (d : Nat) : List W32 := (fieldsOf d).map (vecAt x.vals)

/-- Λ as a whole matrix: qp with q > p reads as pq (R353). -/
def GRec.lambda (x : GRec) : Mat :=
  (List.range 4).map fun p => (List.range 4).map fun q => vecAt x.vals (lambdaPos (Nat.min p q) (Nat.max p q))

/-! ## Access (R349, R356) -/

/-- The checks of the address of 64 bytes: a multiple of 64, pool space and R154, the range-lock table. -/
def State.recordAt (s : State) (c : CoreRef) (a : Word) (info : Word) : Trap ⊕ Loc :=
  if a.toNat % 64 ≠ 0 then .inl { cause := 0x11, info := info, addr := a }
  else if !inPoolSpace a then .inl { cause := 0x12, info := info, addr := a }
  else match s.poolRange c (poolOffset a) 64 with
    | none => .inl { cause := 0x12, info := info, addr := a }
    | some (t, b) =>
      if s.lockedAt c (.pool t.idx) b 64 then .inl { cause := 0x30, info := info, addr := a } else .inr (.pool t b 64)

/-- Record `i` of the own mailbox: an index that the partition word does not give is refused with 0x26, and a locked record with 0x30, both
before the other operand and the message are looked at (log 138). -/
def State.mailbox (s : State) (c : CoreRef) (i info : Word) : Trap ⊕ Loc :=
  let p := (s.core c).part
  let off := mboxBase p + 64 * i.toNat
  if bits i 63 12 ≠ 0 || decide (partMbox p ≤ i.toNat) then .inl { cause := 0x26, info := info }
  else if s.lockedAt c (.pool c.idx) off 64 then .inl { cause := 0x30, info := info, addr := poolSpace + word off }
  else .inr (.pool c off 64)

/-- Goes on with a location, or with the cause of its check. -/
def onLoc (x : Trap ⊕ Loc) (f : Loc → Eff) : Eff :=
  match x with
  | .inl t => .trap t
  | .inr l => f l

/-- Reads bytes into arithmetic or into a payload: a poisoned byte is consumed (10 R227). -/
def State.consume (s : State) (a : Word) (l : Loc) (f : List Byte → Eff) : Eff :=
  if s.poisoned l then .trap { cause := 0x52, addr := a } else f (s.readLoc l)

/-- Reads the records at two addresses, with every check of the first address before those of the second, and the poison
of both after the checks (log 42). The loads follow the slot's stores to those records (11 R246). -/
def State.twoRecords (s : State) (r : SlotRef) (a b info : Word) (f : State → Loc → Loc → GRec → GRec → Eff) : Eff :=
  onLoc (s.recordAt r.core a info) fun la => onLoc (s.recordAt r.core b info) fun lb =>
    s.loads r [la, lb] fun s => s.consume a la fun ba => s.consume b lb fun bb => f s la lb (GRec.parse ba) (GRec.parse bb)

/-- The write of the 64 bytes of a record by a task, with the data's poison: eight doublewords at one place in program order, which are
stores (R356, 11 R243). `mate`: they stand at the place of the stores before them, of the same instruction. -/
def recordStores (h : HoldRef) (home : Option HomeRef) (l : Loc) (bs : List Byte) (bad mate : Bool) : List BufferedStore :=
  (List.range 8).map fun q =>
    { hold := h, home := home, loc := l.part (8 * q) 8, bytes := (bs.drop (8 * q)).take 8, mate := mate || decide (q ≠ 0), whole := some bad }

/-- Buffers the write of 64 bytes. -/
def State.bufferRecord (s : State) (r : SlotRef) (t : Task) (l : Loc) (bs : List Byte) (bad : Bool) (mate : Bool := false) : State :=
  s.setSlot r { s.slot r with stores := (s.slot r).stores ++ recordStores (s.taskHold r t) t.home l bs bad mate }

/-- The write of a record. -/
def State.writeRecord (s : State) (r : SlotRef) (t : Task) (l : Loc) (x : GRec) (mate : Bool := false) : State :=
  s.bufferRecord r t l x.bytes false mate

/-- Cause 0x25 at a record (R358). -/
def badRecord (a info : Word) : Eff := .trap { cause := 0x25, info := info, addr := a }

/-! ## mb.post and mb.take (R360, R361) -/

/-- `mb.post` (R360). -/
def execMbPost (a b : Reg) (h : BitVec 1) (s : State) : Host.Outcome State Fault Refusal :=
  let info := wordInfo (encRR 0x34 0 a b h 0 0x00)
  runOp [a, b] 0 (fun s r t vs =>
    let src := vs.headD 0
    onLoc (s.mailbox r.core (vs.getD 1 0) info) fun dst =>
      if src = 0 then
        match t.msg with
        | some m =>
          let bs := bytesOf m.payload
          if m.payload.length ≠ 8 then badRecord 0 info
          else if (GRec.parse bs).ill then badRecord 0 info
          else .done (s.bufferRecord r t dst bs false) 0
        | none => badRecord 0 info
      else onLoc (s.recordAt r.core src info) fun l => s.loads r [l] fun s =>
        let bs := s.readLoc l
        if (GRec.parse bs).ill then badRecord src info
        else .done (s.bufferRecord r t dst bs (s.poisoned l)) 0) s

/-- The pool-space address of record `i` of the own mailbox (R349). -/
def mailboxAddr (p i : Word) : Word := poolSpace + word (mboxBase p + 64 * i.toNat)

/-- `mb.take` (R361). A mailbox record that is ill-formed is refused, as any record read is (R358; log 132). -/
def execMbTake (a b : Reg) (h : BitVec 1) (s : State) : Host.Outcome State Fault Refusal :=
  let info := wordInfo (encRR 0x34 0 a b h 0 0x01)
  runOp [a, b] 0 (fun s r t vs =>
    let dst := vs.headD 0
    let at_ := mailboxAddr (s.core r.core).part (vs.getD 1 0)
    onLoc (s.mailbox r.core (vs.getD 1 0) info) fun src =>
      if dst = 0 then
        match t.buf.find? fun d => !d.closed with
        | some d =>
          if d.payload.length ≠ 8 then .trap { cause := 0x48, info := info }
          else s.loads r [src] fun s => s.consume at_ src fun bs =>
            if (GRec.parse bs).ill then badRecord at_ info
            else .done (s.modOpen r fun d => { d with payload := wordsOf 8 bs }) 0
        | none => .trap { cause := 0x48, info := info }
      else onLoc (s.recordAt r.core dst info) fun l => s.loads r [src] fun s =>
        let bs := s.readLoc src
        if (GRec.parse bs).ill then badRecord at_ info
        else .done (s.bufferRecord r t l bs (s.poisoned src)) 0) s

/-! ## gbp.acc and gbp.sub (R362, R363) -/

/-- The sum record of GbpAcc: the fields of both added, the stamp of the second. -/
def GRec.acc (t x : GRec) : GRec :=
  let d := t.dim
  .make (place (bits x.hdr 63 48) 48 ||| (t.hdr &&& 0x0000_FFFF_FFFF_FFFF)) d
    (List.zipWith add32 (t.fields d) (x.fields d))

/-- `gbp.acc` (R362). -/
def execGbpAcc (a b : Reg) (h : BitVec 1) (s : State) : Host.Outcome State Fault Refusal :=
  let info := wordInfo (encRR 0x34 0 a b h 0 0x08)
  runOp [a, b] 0 (fun s r t vs =>
    let pa := vs.headD 0
    let pb := vs.getD 1 0
    s.twoRecords r pa pb info fun s la _ x y =>
      if x.ill then badRecord pa info
      else if y.ill then badRecord pb info
      else if !x.live then badRecord pa info
      else if !y.live then .done s 0
      else if y.dim ≠ x.dim then badRecord pb info
      else .done (s.writeRecord r t la (x.acc y)) 0) s

/-- The difference record of GbpSub. -/
def GRec.sub (x y : GRec) : GRec :=
  let d := x.dim
  .make x.hdr d (List.zipWith sub32 (x.fields d) (if y.live then y.fields d else (fieldsOf d).map fun _ => 0))

/-- `gbp.sub` (R363). -/
def execGbpSub (a b : Reg) (h : BitVec 1) (s : State) : Host.Outcome State Fault Refusal :=
  let info := wordInfo (encRR 0x34 0 a b h 0 0x09)
  runOp [a, b] 0 (fun s r t vs =>
    let pa := vs.headD 0
    let pb := vs.getD 1 0
    s.twoRecords r pa pb info fun s _ lb x y =>
      if x.ill then badRecord pa info
      else if y.ill then badRecord pb info
      else if !x.live then badRecord pa info
      else if y.live && decide (y.dim ≠ x.dim) then badRecord pb info
      else .done (s.writeRecord r t lb (x.sub y)) 0) s

/-! ## gbp.elim (R364) -/

/-- The result header: target, source and beta of the kept block, stamp of the eliminated one. -/
def elimHeader (bk be : GRec) : Word :=
  place (bits be.hdr 63 48) 48 ||| place bk.beta 40 ||| place 1 34 ||| place (bk.dim - 1) 32 ||| word (bits bk.hdr 31 0)

/-- The elimination of a factor block onto `bk`; `cpl` is C as its 16 codes. -/
def eliminate (bk be : GRec) (cpl : List W32) (keepW : Bool) (eps : W32) : Nat ⊕ GRec :=
  let lke : Mat := (List.range 4).map fun c => (List.range 4).map fun i => vecAt cpl (if keepW then 4 * i + c else 4 * c + i)
  match gaussElim bk.dim be.dim bk.lambda lke be.lambda bk.vals be.vals eps with
  | .inl j => .inl j
  | .inr e => .inr (.make (elimHeader bk be) bk.dim (e.eta ++ e.lambda.flatten))

/-- The lines of a factor block, each checked at its own address as a record is: the doublewords of a line lie in one region, so the 24
loads are checked as the three lines that they make (R356, 07 R153, R154). -/
def State.blockAt (s : State) (c : CoreRef) (a info : Word) (f : List Loc → Eff) : Eff :=
  onLoc (s.recordAt c a info) fun l0 => onLoc (s.recordAt c (addr a 64) info) fun l1 =>
    onLoc (s.recordAt c (addr a 128) info) fun l2 => f [l0, l1, l2]

/-- Reads the lines of a factor block; poison is reported at the first poisoned line. -/
def State.consumeBlock (s : State) (a : Word) (ls : List Loc) (f : List Byte → Eff) : Eff :=
  match indexOf s.poisoned ls with
  | some k => .trap { cause := 0x52, addr := addr a (64 * k) }
  | none => f (ls.flatMap s.readLoc)

/-- `gbp.elim` (R364). -/
def execGbpElim (a b : Reg) (h : BitVec 1) (s : State) : Host.Outcome State Fault Refusal :=
  let info := wordInfo (encRR 0x34 0 a b h 0 0x0A)
  onFull 2 s (runOp [a, b] 0 fun s r t vs =>
    let pj := vs.headD 0
    let po := vs.getD 1 0
    if bits po 5 1 ≠ 0 then badRecord 0 info
    else s.blockAt r.core pj info fun lj =>
      onLoc (s.recordAt r.core (po &&& 0xFFFF_FFFF_FFFF_FFC0) info) fun lo => s.loads r lj fun s =>
        s.consumeBlock pj lj fun bs =>
          let bu := GRec.parse bs
          let bw := GRec.parse (bs.drop 64)
          let keepW := bit po 0
          if bu.ill then badRecord pj info
          else if bw.ill then badRecord (addr pj 64) info
          else if !bu.live then badRecord pj info
          else if !bw.live then badRecord (addr pj 64) info
          else match eliminate (if keepW then bw else bu) (if keepW then bu else bw) (codesOf 16 (bs.drop 128)) keepW
              (lo32 (s.core r.core).regs.gbpEps) with
            | .inl j => .trap { cause := 0x24, info := word j, addr := pj }
            | .inr x => .done (s.writeRecord r t lo x) 0)

/-! ## gbp.damp and gbp.res (R365, R366) -/

/-- The residual of a first message: the FP32 code of +∞. -/
def infResidual : Word := 0x7F80_0000

/-- The tests that damp and res share, and what each does with a live old record. -/
def onPair (pa pb info : Word) (x y : GRec) (first : Eff) (both : Eff) : Eff :=
  if x.ill then badRecord pa info
  else if y.ill then badRecord pb info
  else if !x.live then badRecord pa info
  else if !y.live then first
  else if y.dim ≠ x.dim then badRecord pb info
  else both

/-- The blend of a new and an old record, with the residual, as the rule's pseudocode computes them, of one record with itself too (R365;
log 140). -/
def GRec.damped (x y : GRec) : GRec × W32 :=
  let d := x.dim
  let (out, res) := damp x.beta ((y.fields d).zip (x.fields d)) 0
  (.make x.hdr d out, res)

/-- `gbp.damp` (R365). Its two writes stand at one place in program order, since no order between them is given (R356; log 139). -/
def execGbpDamp (d a b : Reg) (h : BitVec 1) (s : State) : Host.Outcome State Fault Refusal :=
  let info := wordInfo (encRR 0x34 d a b h 0 0x0B)
  onFull 2 s (runOp [a, b] d fun s r t vs =>
    let pa := vs.headD 0
    let pb := vs.getD 1 0
    s.twoRecords r pa pb info fun s la lb x y =>
      onPair pa pb info x y (.done (s.writeRecord r t lb x) infResidual)
        (let (z, res) := x.damped y
         .done ((s.writeRecord r t la z).writeRecord r t lb z (mate := true)) (res.setWidth 64)))

/-- The largest absolute change, NaN if any is NaN. -/
def residual (xs ys : List W32) : W32 :=
  (xs.zip ys).foldl (fun res p =>
    let e := abs32 (sub32 p.1 p.2)
    if isNan32 e || isNan32 res then nan32 else if (fval res).lt (fval e) then e else res) 0

/-- `gbp.res` (R366). -/
def execGbpRes (d a b : Reg) (h : BitVec 1) (s : State) : Host.Outcome State Fault Refusal :=
  let info := wordInfo (encRR 0x34 d a b h 0 0x0C)
  runOp [a, b] d (fun s r _ vs =>
    let pa := vs.headD 0
    let pb := vs.getD 1 0
    s.twoRecords r pa pb info fun s _ _ x y =>
      onPair pa pb info x y (.done s infResidual)
        (.done s ((residual (x.fields x.dim) (y.fields x.dim)).setWidth 64))) s

end Sys2Proof.Machine
end

