-- ==== Sys2Proof/Machine/Tasks.lean ====
section
/-! DEFINITION. The task instructions (05 R115 to R122): sowing, ending, events, trigger entries and yokes. -/

namespace Sys2Proof.Machine

/-! ## Sowing (R116) -/

/-- Reads the seed image at a pool-space address, sows it, and places it with `place`; `operand` is check 2, on g[b], which comes
after the causes that the six loads of the image raise (log 99). A sow is a release at holding scope. -/
def sowWith (w : W32) (srcs : List Reg) (operand : State → SlotRef → Task → Word → Bool) (cap aff : Word → Nat)
    (place : State → SlotRef → Task → Word → Seed → Option State) (s : State) : Host.Outcome State Fault Refusal :=
  let info := wordInfo w
  runOp srcs 0 (fun s r t vs =>
    let at_ := vs.headD 0
    let b := vs.getD 1 0
    if !ownScratch (s.core r.core).part at_ 48 8 then .trap { cause := 0x41, addr := at_ }
    else s.fences r fun s => match s.ownRead r.core at_ 48 8 with
      | some (x, a) => .trap { cause := x, info := if x = 0x30 then info else 0, addr := a }
      | none =>
        let c := s.core r.core
        if operand s r t b then .trap { cause := 0x42, info := info }
        else
          let bs := Memory.read c.pool.bytes (poolOffset at_) 48
          let x : Seed :=
            { pc := word (field bs 0 8), args := Vector.ofFn fun i => word (field bs (8 + 8 * i.val) 8)
              cw := sownCw (word (field bs 40 8)) t.cw (cap b) (aff b), part := c.part, tag := t.tag }
          if illFormed x (s.hold (s.taskHold r t)).dies then .trap { cause := 0x41 }
          else match place s r t b x with
            | some s' => .done s' 0
            | none => .wait []) s

/-- A seed sown on a core whose `dbg` holds seeds is held (R100, 12 R270). -/
def State.placeHere (s : State) (r : SlotRef) (t : Task) (_ : Word) (x : Seed) : Option State :=
  s.placeTask r t { x with held := bit (s.core r.core).regs.dbg 3 }

/-- `sow` (R116). -/
def execSow (a : Reg) (h : BitVec 1) (s : State) : Host.Outcome State Fault Refusal :=
  sowWith (encRR 0x32 0 a 0 h 0 0x00) [a] (fun _ _ _ _ => false) (fun _ => 0) (fun _ => 0xFF) State.placeHere s

/-- `sow.cap` refuses its register operand (R116). -/
def capRefused (s : State) (r : SlotRef) (t : Task) (b : Word) : Bool :=
  bits b 63 16 ≠ 0 || !capOk (bits b 7 0) || (bits b 15 8 ≠ 0xFF && decide ((s.hold (s.taskHold r t)).dies ≤ bits b 15 8))

/-- `sow.cap` (R116). -/
def execSowCap (a b : Reg) (h : BitVec 1) (s : State) : Host.Outcome State Fault Refusal :=
  sowWith (encRR 0x32 0 a b h 0 0x02) [a, b] capRefused (fun b => bits b 7 0) (fun b => bits b 15 8) State.placeHere s

/-- Coordinates in a register: [15:0] hx, [31:16] hy, [63:32] zero; outside the grid they are refused. -/
def coordRefused (s : State) (r : SlotRef) (t : Task) (b : Word) : Bool :=
  bits b 63 32 ≠ 0 || !s.inGrid (s.taskHold r t) (bits b 15 0) (bits b 31 16)

/-- The offer of `sow.at` to its target (R116): it starts in a free slot if dispatch is open and the core accepts the seed's
partition word, under which the slot must be free (R90), is pushed on the deque, or is refused. Where the target's `dbg` holds seeds, it enters the target's deque held and
starts nowhere; while that deque is full the sower stalls (R100, R101, 12 R270, log 78). -/
def State.offer (s : State) (r : SlotRef) (t : Task) (b : Word) (x : Seed) : Option State :=
  let h := s.taskHold r t
  let c := s.coreAt h (bits b 15 0) (bits b 31 16)
  if s.retired c then s.placeInline r x
  else if bit (s.core c).regs.dbg 3 then (if s.dequeRoom c then some (s.pushDeque c { x with held := true }) else none)
  else match (if s.open h c && (s.core c).accepts x then (List.finRange 4).find? ((s.core c).slotFreeUnder x.part) else none) with
    | some i => some (s.dispatchSeed h ⟨c, i⟩ x)
    | none =>
      if s.dequeRoom c then some (s.pushDeque c x) else s.placeInline r x

/-- `sow.at` (R116). -/
def execSowAt (a b : Reg) (h : BitVec 1) (s : State) : Host.Outcome State Fault Refusal :=
  sowWith (encRR 0x32 0 a b h 0 0x01) [a, b] coordRefused (fun _ => 0) (fun _ => 0xFF) State.offer s

/-! ## Ending and events (R117 to R119) -/

/-- `end` (R117, R108): it waits, with nothing sent, while a message of its task has no room in the network (13 R280, 16 R336); then all of
them leave, so that an abort never finds some of them gone (R109), and the messages of the core's tasks leave in the order of their
`end`s (13 R290; log 79). -/
def execEndTask (a : Reg) (h : BitVec 1) (s : State) : Host.Outcome State Fault Refusal :=
  runOp [a] 0 (fun s r t vs =>
    let j := vs.headD 0
    if j ≠ 0 ∧ (bits j 63 56 ≠ 0 ∨ !s.inGrid (s.taskHold r t) (bits j 15 0) (bits j 31 16)) then
      .trap { cause := 0x42, info := wordInfo (encRR 0x32 0 a 0 h 0 0x03) }
    else if !s.allRoom (s.taskHold r t) (s.sender (s.taskHold r t) r) (t.outgoing j) then .wait []
    else .gone ((s.sendEnd r t j).finish r { t with pc := t.pc + 4, waiting := false, buf := t.buf.filter fun d => !d.closed })) s

/-- The other slots of a core that hold a task which is not halted. -/
def State.otherSlots (s : State) (r : SlotRef) : List SlotId :=
  (List.finRange 4).filter fun i => i ≠ r.slot && (s.task ⟨r.core, i⟩).isSome && !(s.slot ⟨r.core, i⟩).halted

/-- `yield` (R118): the slot issues no more while another slot of its core that has not issued since has an instruction ready
(`State.mayIssue`). -/
def execYield (_ : BitVec 1) (s : State) : Host.Outcome State Fault Refusal :=
  runOp [] 0 (fun s r _ _ => .done (s.setSlot r { s.slot r with after := s.otherSlots r }) 0) s

/-- `wfe` (R118): tests and clears the event-pending bit in one step (R110). -/
def execWfe (_ : BitVec 1) (s : State) : Host.Outcome State Fault Refusal :=
  runOp [] 0 (fun s r _ _ =>
    if (s.slot r).event then .done (s.setSlot r { s.slot r with event := false }) 0 else .wait []) s

/-- `sev` (R119). -/
def execSev (a : Reg) (h : BitVec 1) (s : State) : Host.Outcome State Fault Refusal :=
  runOp [a] 0 (fun s r t vs =>
    let v := vs.headD 0
    if coordRefused s r t v then .trap { cause := 0x42, info := wordInfo (encRR 0x32 0 a 0 h 0 0x06) }
    else
      let c := s.coreAt (s.taskHold r t) (bits v 15 0) (bits v 31 16)
      .done (if s.retired c then s else s.setCore c (s.core c).eventAll) 0) s

/-! ## Trigger entries (R120, R121) -/

/-- TrigArm (R120). -/
def Trigger.armBy (t : Trigger) (a : Arm) : Trigger :=
  if t.state = .running ∨ t.ret then { t with held := some a } else t.armWith a

/-- `trig.arm` (R120). -/
def execTrigArm (a b : Reg) (h : BitVec 1) (s : State) : Host.Outcome State Fault Refusal :=
  runOp [a, b] 0 (fun s r t vs =>
    let pc := vs.headD 0
    let v := vs.getD 1 0
    let e := BitVec.ofNat 8 (bits v 7 0)
    if bits v 63 27 ≠ 0 || !pcOk pc || decide (((s.core r.core).trigger e).state = .runnable) then
      .trap { cause := 0x42, info := wordInfo (encRR 0x32 0 a b h 0 0x08) }
    else
      let arm : Arm := { handler := pc, prio := BitVec.ofNat 2 (bits v 25 24), reload := bit v 26, count := BitVec.ofNat 16 (bits v 23 8)
                         cw := t.cw, tag := t.tag }
      .done (s.modTrigger r.core e (·.armBy arm)) 0) s

/-- `trig.dec` (R120): a null message; one that must wait takes a place of the message queue (R97). -/
def execTrigDec (a b : Reg) (h : BitVec 1) (s : State) : Host.Outcome State Fault Refusal :=
  runOp [a, b] 0 (fun s r _ vs =>
    let v := vs.headD 0
    let n := vs.getD 1 0
    let c := s.core r.core
    let e := BitVec.ofNat 8 (bits v 7 0)
    let m : Msg := { nullMsg with dec := BitVec.ofNat 16 (bits n 15 0) }
    if bits v 63 8 ≠ 0 || bits n 63 16 ≠ 0 then .trap { cause := 0x42, info := wordInfo (encRR 0x32 0 a b h 0 0x09) }
    else if (c.trigger e).state = .armed ∧ !(c.trigger e).ret then .done (s.setCore r.core (c.accept e m .none)) 0
    else match c.findPlace 2 with
      | some p => .done (s.setCore r.core (c.accept e m p)) 0
      | none => .wait []) s

def TrigState.code : TrigState → Nat
  | .idle => 0
  | .armed => 1
  | .runnable => 2
  | .running => 3

/-- The value of `trig.rd` (R120). -/
def Trigger.read (t : Trigger) : Word :=
  word (t.count.toNat + t.state.code * 2 ^ 16 + t.arm.prio.toNat * 2 ^ 18 + t.arm.reload.toNat * 2 ^ 20 + t.mask.toNat * 2 ^ 21 +
    t.ret.toNat * 2 ^ 22 + t.arm.count.toNat * 2 ^ 32)

/-- `trig.rd` (R120). -/
def execTrigRd (d a : Reg) (h : BitVec 1) (s : State) : Host.Outcome State Fault Refusal :=
  runOp [a] d (fun s r _ vs =>
    let v := vs.headD 0
    if bits v 63 8 ≠ 0 then .trap { cause := 0x42, info := wordInfo (encRR 0x32 d a 0 h 0 0x0A) }
    else .done s ((s.core r.core).trigger (BitVec.ofNat 8 (bits v 7 0))).read) s

/-- `hmask` (R121). -/
def execHmask (a : Reg) (h : BitVec 1) (s : State) : Host.Outcome State Fault Refusal :=
  runOp [a] 0 (fun s r _ vs =>
    let v := vs.headD 0
    let c := s.core r.core
    let one := fun (c : Core) e => c.setTrigger e { c.trigger e with mask := bit v 8 }
    if bits v 63 10 ≠ 0 then .trap { cause := 0x42, info := wordInfo (encRR 0x32 0 a 0 h 0 0x0B) }
    else
      let es := if bit v 9 then List.range 256 else [bits v 7 0]
      .done (s.setCore r.core (es.foldl (fun c e => one c (BitVec.ofNat 8 e)) c)) 0) s

/-! ## Yokes (R111, R112, R122) -/

/-- A core of the cluster has a slot in a yoke. -/
def State.yoked (s : State) (c : CoreRef) : Bool :=
  (s.cluster c.die (clusterOf c.idx)).yokes.any fun y => (y.attached ++ y.loose).any fun m => m.1 = cidxOf c.idx

/-- The first index of the group of `n` that holds an index. -/
def groupBase (n i : Nat) : Nat := i - i % n

/-- The slots of a cluster that wait in `yoke`, with the size that each names: the operand that a slot found is still there. -/
def State.yokeWaiters (s : State) (c : CoreRef) : List (SlotRef × Nat) :=
  (List.range 8).flatMap fun i => (List.finRange 4).filterMap fun sl =>
    let r : SlotRef := ⟨⟨c.die, clusterCore (clusterOf c.idx) i⟩, sl⟩
    (s.task r).bind fun t => t.yokeN.bind fun x =>
      match readFields t (s.core r.core) [x.2] with
      | some (vs, _) => if bits (vs.headD 0) 3 0 = x.1 && bits (vs.headD 0) 63 4 = 0 then some (r, x.1) else none
      | none => none

/-- A member leaves its `yoke` instruction for the next address of the leader, and pops the word it read: the instruction has
retired. -/
def State.joinYoke (s : State) (r : SlotRef) (pc : Word) : State :=
  match s.task r with
  | none => s
  | some t =>
    let s := match t.yokeN with
      | some (_, a) => match readFields t (s.core r.core) [a] with
        | some (_, c) => s.setCore r.core c
        | none => s
      | none => s
    (s.modTask r fun t => { t with pc := pc, waiting := false, yokeN := none, parts := [] }).markStep r t.pc false

/-- The group forms: one waiting slot of each of its cores, the leader's first. Of several slots of a core that wait with the
size, the lowest joins (log 100). -/
def State.formYoke (s : State) (c : CoreRef) (n base : Nat) : State :=
  let ws := s.yokeWaiters c
  let ms := (List.range n).filterMap fun i => (ws.find? fun w => w.2 = n ∧ cidxOf w.1.core.idx = base + i).map (·.1)
  match ms with
  | [] => s
  | lead :: _ =>
    if ms.length < n then s
    else
      let pc := match s.task lead with | some t => t.pc + 4 | none => 0
      let s := ms.foldl (fun s r => s.joinYoke r pc) s
      let cl := clusterOf c.idx
      let y : Yoke := { n := n, base := base, attached := ms.map fun r => (cidxOf r.core.idx, r.slot), loose := [] }
      s.setCluster c.die cl { s.cluster c.die cl with yokes := (s.cluster c.die cl).yokes ++ [y] }

/-- Why `yoke` is refused at once (R111, R122). -/
def State.yokeRefused (s : State) (r : SlotRef) (t : Task) (v : Word) : Bool :=
  let n := bits v 3 0
  let base := groupBase n (cidxOf r.core.idx)
  bits v 63 4 ≠ 0 || !(n = 2 || n = 4 || n = 8) || classOf t.cw ≠ 2 || s.yoked r.core ||
    (List.range n).any fun i => s.retired ⟨r.core.die, clusterCore (clusterOf r.core.idx) (base + i)⟩

/-- The waiting slots whose groups overlap this one and name another size. -/
def State.yokeClash (s : State) (r : SlotRef) (n : Nat) : List SlotRef :=
  let i := cidxOf r.core.idx
  ((s.yokeWaiters r.core).filter fun w => w.2 ≠ n ∧ w.1 ≠ r ∧
    (groupBase (max n w.2) i = groupBase (max n w.2) (cidxOf w.1.core.idx))).map (·.1)

/-- `yoke` (R122): the issuer waits, and the last member to come forms the group. -/
def execYoke (a : Reg) (_ : BitVec 1) (s : State) : Host.Outcome State Fault Refusal :=
  let r := s.cur
  match s.task r with
  | none => .fault .noTask
  | some t =>
    match s.deadPort r.core [a] with
    | some d => .next (s.takeTrap r { cause := 0x47, info := word d.index.val } t.pc (t.pc + 4) false)
    | none =>
      match readFields t (s.core r.core) [a] with
      | none => .next (s.waitAt r [])
      | some (vs, _) =>
        let v := vs.headD 0
        let n := bits v 3 0
        let trap := fun (s : State) (r : SlotRef) => match s.task r with
          | some t => s.takeTrap r { cause := 0x44 } t.pc (t.pc + 4) false
          | none => s
        if s.yokeRefused r t v then .next (trap s r)
        else match s.yokeClash r n with
          | w :: ws => .next ((w :: ws).foldl trap (trap s r))
          | [] =>
            let s := s.setTask r { t with yokeN := some (n, a), waiting := true }
            .next (s.formYoke r.core n (groupBase n (cidxOf r.core.idx)))

/-- The yoke that a slot is attached to. -/
def State.attachedYoke (s : State) (r : SlotRef) : Option Yoke :=
  (s.yokeOf r).filter fun y => y.attached.contains (cidxOf r.core.idx, r.slot)

/-- `unyoke` (R122): the attached cores dissolve the yoke. -/
def execUnyoke (_ : BitVec 1) (s : State) : Host.Outcome State Fault Refusal :=
  runOp [] 0 (fun s r _ _ => match s.attachedYoke r with
    | some y => .done (s.dissolve r.core.die (clusterOf r.core.idx) y) 0
    | none => .done s 0) s

/-- The target at which a dissenter waits in `reyoke`. -/
def State.reyokeAt (s : State) (d : DieId) (cl : Fin 60) (m : Nat × SlotId) : Option Word :=
  (s.task ⟨⟨d, clusterCore cl m.1⟩, m.2⟩).bind (·.reyoke)

/-- The rendezvous of `reyoke`: dissenters at the same target re-attach there, the others are released. -/
def State.rendezvous (s : State) (d : DieId) (cl : Fin 60) (y : Yoke) (target : Word) : State :=
  let (same, other) := y.loose.partition fun m => s.reyokeAt d cl m = some target
  let s := (same ++ other).foldl (fun s m => s.release d cl m) s
  let y' := { y with attached := y.attached ++ same, loose := [] }
  s.setCluster d cl { s.cluster d cl with yokes := (s.cluster d cl).yokes.map fun z => if z = y then y' else z }

/-- `reyoke` (R122): a dissenter waits for the leader's, the attached cores for every dissenter's; on a core in no yoke it acts
as `j`. -/
def execReyoke (o : BitVec 26) (s : State) : Host.Outcome State Fault Refusal :=
  let r := s.cur
  let d := r.core.die
  let cl := clusterOf r.core.idx
  match s.task r, s.yokeOf r with
  | none, _ => .fault .noTask
  | some _, none => execJ o s
  | some t, some y =>
    let target := t.pc + jumpOffset o
    if y.attached.contains (cidxOf r.core.idx, r.slot) then
      if y.loose.all fun m => (s.reyokeAt d cl m).isSome then execJ o (s.rendezvous d cl y target) else .next (s.waitAt r [])
    else .next (s.setTask r { t with reyoke := some target, waiting := true })

end Sys2Proof.Machine
end

