-- ==== Sys2Proof/Machine/Time.lean ====
section
/-! DEFINITION. Time, latency bands and positions (14 R307 to R313), headland status and deferral (16 R346 to R348). -/

namespace Sys2Proof.Machine

/-! ## Time (14 R311) -/

/-- `rdtime` (14 R311). -/
def execRdtime (d : Reg) (_ : BitVec 1) (s : State) : Host.Outcome State Fault Refusal :=
  readOp [] d (fun s r _ _ => s.coreTime r.core) s

/-- `rdtime.loc` (14 R311). -/
def execRdtimeLoc (d : Reg) (_ : BitVec 1) (s : State) : Host.Outcome State Fault Refusal :=
  readOp [] d (fun s r _ _ => (s.region r.core).count) s

/-! ## The banded-latency table (14 R307, R308) -/

/-- An entry that leads to no core, or a reserved one. -/
def noPath : Word := 7

/-- The entry of a port: band 0 within a half-die, band 1 across the stitch, band 2 across a die boundary. -/
def State.portBand (s : State) (c : CoreRef) (d : Dir) : Word :=
  match s.neighbour c d with
  | none => noPath
  | some n => if n.die ≠ c.die then 0x12 else if isSouth n.idx ≠ isSouth c.idx then 0x9 else 0

/-- Entry `i` of a core's table (R307). A load through the cluster window takes 12 cycles (07 R155): band 0. -/
def State.bandEntry (s : State) (c : CoreRef) (i : Nat) : Word :=
  match i with
  | 0 => s.portBand c .north
  | 1 => s.portBand c .east
  | 2 => s.portBand c .south
  | 3 => s.portBand c .west
  | 4 => ((0 : BitVec 59) ++ Config.memPath s.mode.toNat c.die.val (isSouth c.idx) ++ (0 : BitVec 1) ++
      Config.memBand s.mode.toNat c.die.val (isSouth c.idx))
  | 5 => 0
  | _ => noPath

/-- `rdband` (14 R312). -/
def execRdband (d a : Reg) (_ : BitVec 1) (s : State) : Host.Outcome State Fault Refusal :=
  readOp [a] d (fun s r _ vs => s.bandEntry r.core (bits (vs.headD 0) 2 0)) s

/-! ## Positions (14 R313) -/

/-- The value of `rdpos`. -/
def State.position (s : State) (r : SlotRef) (t : Task) : Word :=
  let die := r.core.die
  let e := estOf s.mode die.val
  let hl := (s.hold (s.taskHold r t)).hlcount
  BitVec.ofNat 16 hl.toNat ++ (0 : BitVec 6) ++ BitVec.ofNat 6 (clusterNat r.core.idx) ++ (0 : BitVec 1) ++ flag t.home.isSome ++
    BitVec.ofNat 2 e.val ++ flag (lean die) ++ flag (isSouth r.core.idx) ++ BitVec.ofNat 6 (courseLen s.mode e) ++ (0 : BitVec 3) ++
    BitVec.ofNat 5 (posOf s.mode die) ++ (0 : BitVec 2) ++ BitVec.ofNat 3 (siteFy die.val) ++ BitVec.ofNat 3 (dieFx die.val) ++
    (0 : BitVec 3) ++ BitVec.ofNat 5 die.val

/-- `rdpos` (14 R313). -/
def execRdpos (d : Reg) (_ : BitVec 1) (s : State) : Host.Outcome State Fault Refusal :=
  readOp [] d (fun s r t _ => s.position r t) s

/-! ## Headland status (16 R347, R348) -/

/-- A headland or a gang switch drains the holding. -/
def State.draining (s : State) (h : HoldRef) : Bool :=
  match (s.estate h.est).phase with
  | .draining .. => s.paused h
  | _ => false

/-- The value of `hl.stat`. -/
def State.headland (s : State) (r : SlotRef) (t : Task) : Word :=
  let h := s.taskHold r t
  let est := s.estate h.est
  let die := r.core.die
  let e := estOf s.mode die.val
  let next := dieAt s.mode e (posOf s.mode die + 1)
  (0 : BitVec 12) ++ flag (lean next) ++ flag (est.deferEn.getLsbD h.ix.val) ++ flag (est.deferred.contains h.ix) ++
    flag (s.draining h) ++ BitVec.ofNat 16 (s.hold h).hlcount.toNat ++ BitVec.ofNat 32 (saturate (est.due - s.panelNs) 0xFFFFFFFF)

/-- `hl.stat` (16 R347). -/
def execHlStat (d : Reg) (_ : BitVec 1) (s : State) : Host.Outcome State Fault Refusal :=
  readOp [] d (fun s r t _ => s.headland r t) s

/-- The issuing task asks the next headland to wait (HlDefer). -/
def State.defer (s : State) (r : SlotRef) (t : Task) : State :=
  let h := s.taskHold r t
  let est := s.estate h.est
  if t.home.isSome || !est.deferEn.getLsbD h.ix.val || s.draining h then s
  else
    let s := s.setEstate h.est { est with asked := true, deferred := if est.deferred.contains h.ix then est.deferred else est.deferred ++ [h.ix] }
    s.modTask r fun t => { t with deferring := true }

/-- `hl.defer` (16 R348). -/
def execHlDefer (_ : BitVec 1) (s : State) : Host.Outcome State Fault Refusal :=
  runOp [] 0 (fun s r t _ => .done (s.defer r t) 0) s

end Sys2Proof.Machine
end

