-- ==== Sys2Proof/Machine/Translation.lean ====
section
/-! DEFINITION. The memory steps of the host and of the dies (10 R221 to R226, 11 R441, 16 R342): ATS_COMPLETION,
PAGE_REQUEST_RESPONSE, ATS_INVALIDATION, UNCORRECTABLE_ERROR, HOST_WRITE, HOST_READ and LATE_REPLY. -/

namespace Sys2Proof.Machine

/-! ## The translation cache (R221, R222) -/

/-- Fills the cache: in place of an entry of the same page, in a free place, or in place of the victim. Nobody waits any more for
what the entry covers; page requests for it stay until they are answered. -/
def DieHw.install (x : DieHw) (t : TlbEntry) (victim : Nat) : DieHw :=
  let same := fun (u : TlbEntry) => u.pasid = t.pasid ∧ u.page = t.page ∧ u.size = t.size
  let tlb :=
    if x.tlb.any (fun u => decide (same u)) then x.tlb.map fun u => if same u then t else u
    else if x.tlb.length < Config.tlbEntries then x.tlb ++ [t]
    else setAt x.tlb (victim % Config.tlbEntries) t
  let hit := fun (q : AtsReq) => t.covers q.pasid q.page && t.grants q.need
  { x with
    tlb := tlb
    ats := (x.ats.filter fun q => !hit q || q.paging).map fun q => if hit q then { q with who := .gone } else q }

/-- The function whose context a die's page requests belong to (20 R411): that of the holding on the die, and the physical function on a
fallow die, for a guest there as well (log 127). -/
def State.dieFn (s : State) (d : DieId) : Fin 64 :=
  match s.holdAt d with
  | some (h, _) => vfOf (s.hold h)
  | none => 0

def State.setReq (s : State) (d : DieId) (n : Nat) (q : AtsReq) : State := s.setDie d { s.die d with ats := setAt (s.die d).ats n q }
def State.dropReq (s : State) (d : DieId) (n : Nat) : State := s.setDie d { s.die d with ats := removeAt (s.die d).ats n }

/-- A request fails: the waiting access will take the cause; where nobody waits, the request is dropped. -/
def State.failReq (s : State) (d : DieId) (n : Nat) (q : AtsReq) (cause : BitVec 8) : State :=
  if q.who = .gone then s.dropReq d n else s.setReq d n { q with stage := .failed cause }

/-- The translation that ATS returns with the permissions of a request, or the cause of what is missing. A mapping to the host's
own memory gives a core no translation: its memory is the stacks' (01 R19). -/
def State.answer (s : State) (q : AtsReq) : TlbEntry ⊕ BitVec 8 :=
  match s.iommuMap q.pasid q.page with
  | some m => if m.host then .inr 0x15 else if (entryOf m).grants q.need then .inl (entryOf m) else .inr 0x16
  | none => .inr 0x15

/-- ATS_COMPLETION (R221, R222): a response to request `n` of a die. One for an image that has moved on is discarded (16
R342). -/
def execAtsCompletion (d : DieId) (n victim : Nat) (s : State) : Host.Outcome State Fault Refusal :=
  match (s.die d).ats[n]? with
  | none => .next s
  | some q =>
    let waits := q.stage = .asked || q.stage = .repeated || q.stage = .stale
    if !waits || !(s.die d).outstanding n then .next s
    else if q.stage = .stale then .next (s.dropReq d n)
    else match s.answer q with
      | .inl t => .next (s.setDie d ((s.die d).install t victim))
      | .inr c =>
        if q.stage = .repeated then .next (s.failReq d n q c)
        else
          let f := s.dieFn d
          .next (if (s.fn f).priAlloc.toNat ≤ s.pageRequests f then s
            else (s.setReq d n { q with stage := .paging c f }).askPage q.pasid q.page)

/-- PAGE_REQUEST_RESPONSE (R222, R224): Success repeats the ATS request once; any other response fails the access. For an
access that a drain abandoned, the page is installed in the cache. -/
def execPageRequestResponse (d : DieId) (n : Nat) (ok : Bool) (victim : Nat) (s : State) : Host.Outcome State Fault Refusal :=
  match (s.die d).ats[n]? with
  | none => .next s
  | some q =>
    match q.stage with
    | .paging c _ =>
      if !ok then .next (s.failReq d n q c)
      else if q.who = .gone then
        match s.answer q with
        | .inl t =>
          let s := s.dropReq d n
          .next (s.setDie d ((s.die d).install t victim))
        | .inr _ => .next (s.dropReq d n)
      else .next (s.setReq d n { q with stage := .repeated })
    | _ => .next s

/-- An entry matches an invalidation request (R223). -/
def TlbEntry.matches (t : TlbEntry) (pasid : BitVec 20) (base size : Nat) : Bool :=
  decide (t.pasid = pasid ∧ t.page < base + size ∧ base < t.page + pageBytes t.size)

/-- A location has a byte in a range of a PASID's virtual addresses. -/
def Loc.inRange (l : Loc) (pasid : BitVec 20) (base size : Nat) : Bool :=
  match l with
  | .pool .. => false
  | .mem ks p ea => decide (p = pasid ∧ ea < base + size ∧ base < ea + ks.length)

/-- A buffered store of a die has used a translation that an invalidation removes. -/
def DieHw.used (x : DieHw) (pasid : BitVec 20) (base size : Nat) (b : BufferedStore) : Bool :=
  b.loc.inRange pasid base size || x.tlb.any fun t => t.matches pasid base size && b.loc.inRange pasid t.page (pageBytes t.size)

/-- Performs the stores of a die's slots up to the last that has used a translation which an invalidation removes. -/
def State.flushUsed (s : State) (d : DieId) (pasid : BitVec 20) (base size : Nat) : State :=
  (s.image d).cores.foldl (fun s p => (List.finRange 4).foldl (fun s i =>
    let r : SlotRef := ⟨⟨d, coreIdx p.1⟩, i⟩
    s.drainStores r (lastIndex ((s.die d).used pasid base size) (s.slot r).stores)) s) s

/-- ATS_INVALIDATION (R223): matching entries leave the cache of every die, and the completion is sent once every access that used one
has been performed: the buffered stores are performed first, and the model performs every other access whole. -/
def execAtsInvalidation (pasid : BitVec 20) (base size : Nat) (s : State) : Host.Outcome State Fault Refusal :=
  let s := (List.finRange 32).foldl (fun s d => s.flushUsed d pasid base size) s
  .next { s with
    dies := s.dies.map fun x => { x with tlb := x.tlb.filter fun t => !t.matches pasid base size }
    outbox := s.outbox ++ [.invalidated pasid base size] }

/-! ## Poison (R226) -/

/-- UNCORRECTABLE_ERROR (R226): the 64-byte line of a pool or of a stack becomes poisoned. -/
def execUncorrectableError (l : LineRef) (s : State) : Host.Outcome State Fault Refusal :=
  match l with
  | .pool c n =>
    let p := (s.core c).pool
    if 64 * n < Config.poolBytes then .next (s.setCore c { s.core c with pool := { p with poison := NSet.insert p.poison n } })
    else .next s
  | .mem n => if 64 * n < 32 * Config.stackBytes then .next { s with memPoison := NSet.insert s.memPoison n } else .next s

/-! ## The host's accesses (11 R441, 20 R411) -/

/-- The stack bytes of a range of an estate's physical space, if it lies in the estate's capacity. -/
def State.hostKeys (s : State) (e : Fin 4) (a len : Nat) : Option (List Nat) :=
  if e.val < estateCount s.mode ∧ a + len ≤ capacity s.mode e then some ((List.range len).map fun i => stackAddr s.mode e (a + i))
  else none

/-- HOST_WRITE (R441, R226): performed at the home slices; the EP bit poisons every line that it writes. -/
def execHostWrite (e : Fin 4) (a : Nat) (bs : List Byte) (ep : Bool) (s : State) : Host.Outcome State Fault Refusal :=
  match s.hostKeys e a bs.length with
  | none => .next s
  | some ks =>
    .next { s.putMem (ks.zip bs) with
      memPoison := if ep then NSet.insertAll s.memPoison (ks.map (· / 64)) else NSet.eraseAll s.memPoison (wholeMemLines ks) }

/-- HOST_READ (R441, R226): the latest write at each home slice; a poisoned line sets the EP bit. -/
def execHostRead (e : Fin 4) (a len : Nat) (s : State) : Host.Outcome State Fault Refusal :=
  match s.hostKeys e a len with
  | none => .next s
  | some ks =>
    .next { s with outbox := s.outbox ++ [.readData (ks.map fun k => Memory.get s.mem k) (ks.any fun k => s.memPoison.contains (k / 64))] }

/-- LATE_REPLY (16 R342): a reply to a request of an image that has moved on is discarded, so nothing changes. -/
def execLateReply (_ : DieId) (s : State) : Host.Outcome State Fault Refusal := .next s

end Sys2Proof.Machine
end

