-- ==== Sys2Proof/Machine/Dispatch.lean ====
section
/-! DEFINITION. The dispatch of every instruction to its meaning. -/

namespace Sys2Proof.Machine

def exec (instr : Instr) (st : State) : Host.Outcome State Fault Refusal :=
  match instr with
  | .add d a b h => Sys2Proof.Machine.execAdd d a b h st
  | .sub d a b h => Sys2Proof.Machine.execSub d a b h st
  | .and d a b h => Sys2Proof.Machine.execAnd d a b h st
  | .or d a b h => Sys2Proof.Machine.execOr d a b h st
  | .xor d a b h => Sys2Proof.Machine.execXor d a b h st
  | .andn d a b h => Sys2Proof.Machine.execAndn d a b h st
  | .sll d a b h => Sys2Proof.Machine.execSll d a b h st
  | .srl d a b h => Sys2Proof.Machine.execSrl d a b h st
  | .sra d a b h => Sys2Proof.Machine.execSra d a b h st
  | .rotl d a b h => Sys2Proof.Machine.execRotl d a b h st
  | .slt d a b h => Sys2Proof.Machine.execSlt d a b h st
  | .sltn d a b h => Sys2Proof.Machine.execSltn d a b h st
  | .min d a b h => Sys2Proof.Machine.execMin d a b h st
  | .max d a b h => Sys2Proof.Machine.execMax d a b h st
  | .minn d a b h => Sys2Proof.Machine.execMinn d a b h st
  | .maxn d a b h => Sys2Proof.Machine.execMaxn d a b h st
  | .mul d a b h => Sys2Proof.Machine.execMul d a b h st
  | .mulh d a b h => Sys2Proof.Machine.execMulh d a b h st
  | .mulhn d a b h => Sys2Proof.Machine.execMulhn d a b h st
  | .div d a b h => Sys2Proof.Machine.execDiv d a b h st
  | .divn d a b h => Sys2Proof.Machine.execDivn d a b h st
  | .rem d a b h => Sys2Proof.Machine.execRem d a b h st
  | .remn d a b h => Sys2Proof.Machine.execRemn d a b h st
  | .clz d a h => Sys2Proof.Machine.execClz d a h st
  | .ctz d a h => Sys2Proof.Machine.execCtz d a h st
  | .popc d a h => Sys2Proof.Machine.execPopc d a h st
  | .bext d a b h => Sys2Proof.Machine.execBext d a b h st
  | .bins d a b h => Sys2Proof.Machine.execBins d a b h st
  | .sext d a b h => Sys2Proof.Machine.execSext d a b h st
  | .zext d a b h => Sys2Proof.Machine.execZext d a b h st
  | .csel d a b h => Sys2Proof.Machine.execCsel d a b h st
  | .addW d a b h => Sys2Proof.Machine.execAddW d a b h st
  | .subW d a b h => Sys2Proof.Machine.execSubW d a b h st
  | .sllW d a b h => Sys2Proof.Machine.execSllW d a b h st
  | .srlW d a b h => Sys2Proof.Machine.execSrlW d a b h st
  | .sraW d a b h => Sys2Proof.Machine.execSraW d a b h st
  | .mulW d a b h => Sys2Proof.Machine.execMulW d a b h st
  | .divW d a b h => Sys2Proof.Machine.execDivW d a b h st
  | .divnW d a b h => Sys2Proof.Machine.execDivnW d a b h st
  | .remW d a b h => Sys2Proof.Machine.execRemW d a b h st
  | .remnW d a b h => Sys2Proof.Machine.execRemnW d a b h st
  | .srd d s => Sys2Proof.Machine.execSrd d s st
  | .swr a s => Sys2Proof.Machine.execSwr a s st
  | .sxch d a s => Sys2Proof.Machine.execSxch d a s st
  | .ldbit d a b h => Sys2Proof.Machine.execLdbit d a b h st
  | .stbit d a b h => Sys2Proof.Machine.execStbit d a b h st
  | .cbInit a b h k => Sys2Proof.Machine.execCbInit a b h k st
  | .cbNeed a h k => Sys2Proof.Machine.execCbNeed a h k st
  | .cbRoom a h k => Sys2Proof.Machine.execCbRoom a h k st
  | .cbAdvH a h k => Sys2Proof.Machine.execCbAdvH a h k st
  | .cbAdvT a h k => Sys2Proof.Machine.execCbAdvT a h k st
  | .cbStat d h k => Sys2Proof.Machine.execCbStat d h k st
  | .addi d a i => Sys2Proof.Machine.execAddi d a i st
  | .andi d a i => Sys2Proof.Machine.execAndi d a i st
  | .ori d a i => Sys2Proof.Machine.execOri d a i st
  | .xori d a i => Sys2Proof.Machine.execXori d a i st
  | .slli d a n => Sys2Proof.Machine.execSlli d a n st
  | .srli d a n => Sys2Proof.Machine.execSrli d a n st
  | .srai d a n => Sys2Proof.Machine.execSrai d a n st
  | .slliW d a n => Sys2Proof.Machine.execSlliW d a n st
  | .srliW d a n => Sys2Proof.Machine.execSrliW d a n st
  | .sraiW d a n => Sys2Proof.Machine.execSraiW d a n st
  | .slti d a i => Sys2Proof.Machine.execSlti d a i st
  | .sltni d a i => Sys2Proof.Machine.execSltni d a i st
  | .lhi d i => Sys2Proof.Machine.execLhi d i st
  | .addpc d i => Sys2Proof.Machine.execAddpc d i st
  | .addiW d a i => Sys2Proof.Machine.execAddiW d a i st
  | .trap i => Sys2Proof.Machine.execTrap i st
  | .ldS8 d a i => Sys2Proof.Machine.execLdS8 d a i st
  | .ldN8 d a i => Sys2Proof.Machine.execLdN8 d a i st
  | .ldS16 d a i => Sys2Proof.Machine.execLdS16 d a i st
  | .ldN16 d a i => Sys2Proof.Machine.execLdN16 d a i st
  | .ldS32 d a i => Sys2Proof.Machine.execLdS32 d a i st
  | .ldN32 d a i => Sys2Proof.Machine.execLdN32 d a i st
  | .ld64 d a i => Sys2Proof.Machine.execLd64 d a i st
  | .ldV d a i => Sys2Proof.Machine.execLdV d a i st
  | .st8 d a i => Sys2Proof.Machine.execSt8 d a i st
  | .st16 d a i => Sys2Proof.Machine.execSt16 d a i st
  | .st32 d a i => Sys2Proof.Machine.execSt32 d a i st
  | .st64 d a i => Sys2Proof.Machine.execSt64 d a i st
  | .stV d a i => Sys2Proof.Machine.execStV d a i st
  | .beq a b o => Sys2Proof.Machine.execBeq a b o st
  | .bne a b o => Sys2Proof.Machine.execBne a b o st
  | .blt a b o => Sys2Proof.Machine.execBlt a b o st
  | .bge a b o => Sys2Proof.Machine.execBge a b o st
  | .bltn a b o => Sys2Proof.Machine.execBltn a b o st
  | .bgen a b o => Sys2Proof.Machine.execBgen a b o st
  | .j o => Sys2Proof.Machine.execJ o st
  | .jal o => Sys2Proof.Machine.execJal o st
  | .reyoke o => Sys2Proof.Machine.execReyoke o st
  | .jr a i => Sys2Proof.Machine.execJr a i st
  | .jalr d a i => Sys2Proof.Machine.execJalr d a i st
  | .amAdd d a b h z => Sys2Proof.Machine.execAmAdd d a b h z st
  | .amAnd d a b h z => Sys2Proof.Machine.execAmAnd d a b h z st
  | .amOr d a b h z => Sys2Proof.Machine.execAmOr d a b h z st
  | .amXor d a b h z => Sys2Proof.Machine.execAmXor d a b h z st
  | .amMin d a b h z => Sys2Proof.Machine.execAmMin d a b h z st
  | .amMax d a b h z => Sys2Proof.Machine.execAmMax d a b h z st
  | .amMinn d a b h z => Sys2Proof.Machine.execAmMinn d a b h z st
  | .amMaxn d a b h z => Sys2Proof.Machine.execAmMaxn d a b h z st
  | .amSwap d a b h z => Sys2Proof.Machine.execAmSwap d a b h z st
  | .amCas d a b h z => Sys2Proof.Machine.execAmCas d a b h z st
  | .amAddPs a b h z => Sys2Proof.Machine.execAmAddPs a b h z st
  | .amAndPs a b h z => Sys2Proof.Machine.execAmAndPs a b h z st
  | .amOrPs a b h z => Sys2Proof.Machine.execAmOrPs a b h z st
  | .amXorPs a b h z => Sys2Proof.Machine.execAmXorPs a b h z st
  | .amMinPs a b h z => Sys2Proof.Machine.execAmMinPs a b h z st
  | .amMaxPs a b h z => Sys2Proof.Machine.execAmMaxPs a b h z st
  | .amMinnPs a b h z => Sys2Proof.Machine.execAmMinnPs a b h z st
  | .amMaxnPs a b h z => Sys2Proof.Machine.execAmMaxnPs a b h z st
  | .fence h s => Sys2Proof.Machine.execFence h s st
  | .ldAcq d a h s => Sys2Proof.Machine.execLdAcq d a h s st
  | .stRel d a h s => Sys2Proof.Machine.execStRel d a h s st
  | .fenceEngDr h => Sys2Proof.Machine.execFenceEngDr h st
  | .fenceEngPl h => Sys2Proof.Machine.execFenceEngPl h st
  | .fenceEng h => Sys2Proof.Machine.execFenceEng h st
  | .sow a h => Sys2Proof.Machine.execSow a h st
  | .sowAt a b h => Sys2Proof.Machine.execSowAt a b h st
  | .sowCap a b h => Sys2Proof.Machine.execSowCap a b h st
  | .endTask a h => Sys2Proof.Machine.execEndTask a h st
  | .yield h => Sys2Proof.Machine.execYield h st
  | .wfe h => Sys2Proof.Machine.execWfe h st
  | .sev a h => Sys2Proof.Machine.execSev a h st
  | .trigArm a b h => Sys2Proof.Machine.execTrigArm a b h st
  | .trigDec a b h => Sys2Proof.Machine.execTrigDec a b h st
  | .trigRd d a h => Sys2Proof.Machine.execTrigRd d a h st
  | .hmask a h => Sys2Proof.Machine.execHmask a h st
  | .yoke a h => Sys2Proof.Machine.execYoke a h st
  | .unyoke h => Sys2Proof.Machine.execUnyoke h st
  | .msgH a h => Sys2Proof.Machine.execMsgH a h st
  | .msgD a h k => Sys2Proof.Machine.execMsgD a h k st
  | .msgGo h => Sys2Proof.Machine.execMsgGo h st
  | .msgTo a b h => Sys2Proof.Machine.execMsgTo a b h st
  | .mqRd d h k => Sys2Proof.Machine.execMqRd d h k st
  | .mqPop h => Sys2Proof.Machine.execMqPop h st
  | .mqPeek d h => Sys2Proof.Machine.execMqPeek d h st
  | .mbPost a b h => Sys2Proof.Machine.execMbPost a b h st
  | .mbTake a b h => Sys2Proof.Machine.execMbTake a b h st
  | .gbpAcc a b h => Sys2Proof.Machine.execGbpAcc a b h st
  | .gbpSub a b h => Sys2Proof.Machine.execGbpSub a b h st
  | .gbpElim a b h => Sys2Proof.Machine.execGbpElim a b h st
  | .gbpDamp d a b h => Sys2Proof.Machine.execGbpDamp d a b h st
  | .gbpRes d a b h => Sys2Proof.Machine.execGbpRes d a b h st
  | .rdtime d h => Sys2Proof.Machine.execRdtime d h st
  | .rdtimeLoc d h => Sys2Proof.Machine.execRdtimeLoc d h st
  | .rdband d a h => Sys2Proof.Machine.execRdband d a h st
  | .rdpos d h => Sys2Proof.Machine.execRdpos d h st
  | .barArrive h k => Sys2Proof.Machine.execBarArrive h k st
  | .barWait h k => Sys2Proof.Machine.execBarWait h k st
  | .barMask a h k => Sys2Proof.Machine.execBarMask a h k st
  | .barStat d h k => Sys2Proof.Machine.execBarStat d h k st
  | .hlStat d h => Sys2Proof.Machine.execHlStat d h st
  | .hlDefer h => Sys2Proof.Machine.execHlDefer h st
  | .resume a h => Sys2Proof.Machine.execResume a h st
  | .park h => Sys2Proof.Machine.execPark h st
  | .faultPost a b h => Sys2Proof.Machine.execFaultPost a b h st
  | .sqTake d a h => Sys2Proof.Machine.execSqTake d a h st
  | .sqAdmit d a h => Sys2Proof.Machine.execSqAdmit d a h st
  | .sqRetire a h => Sys2Proof.Machine.execSqRetire a h st
  | .kvGet d a h => Sys2Proof.Machine.execKvGet d a h st
  | .kvPut a b h => Sys2Proof.Machine.execKvPut a b h st
  | .stopTest d a b h => Sys2Proof.Machine.execStopTest d a b h st
  | .plGeo a s => Sys2Proof.Machine.execPlGeo a s st
  | .plMma a b z => Sys2Proof.Machine.execPlMma a b z st
  | .plMmt a b z => Sys2Proof.Machine.execPlMmt a b z st
  | .plZacc a b => Sys2Proof.Machine.execPlZacc a b st
  | .plLdacc a => Sys2Proof.Machine.execPlLdacc a st
  | .plStacc a o => Sys2Proof.Machine.execPlStacc a o st
  | .plWait a => Sys2Proof.Machine.execPlWait a st
  | .plTile a b z => Sys2Proof.Machine.execPlTile a b z st
  | .plFlush => Sys2Proof.Machine.execPlFlush st
  | .plMmaBlk a b z => Sys2Proof.Machine.execPlMmaBlk a b z st
  | .plMmtBlk a b z => Sys2Proof.Machine.execPlMmtBlk a b z st
  | .plTileBlk a b z => Sys2Proof.Machine.execPlTileBlk a b z st
  | .drCopyGp a b => Sys2Proof.Machine.execDrCopyGp a b st
  | .drCopyPg a b => Sys2Proof.Machine.execDrCopyPg a b st
  | .drCopyPp a b => Sys2Proof.Machine.execDrCopyPp a b st
  | .drCopyGg a b => Sys2Proof.Machine.execDrCopyGg a b st
  | .drGathG a b => Sys2Proof.Machine.execDrGathG a b st
  | .drGathP a b => Sys2Proof.Machine.execDrGathP a b st
  | .drScatG a b => Sys2Proof.Machine.execDrScatG a b st
  | .drScatP a b => Sys2Proof.Machine.execDrScatP a b st
  | .drFillG a b => Sys2Proof.Machine.execDrFillG a b st
  | .drFillP a b => Sys2Proof.Machine.execDrFillP a b st
  | .drWait a => Sys2Proof.Machine.execDrWait a st
  | .vaddF32 d a b => Sys2Proof.Machine.execVaddF32 d a b st
  | .vaddS32 d a b => Sys2Proof.Machine.execVaddS32 d a b st
  | .vsubF32 d a b => Sys2Proof.Machine.execVsubF32 d a b st
  | .vsubS32 d a b => Sys2Proof.Machine.execVsubS32 d a b st
  | .vmulF32 d a b => Sys2Proof.Machine.execVmulF32 d a b st
  | .vmulS32 d a b => Sys2Proof.Machine.execVmulS32 d a b st
  | .vfmaF32 d a b c => Sys2Proof.Machine.execVfmaF32 d a b c st
  | .vfnmF32 d a b c => Sys2Proof.Machine.execVfnmF32 d a b c st
  | .vminF32 d a b => Sys2Proof.Machine.execVminF32 d a b st
  | .vminS32 d a b => Sys2Proof.Machine.execVminS32 d a b st
  | .vminN32 d a b => Sys2Proof.Machine.execVminN32 d a b st
  | .vmaxF32 d a b => Sys2Proof.Machine.execVmaxF32 d a b st
  | .vmaxS32 d a b => Sys2Proof.Machine.execVmaxS32 d a b st
  | .vmaxN32 d a b => Sys2Proof.Machine.execVmaxN32 d a b st
  | .vabsF32 d a => Sys2Proof.Machine.execVabsF32 d a st
  | .vabsS32 d a => Sys2Proof.Machine.execVabsS32 d a st
  | .vnegF32 d a => Sys2Proof.Machine.execVnegF32 d a st
  | .vnegS32 d a => Sys2Proof.Machine.execVnegS32 d a st
  | .vrcpF32 d a => Sys2Proof.Machine.execVrcpF32 d a st
  | .vrsqF32 d a => Sys2Proof.Machine.execVrsqF32 d a st
  | .vand d a b => Sys2Proof.Machine.execVand d a b st
  | .vor d a b => Sys2Proof.Machine.execVor d a b st
  | .vxor d a b => Sys2Proof.Machine.execVxor d a b st
  | .vsll d a b => Sys2Proof.Machine.execVsll d a b st
  | .vsrl d a b => Sys2Proof.Machine.execVsrl d a b st
  | .vsra d a b => Sys2Proof.Machine.execVsra d a b st
  | .vsel d a b c => Sys2Proof.Machine.execVsel d a b c st
  | .vdotF32 d a b => Sys2Proof.Machine.execVdotF32 d a b st
  | .vsclF32 d a b => Sys2Proof.Machine.execVsclF32 d a b st
  | .vcmpEqF32 d a b => Sys2Proof.Machine.execVcmpEqF32 d a b st
  | .vcmpNeF32 d a b => Sys2Proof.Machine.execVcmpNeF32 d a b st
  | .vcmpLtF32 d a b => Sys2Proof.Machine.execVcmpLtF32 d a b st
  | .vcmpLeF32 d a b => Sys2Proof.Machine.execVcmpLeF32 d a b st
  | .vcmpEqS32 d a b => Sys2Proof.Machine.execVcmpEqS32 d a b st
  | .vcmpNeS32 d a b => Sys2Proof.Machine.execVcmpNeS32 d a b st
  | .vcmpLtS32 d a b => Sys2Proof.Machine.execVcmpLtS32 d a b st
  | .vcmpLeS32 d a b => Sys2Proof.Machine.execVcmpLeS32 d a b st
  | .vcmpLtN32 d a b => Sys2Proof.Machine.execVcmpLtN32 d a b st
  | .vcmpLeN32 d a b => Sys2Proof.Machine.execVcmpLeN32 d a b st
  | .vraddF32 d a => Sys2Proof.Machine.execVraddF32 d a st
  | .vraddS32 d a => Sys2Proof.Machine.execVraddS32 d a st
  | .vrmaxF32 d a => Sys2Proof.Machine.execVrmaxF32 d a st
  | .vrmaxS32 d a => Sys2Proof.Machine.execVrmaxS32 d a st
  | .vrminF32 d a => Sys2Proof.Machine.execVrminF32 d a st
  | .vrminS32 d a => Sys2Proof.Machine.execVrminS32 d a st
  | .vrmaxiF32 d a => Sys2Proof.Machine.execVrmaxiF32 d a st
  | .vcvtF32S32 d a => Sys2Proof.Machine.execVcvtF32S32 d a st
  | .vcvtS32F32 d a => Sys2Proof.Machine.execVcvtS32F32 d a st
  | .vcvtBf16F32 d a => Sys2Proof.Machine.execVcvtBf16F32 d a st
  | .vcvtF16F32 d a => Sys2Proof.Machine.execVcvtF16F32 d a st
  | .vcvtF32Bf16 d a => Sys2Proof.Machine.execVcvtF32Bf16 d a st
  | .vcvtF32F16 d a => Sys2Proof.Machine.execVcvtF32F16 d a st
  | .vcvtE4m3F32 d a => Sys2Proof.Machine.execVcvtE4m3F32 d a st
  | .vcvtE5m2F32 d a => Sys2Proof.Machine.execVcvtE5m2F32 d a st
  | .vcvtF32E4m3 d a => Sys2Proof.Machine.execVcvtF32E4m3 d a st
  | .vcvtF32E5m2 d a => Sys2Proof.Machine.execVcvtF32E5m2 d a st
  | .vpackS16 d a b => Sys2Proof.Machine.execVpackS16 d a b st
  | .vpackN16 d a b => Sys2Proof.Machine.execVpackN16 d a b st
  | .vpackS8 d a b => Sys2Proof.Machine.execVpackS8 d a b st
  | .vpackN8 d a b => Sys2Proof.Machine.execVpackN8 d a b st
  | .vunpkS16 d a k => Sys2Proof.Machine.execVunpkS16 d a k st
  | .vunpkN16 d a k => Sys2Proof.Machine.execVunpkN16 d a k st
  | .vunpkS8 d a k => Sys2Proof.Machine.execVunpkS8 d a k st
  | .vunpkN8 d a k => Sys2Proof.Machine.execVunpkN8 d a k st
  | .vbcast d a => Sys2Proof.Machine.execVbcast d a st
  | .vext d a k => Sys2Proof.Machine.execVext d a k st
  | .vins d a k => Sys2Proof.Machine.execVins d a k st
  | .vperm d a b => Sys2Proof.Machine.execVperm d a b st
  | .vrot d a k => Sys2Proof.Machine.execVrot d a k st
  | .vshfl d a b => Sys2Proof.Machine.execVshfl d a b st
  | .ldgV d a b => Sys2Proof.Machine.execLdgV d a b st
  | .stgV d a b => Sys2Proof.Machine.execStgV d a b st
  | .brk => Sys2Proof.Machine.execBrk st
  | .illegalInstruction w => Sys2Proof.Machine.execIllegalInstruction w st
  | .migrate loc => Sys2Proof.Machine.execMigrate loc st
  | .dispatch loc => Sys2Proof.Machine.execDispatch loc st
  | .partitionChange core => Sys2Proof.Machine.execPartitionChange core st
  | .concurrentDispatch h tag => Sys2Proof.Machine.execConcurrentDispatch h tag st
  | .gleanCluster core => Sys2Proof.Machine.execGleanCluster core st
  | .gleanHolding die => Sys2Proof.Machine.execGleanHolding die st
  | .restoreSeedMove loc => Sys2Proof.Machine.execRestoreSeedMove loc st
  | .handlerWatchdog loc => Sys2Proof.Machine.execHandlerWatchdog loc st
  | .deliver h n => Sys2Proof.Machine.execDeliver h n st
  | .faultRecordOffer h => Sys2Proof.Machine.execFaultRecordOffer h st
  | .ploughGrant die cl => Sys2Proof.Machine.execPloughGrant die cl st
  | .tileCommit die cl => Sys2Proof.Machine.execTileCommit die cl st
  | .drillRow core => Sys2Proof.Machine.execDrillRow core st
  | .atsCompletion die n victim => Sys2Proof.Machine.execAtsCompletion die n victim st
  | .pageRequestResponse die n ok victim => Sys2Proof.Machine.execPageRequestResponse die n ok victim st
  | .atsInvalidation pasid base size => Sys2Proof.Machine.execAtsInvalidation pasid base size st
  | .uncorrectableError line => Sys2Proof.Machine.execUncorrectableError line st
  | .hostWrite e addr bytes ep => Sys2Proof.Machine.execHostWrite e addr bytes ep st
  | .hostRead e addr len => Sys2Proof.Machine.execHostRead e addr len st
  | .lateReply die => Sys2Proof.Machine.execLateReply die st
  | .drain e => Sys2Proof.Machine.execDrain e st
  | .drainWatchdog e => Sys2Proof.Machine.execDrainWatchdog e st
  | .headlandMove e => Sys2Proof.Machine.execHeadlandMove e st
  | .headlandResume e => Sys2Proof.Machine.execHeadlandResume e st
  | .gangSwitch e => Sys2Proof.Machine.execGangSwitch e st
  | .timeBeacon die south miss => Sys2Proof.Machine.execTimeBeacon die south miss st
  | .arbiterEpoch nonPlough draw demand => Sys2Proof.Machine.execArbiterEpoch nonPlough draw demand st
  | .wearUpdate j ageing retired eol => Sys2Proof.Machine.execWearUpdate j ageing retired eol st
  | .coreFailure core => Sys2Proof.Machine.execCoreFailure core st
  | .retireCore port v => Sys2Proof.Machine.execRetireCore port v st
  | .launchTake h => Sys2Proof.Machine.execLaunchTake h st
  | .launchComplete h tag => Sys2Proof.Machine.execLaunchComplete h tag st
  | .walkerPush h => Sys2Proof.Machine.execWalkerPush h st
  | .walkerCompletion h => Sys2Proof.Machine.execWalkerCompletion h st
  | .ringEnable fn ring v => Sys2Proof.Machine.execRingEnable fn ring v st
  | .svCqHeadWrite fn v => Sys2Proof.Machine.execSvCqHeadWrite fn v st
  | .kvCountWrite fn v => Sys2Proof.Machine.execKvCountWrite fn v st
  | .hlCtlWrite port e v => Sys2Proof.Machine.execHlCtlWrite port e v st
  | .create port e v => Sys2Proof.Machine.execCreate port e v st
  | .destroy port e v => Sys2Proof.Machine.execDestroy port e v st
  | .stop port e v work => Sys2Proof.Machine.execStop port e v work st
  | .start port e v => Sys2Proof.Machine.execStart port e v st
  | .switchOut port e v => Sys2Proof.Machine.execSwitchOut port e v st
  | .switchIn port e v => Sys2Proof.Machine.execSwitchIn port e v st
  | .setWd port e v => Sys2Proof.Machine.execSetWd port e v st
  | .resetHolding port e v again => Sys2Proof.Machine.execResetHolding port e v again st
  | .estateReset port e v lost again => Sys2Proof.Machine.execEstateReset port e v lost again st
  | .functionLevelReset fn again => Sys2Proof.Machine.execFunctionLevelReset fn again st
  | .partitionModeWrite port v => Sys2Proof.Machine.execPartitionModeWrite port v st
  | .survey fn port reach again => Sys2Proof.Machine.execSurvey fn port reach again st
  | .svResume fn port => Sys2Proof.Machine.execSvResume fn port st
  | .setDbg fn port => Sys2Proof.Machine.execSetDbg fn port st
  | .stewardClaim port w => Sys2Proof.Machine.execStewardClaim port w st
  | .stewardResign port v => Sys2Proof.Machine.execStewardResign port v st
  | .stewardHandover port v => Sys2Proof.Machine.execStewardHandover port v st
  | .stwBeat port => Sys2Proof.Machine.execStwBeat port st
  | .stewardLapse linkDown => Sys2Proof.Machine.execStewardLapse linkDown st
  | .stwStatRead port => Sys2Proof.Machine.execStwStatRead port st
  | .linkStateChange k up => Sys2Proof.Machine.execLinkStateChange k up st
  | .collectiveTake h => Sys2Proof.Machine.execCollectiveTake h st
  | .collectiveComplete h n bufs => Sys2Proof.Machine.execCollectiveComplete h n bufs st
  | .collectiveTimeout h n part => Sys2Proof.Machine.execCollectiveTimeout h n part st
  | .abandonNotice h n part => Sys2Proof.Machine.execAbandonNotice h n part st
  | .exportTicket port v => Sys2Proof.Machine.execExportTicket port v st
  | .importTicket port v path accepted => Sys2Proof.Machine.execImportTicket port v path accepted st
  | .importComplete h pulled => Sys2Proof.Machine.execImportComplete h pulled st
  | .harvest port w => Sys2Proof.Machine.execHarvest port w st
  | .harvestCut cut => Sys2Proof.Machine.execHarvestCut cut st
  | .restore port w => Sys2Proof.Machine.execRestore port w st
  | .attest port v reach => Sys2Proof.Machine.execAttest port v reach st
  | .powerOn rep => Sys2Proof.Machine.execPowerOn rep st
  | .registerWrite fn port r v => Sys2Proof.Machine.execRegisterWrite fn port r v st
  | .msiXUnmask fn w => Sys2Proof.Machine.execMsiXUnmask fn w st
  | .transplantTicketCheck ticket => Sys2Proof.Machine.execTransplantTicketCheck ticket st

end Sys2Proof.Machine
end

