-- ==== Sys2Proof/Machine/HostRegs.lean ====
section
/-! DEFINITION. The register spaces that the host sees (20 R412, 21 R429): which instruction a write at an offset of BAR0 of a
function is, and what a read at an offset returns (00 R3). Offsets that no table names read zero and ignore writes. -/

namespace Sys2Proof.Machine

/-- The element of a list of registers of 8 bytes that stands at an offset. -/
def regAt (off base n : Nat) : Option (Fin n) :=
  if off % 8 = 0 ∧ base ≤ off then
    let i := (off - base) / 8
    if h : i < n then some ⟨i, h⟩ else none
  else none

/-- A write of a register that has no row of its own. -/
noncomputable def plain (fn : Fin 64) (port : BitVec 1) (v : Word) (r : HostReg) : Option Instr := some (.registerWrite fn port r v)

/-- A write of a register that is read only, in a block that opens at stage 7 of bring-up. -/
noncomputable def fixed (fn : Fin 64) (port : BitVec 1) (v : Word) : Option Instr := plain fn port v (.readOnly false)

/-! ## Writes

`ok` is what the outside answers to a command: whether the host translates the command's address, and whether a peer is reached
and accepts. -/

/-- The steward block (R413). -/
noncomputable def stewardInstr (port : BitVec 1) (off : Nat) (v : Word) : Option Instr :=
  match off with
  | 0x00 => some (if bit v 16 then .stewardClaim port ⟨v, none⟩ else .stewardResign port v)
  | 0x10 => plain 0 port v .stwLease
  | 0x18 => some (.stwBeat port)
  | 0x20 => some (.stewardHandover port v)
  | 0x08 | 0x28 => plain 0 port v (.readOnly true)
  | _ => none

/-- A host command block (R416); the event registers belong to the physical function. -/
noncomputable def hcInstr (fn : Fin 64) (port : BitVec 1) (off : Nat) (v : Word) (ok : Bool) : Option Instr :=
  match off with
  | 0x00 => match bits v 7 0 with
    | 1 => some (.survey fn port ok false)
    | 2 => some (.svResume fn port)
    | 3 => some (.setDbg fn port)
    | _ => plain fn port v .hcCmdOther
  | 0x08 => plain fn port v .hcArg
  | 0x10 => plain fn port v .hcAddr
  | 0x18 => plain fn port v .hcLen
  | 0x20 => fixed fn port v
  | 0x28 => if fn = 0 then plain fn port v .hostEvt else none
  | 0x30 => if fn = 0 then plain fn port v .hostMask else none
  | _ => none

/-- HM.CMD (19 R396). -/
noncomputable def hmInstr (port : BitVec 1) (e : Fin 4) (v : Word) : Option Instr :=
  match bits v 7 0 with
  | 1 => some (.create port e v)
  | 2 => some (.destroy port e v)
  | 3 => some (.stop port e v ⟨false, false⟩)
  | 4 => some (.start port e v)
  | 5 => some (.switchOut port e v)
  | 6 => some (.switchIn port e v)
  | 7 => some (.setWd port e v)
  | 8 => some (.resetHolding port e v false)
  | 9 => some (.estateReset port e v [] false)
  | _ => plain 0 port v (.hmCmdOther e)

/-- The registers of an estate: headland registers (16 R333) and the holding-management block at 0x800 (19 R395). -/
noncomputable def estateInstr (port : BitVec 1) (e : Fin 4) (off : Nat) (v : Word) : Option Instr :=
  match off with
  | 0x000 => some (.hlCtlWrite port e v)
  | 0x008 | 0x010 | 0x018 | 0x818 => fixed 0 port v
  | 0x800 => hmInstr port e v
  | 0x808 => plain 0 port v (.hmArg e)
  | 0x810 => plain 0 port v (.hmTime e)
  | 0x820 => plain 0 port v (.hmDpr e)
  | 0x828 => plain 0 port v (.hmDprLen e)
  | 0x830 => plain 0 port v (.partner e)
  | _ => match (regAt off 0x840 8), (regAt off 0x880 8), (regAt off 0x900 128) with
    | some _, _, _ => fixed 0 port v
    | none, some h, _ => plain 0 port v (.lseed e h)
    | none, none, some i => plain 0 port v (.pw e ⟨i.val / 16, by omega⟩ ⟨i.val % 16, by omega⟩)
    | none, none, none => none

/-- A span link's registers (R419). -/
noncomputable def linkInstr (port : BitVec 1) (k : Fin 16) (off : Nat) (v : Word) : Option Instr :=
  match off with
  | 0x00 => plain 0 port v (.slCtl k)
  | 0x08 | 0x10 => fixed 0 port v
  | _ => none

/-- The transplant engine (R423). -/
noncomputable def trInstr (port : BitVec 1) (off : Nat) (v : Word) (ok : Bool) : Option Instr :=
  match off with
  | 0x00 => match bits v 7 0 with
    | 1 => some (.exportTicket port v)
    | 2 => some (.importTicket port v ok ok)
    | _ => plain 0 port v .trCmdOther
  | 0x28 => fixed 0 port v
  | _ => (regAt off 0x08 4).bind fun i => plain 0 port v (.trTicket i)

/-- The harvest engine (R424). -/
noncomputable def hvInstr (port : BitVec 1) (off : Nat) (v : Word) (ok : Bool) : Option Instr :=
  match off with
  | 0x00 => match bits v 7 0 with
    | 1 => some (.harvest port ⟨v, ok⟩)
    | 2 => some (.restore port ⟨v, ok⟩)
    | _ => plain 0 port v .hvCmdOther
  | 0x08 => plain 0 port v .hvTab
  | 0x10 => plain 0 port v .hvN
  | 0x18 => plain 0 port v .hvStep
  | 0x20 => fixed 0 port v
  | _ => none

/-- The security block (R428). -/
noncomputable def secInstr (port : BitVec 1) (off : Nat) (v : Word) (ok : Bool) : Option Instr :=
  match off with
  | 0x20 => some (.attest port v ok)
  | 0x28 => plain 0 port v .secAddr
  | 0x30 => plain 0 port v (.readOnly true)
  | _ => (regAt off 0x00 4).bind fun i => plain 0 port v (.secNonce i)

/-- The power block (21 R430, R433). -/
noncomputable def powerInstr (port : BitVec 1) (off : Nat) (v : Word) : Option Instr :=
  match off with
  | 0x000 => plain 0 port v .pwrEnv
  | 0x010 => plain 0 port v .pwrStat
  | _ => (regAt off 0x100 32).bind fun _ => fixed 0 port v

/-- The health block (21 R434 to R436). -/
noncomputable def healthInstr (port : BitVec 1) (off : Nat) (v : Word) : Option Instr :=
  match off with
  | 0x000 => some (.retireCore port v)
  | 0x008 => fixed 0 port v
  | 0x010 => plain 0 port v .wearWarn
  | 0x020 => plain 0 port v (.wearEvt false)
  | 0x028 => plain 0 port v (.wearEvt true)
  | _ => (regAt off 0x100 80).bind fun _ => fixed 0 port v

/-- A write at an offset of BAR0 of the physical function, by the 4 KiB block in which it lies. -/
noncomputable def pfInstr (port : BitVec 1) (offset : Nat) (v : Word) (ok : Bool) : Option Instr :=
  let b := offset / 0x1000
  let off := offset % 0x1000
  match b with
  | 0x00 => stewardInstr port off v
  | 0x01 => hcInstr 0 port off v ok
  | 0x02 => if off = 0 then some (.partitionModeWrite port v) else none
  | 0x20 => linkInstr port ⟨off / 0x100 % 16, Nat.mod_lt _ (by decide)⟩ (off % 0x100) v
  | 0x21 => if off = 0 then plain 0 port v .collTmo else none
  | 0x30 => trInstr port off v ok
  | 0x40 => hvInstr port off v ok
  | 0x50 => secInstr port off v ok
  | 0x60 => powerInstr port off v
  | 0x70 => healthInstr port off v
  | 0x80 => if off = 0 then plain 0 port v (.readOnly true) else none
  | _ => if h : 0x10 ≤ b ∧ b < 0x14 then estateInstr port ⟨b - 0x10, by omega⟩ off v else none

/-- A write of a ring's control: one that takes en from 0 to 1 is RING_ENABLE (18 R368). -/
noncomputable def State.ctlInstr (s : State) (fn : Fin 64) (port : BitVec 1) (ring : RingId) (v : Word) : Option Instr :=
  let en := match s.holdOfFn fn with
    | some h => ((s.serving h).ring ring).en
    | none => false
  if bit v 16 && !en then some (.ringEnable fn ring v) else plain fn port v (.ringCtl ring)

/-- A launch queue's registers (18 R367). -/
noncomputable def State.queueInstr (s : State) (fn : Fin 64) (port : BitVec 1) (q : Fin 16) (off : Nat) (v : Word) : Option Instr :=
  match off with
  | 0x00 => plain fn port v (.ringBase (.launch q))
  | 0x08 => s.ctlInstr fn port (.launch q) v
  | 0x10 => plain fn port v (.lqTail q)
  | 0x18 => fixed fn port v
  | _ => none

/-- A write at an offset of BAR0 of a virtual function: the serving block (18 R367), the host command block at 0x1000 and the
collective ring at 0x2000 (R421). -/
noncomputable def State.vfInstr (s : State) (fn : Fin 64) (port : BitVec 1) (offset : Nat) (v : Word) (ok : Bool) : Option Instr :=
  match offset with
  | 0x0000 => plain fn port v (.ringBase .request)
  | 0x0008 => s.ctlInstr fn port .request v
  | 0x0010 => plain fn port v .rqTail
  | 0x0020 => plain fn port v (.ringBase .completion)
  | 0x0028 => s.ctlInstr fn port .completion v
  | 0x0030 => some (.svCqHeadWrite fn v)
  | 0x0040 => plain fn port v .kvBase
  | 0x0048 => some (.kvCountWrite fn v)
  | 0x2000 => plain fn port v (.ringBase .collective)
  | 0x2008 => s.ctlInstr fn port .collective v
  | 0x2010 => plain fn port v .crTaddr
  | 0x0018 | 0x0038 | 0x2018 => fixed fn port v
  | _ =>
    if offset / 0x1000 = 1 then hcInstr fn port (offset % 0x1000) v ok
    else if h : 0x100 ≤ offset ∧ offset < 0x300 then s.queueInstr fn port ⟨(offset - 0x100) / 0x20, by omega⟩ (offset % 0x20) v
    else none

/-- The instruction that a write at an offset of BAR0 of a function is. Virtual functions are presented on port 0 only (R411). -/
noncomputable def State.mmioInstr (s : State) (port : BitVec 1) (fn : Fin 64) (offset : Nat) (v : Word) (ok : Bool) : Option Instr :=
  if fn = 0 then pfInstr port offset v ok else if s.vfOpen fn port then s.vfInstr fn port offset v ok else none

/-! ## Reads (00 R3, R412): fields that are write only or reserved read zero -/

def Result.word_ (x : Result) : Nat := (if x.pending then 0x100 else 0) + x.status.toNat

/-- A ring's control (18 R368). -/
def Ring.ctlWord (x : Ring) (launch : Bool) : Nat :=
  x.pasid.toNat * 2 ^ 32 + (if launch then x.tickets.toNat * 2 ^ 24 + x.prio.toNat * 2 ^ 22 else 0) + (if x.fault then 2 ^ 21 else 0) +
    (if x.en then 2 ^ 16 else 0) + x.lsize.toNat

/-- SV.KV.CTL (18 R369). -/
def Serving.kvWord (v : Serving) : Nat := (if v.kvBusy then 2 ^ 62 else 0) + v.kvFree.length * 2 ^ 20 + v.kvCount.toNat

/-- HM.STAT (19 R397). -/
def HmStat.word_ (x : HmStat) : Nat := x.detail.toNat * 2 ^ 16 + (if x.pending then 0x100 else 0) + x.status.toNat

/-- SL.CTL, SL.STAT and SL.PEER (R419). -/
def SpanLink.reg (x : SpanLink) (off : Nat) : Nat :=
  match off with
  | 0x00 => (if x.en then 1 else 0) + x.expected.toNat * 2 ^ 16
  | 0x08 => x.state.toNat + x.lanes.toNat * 2 ^ 4 + x.retries.toNat * 2 ^ 32
  | 0x10 => x.peer.toNat + x.peerLink.toNat * 2 ^ 48
  | _ => 0

/-- A wear entry (21 R434). -/
def Wear.word_ (w : Wear) : Nat := w.ageing.toNat * 2 ^ 24 + w.retired.toNat * 2 ^ 16 + w.eol.toNat

/-- The steward block, but for STW.STAT, which a read clears. -/
def State.stewardReg (s : State) (off : Nat) : Nat :=
  match off with
  | 0x08 => s.ownerWord
  | 0x10 => s.steward.lease.toNat
  | _ => 0

def State.hcRegister (s : State) (fn : Fin 64) (off : Nat) : Nat :=
  let x := s.fn fn
  match off with
  | 0x00 => x.hcCmd.toNat
  | 0x08 => x.hcArg.toNat
  | 0x10 => x.hcAddr.toNat
  | 0x18 => x.hcLen.toNat
  | 0x20 => (if x.hcPending then 0x100 else 0) + x.hcStatus.toNat
  | 0x28 => if fn = 0 then s.hostEvt.toNat else 0
  | 0x30 => if fn = 0 then s.hostMask.toNat else 0
  | _ => 0

def State.estateReg (s : State) (e : Fin 4) (off : Nat) : Nat :=
  let x := s.estate e
  match off with
  | 0x000 => x.ctlWord
  | 0x008 => x.due
  | 0x010 => x.lastWord
  | 0x018 => x.count.toNat
  | 0x800 => x.hmCmd.toNat
  | 0x808 => x.hmArg.toNat
  | 0x810 => x.hmTime.toNat
  | 0x818 => x.hmStat.word_
  | 0x820 => x.hmDpr.toNat
  | 0x828 => x.hmDprLen.toNat
  | 0x830 => x.partner.toNat
  | _ => match (regAt off 0x840 8), (regAt off 0x880 8), (regAt off 0x900 128) with
    | some h, _, _ => (s.hold ⟨e, h⟩).stateWord
    | none, some h, _ => (s.hold ⟨e, h⟩).lseed.toNat
    | none, none, some i => ((s.hold ⟨e, ⟨i.val / 16, by omega⟩⟩).weights[i.val % 16]'(by omega)).toNat
    | none, none, none => 0

def State.transplantReg (s : State) (off : Nat) : Nat :=
  match off with
  | 0x00 => s.transplant.cmd.toNat
  | 0x28 => s.transplant.stat.word_
  | _ => match regAt off 0x08 4 with
    | some i => (s.transplant.ticket[i]).toNat
    | none => 0

def State.harvestReg (s : State) (off : Nat) : Nat :=
  let x := s.harvest
  match off with
  | 0x00 => x.cmd.toNat
  | 0x08 => x.tab.toNat
  | 0x10 => x.n.toNat
  | 0x18 => x.step.toNat
  | 0x20 => x.detail.toNat * 2 ^ 32 + x.stat.word_
  | _ => 0

def State.securityReg (s : State) (off : Nat) : Nat :=
  match off with
  | 0x20 => s.security.cmd.toNat
  | 0x28 => s.security.addr.toNat
  | 0x30 => s.security.stat.word_
  | _ => match regAt off 0x00 4 with
    | some i => (s.security.nonce[i]).toNat
    | none => 0

/-- The duty field of PWR.DIE (21 R433): 4 bits, of which a duty of 16 has no stated form (log 109). -/
def dutyField (duty : BitVec 5) : Nat := if duty = 16 then Config.fullDuty.toNat else duty.toNat % 16

def State.powerReg (s : State) (off : Nat) : Nat :=
  match off with
  | 0x000 => s.power.env.toNat
  | 0x010 => (if s.power.overLimit then 2 ^ 32 else 0) + s.power.draw.toNat
  | _ => match regAt off 0x100 32 with
    | some d => dutyField (s.die d).duty * 2 ^ 16 + (s.die d).grant.toNat
    | none => 0

def State.healthReg (s : State) (off : Nat) : Nat :=
  let x := s.health
  match off with
  | 0x000 => x.cmd.toNat
  | 0x008 => x.stat.word_
  | 0x010 => x.warn.toNat
  | 0x020 => x.evt.toNat % 2 ^ 64
  | 0x028 => x.evt.toNat / 2 ^ 64
  | _ => match regAt off 0x100 80 with
    | some j => (x.wear[j]).word_
    | none => 0

/-- The blocks of the physical function that are served before stage 7 of bring-up: steward, security and boot (21 R439). -/
def earlyBlock (b : Nat) : Bool := b = 0x00 || b = 0x50 || b = 0x80

/-- What a read at an offset of BAR0 of the physical function returns; a block that the mode lacks reads zero. -/
def State.pfReg (s : State) (offset : Nat) : Nat :=
  let b := offset / 0x1000
  let off := offset % 0x1000
  if !s.isOpen && !earlyBlock b then 0
  else match b with
    | 0x00 => s.stewardReg off
    | 0x01 => s.hcRegister 0 off
    | 0x02 => if off = 0 then s.mode.toNat + (if s.pmDrain then 0x100 else 0) + s.pmStatus.toNat * 2 ^ 16 else 0
    | 0x20 => (s.links[off / 0x100 % 16]'(Nat.mod_lt _ (by decide))).reg (off % 0x100)
    | 0x21 => if off = 0 then s.collTmo.toNat else 0
    | 0x30 => s.transplantReg off
    | 0x40 => s.harvestReg off
    | 0x50 => s.securityReg off
    | 0x60 => s.powerReg off
    | 0x70 => s.healthReg off
    | 0x80 => if off = 0 then s.bootStage.toNat * 2 ^ 8 + s.bootResult.toNat else 0
    | _ => if h : 0x10 ≤ b ∧ b < 0x14 then (if b - 0x10 < estateCount s.mode then s.estateReg ⟨b - 0x10, by omega⟩ off else 0) else 0

/-- A register of the ring at an offset: base, control, and one index or two. -/
def Ring.reg (x : Ring) (launch : Bool) (off : Nat) : Nat :=
  match off with
  | 0x00 => x.base.toNat
  | 0x08 => x.ctlWord launch
  | 0x10 => x.tail.toNat
  | 0x18 => x.head.toNat
  | _ => 0

/-- What a read at an offset of BAR0 of a virtual function returns: its holding's registers. -/
def State.vfReg (s : State) (fn : Fin 64) (offset : Nat) : Nat :=
  if offset / 0x1000 = 1 then s.hcRegister fn (offset % 0x1000)
  else match s.holdOfFn fn with
    | none => 0
    | some h =>
      let v := s.serving h
      match offset with
      | 0x0020 => v.cq.base.toNat
      | 0x0028 => v.cq.ctlWord false
      | 0x0030 => v.cq.head.toNat
      | 0x0038 => v.cq.tail.toNat
      | 0x0040 => v.kvBase.toNat
      | 0x0048 => v.kvWord
      | 0x2000 => v.cr.base.toNat
      | 0x2008 => v.cr.ctlWord false
      | 0x2010 => v.crTaddr.toNat
      | 0x2018 => v.cr.head.toNat
      | _ =>
        if offset < 0x20 then v.rq.reg false offset
        else if h : 0x100 ≤ offset ∧ offset < 0x300 then (v.lq[(offset - 0x100) / 0x20]'(by omega)).reg true (offset % 0x20)
        else 0

/-- A read of eight bytes at an offset of BAR0 of a function, served to both ports for the physical function; STW.STAT is read and
cleared (R413, R415). -/
def State.mmioRead (s : State) (port : BitVec 1) (fn : Fin 64) (offset : Nat) : State :=
  if fn = 0 && offset = 0x28 then s.readDenied
  else
    let v := if fn = 0 then s.pfReg offset else if s.vfOpen fn port then s.vfReg fn offset else 0
    { s with outbox := s.outbox ++ [.register (word v)] }

/-- A read of NumVFs: virtual functions are presented on port 0 only, and on port 1 it reads 0 (R411). -/
def State.numVfsRead (s : State) (port : BitVec 1) : State :=
  { s with outbox := s.outbox ++ [.register (if port = 0 then s.numVfs.setWidth 64 else 0)] }

end Sys2Proof.Machine
end

