-- ==== Sys2Proof/Machine/Cycle.lean ====
section
/-! DEFINITION. One turn of an agent: what a thread slot does in its turn (fetch, decode, execute, single step, yokes), and
what the other turns do. Machine/Step.lean only calls it. -/

namespace Sys2Proof.Machine

/-- The task of a slot waits at its instruction. -/
def State.waits (s : State) (r : SlotRef) (id : Nat) : Bool :=
  match s.task r with
  | some t => t.id = id && t.waiting
  | none => false

/-! ## Single step (12 R270, 06 R147) -/

/-- An instruction at `pc` that goes on at `next` has branched or jumped: the fetch at its target comes before its step. -/
def jumps (i : Instr) (pc next : Word) : Bool :=
  match i with
  | .beq _ _ o | .bne _ _ o | .blt _ _ o | .bge _ _ o | .bltn _ _ o | .bgen _ _ o => decide (next = pc + branchOffset o)
  | .j _ | .jal _ | .jr _ _ | .jalr _ _ _ | .reyoke _ => true
  | _ => false

/-- After an instruction at `pc` has retired in a slot: the step trap, or, after a branch or jump, a mark that the next fetch
comes first. -/
def State.afterRetire (s : State) (i : Instr) (pc : Word) (r : SlotRef) : State :=
  match s.task r with
  | none => s
  | some t =>
    if t.waiting || t.stepped.isSome || !s.steps r then s
    else if jumps i pc t.pc then s.setTask r { t with stepped := some (pc, true) }
    else s.takeTrap r { cause := 0x53 } pc t.pc false

/-- A task whose instruction has retired is to take its step once its next word has been fetched. -/
def State.mustStep (s : State) (r : SlotRef) : Bool :=
  match s.task r with
  | some t => match t.stepped with
    | some (_, true) => true
    | _ => false
  | none => false

/-- A task takes the step of an instruction that retired before. -/
def State.takeStep (s : State) (r : SlotRef) : State :=
  match s.task r with
  | some t => match t.stepped with
    | some (pc, _) => (s.setTask r { t with stepped := none }).takeTrap r { cause := 0x53 } pc t.pc false
    | none => s
  | none => s

/-! ## What comes before the next instruction (05 R109, 12 R261) -/

/-- A task at its watchdog's limit is aborted, a task with an engine cause takes the oldest, and a task takes the step of an
instruction that retired in another slot's turn; none where its next instruction may come. -/
def State.takeDue (s : State) (r : SlotRef) : Option State :=
  match s.task r with
  | none => none
  | some t =>
    if (s.slot r).halted then none
    else if t.overdue then some (s.overrun r t)
    else match t.async, t.stepped with
      | a :: rest, _ =>
        some ((s.setTask r { t with async := rest }).takeTrap r { cause := a.cause, info := a.info, addr := a.addr } a.origin.pc t.pc true)
      | [], some (_, false) => some (s.takeStep r)
      | [], _ => none

/-! ## Yokes (05 R112) -/

/-- The slots that execute the word which a slot fetches: the attached cores of a yoke that it leads, itself first. -/
def State.members (s : State) (r : SlotRef) : List SlotRef :=
  match s.yokeOf r with
  | some y =>
    if y.attached.head? = some (cidxOf r.core.idx, r.slot) then
      y.attached.map fun (i, sl) => ⟨⟨r.core.die, clusterCore (clusterOf r.core.idx) i⟩, sl⟩
    else [r]
  | none => [r]

/-- A slot is attached to a yoke and does not lead it: it executes what its leader forwards. -/
def State.follows (s : State) (r : SlotRef) : Bool :=
  match s.yokeOf r with
  | some y => y.attached.contains (cidxOf r.core.idx, r.slot) && y.attached.head? ≠ some (cidxOf r.core.idx, r.slot)
  | none => false

/-- Executes a word in each of the given slots in turn. -/
def execAll (i : Instr) : List SlotRef → State → Host.Outcome State Fault Refusal
  | [], s => .next s
  | r :: rs, s => match exec i { s with cur := r } with
    | .next s' => execAll i rs s'
    | o => o

/-- Members whose next address differs from the leader's become dissenters (R112), whatever instruction made it differ
(log 101). -/
def State.dissent (s : State) (r : SlotRef) : State :=
  match s.yokeOf r, s.task r with
  | some y, some lead =>
    let d := r.core.die
    let cl := clusterOf r.core.idx
    let same := fun (m : Nat × SlotId) => match s.task ⟨⟨d, clusterCore cl m.1⟩, m.2⟩ with
      | some t => t.pc = lead.pc
      | none => false
    let y' := { y with attached := y.attached.filter same, loose := y.loose ++ y.attached.filter fun m => !same m }
    s.setCluster d cl { s.cluster d cl with yokes := (s.cluster d cl).yokes.map fun z => if z = y then y' else z }
  | _, _ => s

/-- The slots in which the instruction waits, each judged on the state before it. -/
def waiters (i : Instr) (s : State) (rs : List SlotRef) : List SlotRef :=
  rs.filter fun r => match s.task r, exec i { s with cur := r } with
    | some t, .next s' => s'.waits r t.id
    | _, _ => false

/-- What an instruction of a task waits for at a barrier or a ring, which may hold for a moment only. -/
def waitedFor (i : Instr) (t : Task) (c : Core) : Option WaitOn :=
  let value := fun a => (readFields t c [a]).map fun x => (x.1.headD 0).toNat
  match i with
  | .barWait _ k => some (.barrier k)
  | .cbNeed a _ k => (value a).map (.need k)
  | .cbRoom a _ k => (value a).map (.room k)
  | _ => none

/-- The condition of a wait holds on a core, whose checks pass. -/
def Core.meets (c : Core) : WaitOn → Bool
  | .barrier k => !c.hasArrived k
  | .need k n => (cbChecks (c.handle k) ((c.handle k).cons ≠ 0) n (c.handle k).slots).isNone && c.holds (.need k n)
  | .room k n => (cbChecks (c.handle k) ((c.handle k).prod ≠ 0) n (c.handle k).slots).isNone && c.holds (.room k n)
  | .plough => false

/-- A member of a stalled yoke whose own condition holds has met it: its wait has come to its end, which another member delays (07 R165,
15 R320; log 124). -/
def State.noteMet (s : State) (i : Instr) (r : SlotRef) : State :=
  match s.task r with
  | some t => match waitedFor i t (s.core r.core) with
    | some w => if (s.core r.core).meets w then s.setTask r { t with on := some w, met := true } else s
    | none => s
  | none => s

/-- A yoke executes a word in lock-step: a stall in any attached core stalls all of them (R112). -/
def yokeStep (i : Instr) (rs : List SlotRef) (r : SlotRef) (pc : Word) (s : State) : Host.Outcome State Fault Refusal :=
  match waiters i s rs with
  | [] => match execAll i rs s with
    | .next s' =>
      if rs.any fun m => match s.task m with | some t => s'.waits m t.id | none => false then .next s
      else .next (rs.foldl (fun s m => s.afterRetire i pc m) { s'.dissent r with cur := r })
    | o => o
  | ws => match execAll i ws ((rs.filter fun m => !ws.contains m).foldl (fun s m => s.noteMet i m) s) with
    | .next s' => .next { s' with cur := r }
    | o => o

/-- A member goes on after the word at which its leader has trapped (R112). -/
def State.pastWord (s : State) (r : SlotRef) : State :=
  s.modTask r fun t => { t with pc := t.pc + 4, waiting := false, on := none, met := false, stepped := none, parts := [] }

/-! ## The order of issue (05 R118) -/

/-- A slot has an instruction ready: its next word is there, and executed now it would not wait. The attached slots of a yoke have one
together (R112). -/
noncomputable def State.issuable (s : State) (r : SlotRef) : Bool :=
  let ms := match s.attachedYoke r with
    | some y => y.attached.map fun m => (⟨⟨r.core.die, clusterCore (clusterOf r.core.idx) m.1⟩, m.2⟩ : SlotRef)
    | none => [r]
  match s.task r with
  | none => false
  | some t => !(s.slot r).halted && !s.frozenHold (s.taskHold r t) && match s.fetch r t with
    | .wait _ => false
    | .trap _ => true
    | .ok w => match decode w with
      | .error _ => true
      | .ok i => (waiters i s ms).isEmpty

/-- A slot that has yielded issues again once each other slot of its core that has an instruction ready has issued one. -/
noncomputable def State.mayIssue (s : State) (r : SlotRef) : Bool :=
  (s.slot r).after.all fun i => !s.issuable ⟨r.core, i⟩

/-- A slot issues: no other slot of its core waits for it any more. -/
def State.issued (s : State) (r : SlotRef) : State :=
  let c := s.core r.core
  if c.slots.toList.all fun x => x.after.isEmpty then s
  else s.setCore r.core { c with slots := Vector.ofFn fun i =>
    let x := c.slots[i]
    { x with after := if i = r.slot then [] else x.after.filter (· ≠ r.slot) } }

/-! ## A thread slot's turn -/

/-- Executes a decoded instruction at `pc` in the slots `ms`, of which `r` leads or is alone. -/
def runWord (i : Instr) (r : SlotRef) (pc : Word) (ms : List SlotRef) (s : State) : Host.Outcome State Fault Refusal :=
  match ms with
  | [_] => match exec i { s with cur := r } with
    | .next s' => .next (s'.afterRetire i pc r)
    | o => o
  | _ => yokeStep i ms r pc s

/-- A slot whose next word has no translation yet waits at its address. What its instruction has waited for, and whether that has
come about, stays noted (07 R165, 15 R320). -/
def State.waitFetch (s : State) (r : SlotRef) (q : AtsReq) : State :=
  (s.addReq r.core.die q).modTask r fun t => { t with waiting := true }

/-- What a slot with a runnable task does: what comes before its next instruction, for it and for those that it leads, and then
fetch, decode and execution. A trap of the fetch takes the place of the step that a branch or jump owes (06 R147), poison (0x52) as
well as 0x10 (log 116). -/
noncomputable def taskTurn (r : SlotRef) (t : Task) (s : State) : Host.Outcome State Fault Refusal :=
  let ms := s.members r
  match ms.findSome? s.takeDue with
  | some s' => .next s'
  | none =>
    if s.follows r || !ms.all s.mayIssue then .next s
    else match s.fetch r t with
      | .wait q => .next (s.waitFetch r q)
      | .trap c =>
        .next (((ms.filter (· ≠ r)).foldl State.pastWord (s.setTask r { t with stepped := none })).fetchTrap r t c)
      | .ok w =>
        if ms.any s.mustStep then .next ((ms.filter s.mustStep).foldl State.takeStep s)
        else match decode w with
          | .error _ => .next (ms.foldl (fun s m => s.takeIllegal m w) s)
          | .ok i => runWord i r t.pc ms (ms.foldl State.issued s)

/-- A turn of a thread slot: a slot without a runnable task does nothing, and no task runs between the move and the resume of a
headland. -/
noncomputable def slotTurn (r : SlotRef) (s : State) : Host.Outcome State Fault Refusal :=
  let s := { s with cur := r }
  match s.task r with
  | none => .next s
  | some t => if (s.slot r).halted || s.frozenHold (s.taskHold r t) then .next s else taskTurn r t s

/-- The slot's task performs one part of the vector load that stands at its program counter ahead of the others (08 R176, R177): a
part that is there to be read, where nothing comes before the instruction. -/
noncomputable def State.loadPart (s : State) (r : SlotRef) (q : Nat) : State :=
  match s.task r with
  | none => s
  | some t =>
    if (s.slot r).halted || s.frozenHold (s.taskHold r t) || (s.takeDue r).isSome || t.stepped.isSome then s
    else match s.fetch r t with
      | .ok w => match decode w with
        | .ok i => s.performPart r t i q
        | .error _ => s
      | _ => s

/-! ## Time passes -/

/-- How far `a` and `b` are apart. -/
def apart (a b : Nat) : Nat := max a b - min a b

/-- A clock counts `l` ns while `ns` of true time pass: its tolerance is 50 ppm (14 R302, R303), beyond a credit (log 12). -/
def keepsRate (credit ns l : Nat) : Bool := decide (20000 * apart ns l ≤ credit + ns)

/-- The credit of a clock that has counted `l` ns in `ns` of true time: at most 1 ns. -/
def creditAfter (credit ns l : Nat) : Nat := min 20000 (credit + ns - 20000 * apart ns l)

/-- A region's counter advances by `l` while `ns` of true time and `p` of panel time pass; `toff` moves toward the measured offset by at
most 1 in every 16 ns of local time, and by at most 100 ns per ms of panel time (14 R303). -/
def Region.elapse (g : Region) (ns p l : Nat) : Region :=
  let k := min ((g.since + l) / 16) ((g.budget + p) / 10000)
  let d := (g.target - g.toff).toInt
  let m : Int := if d > k then k else if d < -(k : Int) then -(k : Int) else d
  { g with
    count := g.count + word l, toff := g.toff + BitVec.ofInt 64 m, since := (g.since + l) % 16, beacon := g.beacon + l
    budget := min 9999 (g.budget + p - 10000 * m.natAbs), credit := creditAfter g.credit ns l }

/-- How far a region's panel time is from the panel time `now`. -/
def Region.error (g : Region) (now : Nat) : Int := (g.count + g.toff - word now).toInt

/-- A region's counter can advance by `l` ns while `ns` of true time and `p` of panel time, which stands at `now`, pass: it keeps its
rate (14 R302), it does not miss its beacon, and it stays within 16 ns of panel time (R303). -/
def Region.keeps (g : Region) (now ns p l : Nat) : Bool :=
  keepsRate g.credit ns l && decide (g.beacon + l ≤ Config.beaconNs) &&
    decide (-16 ≤ (g.elapse ns p l).error (now + p)) && decide ((g.elapse ns p l).error (now + p) ≤ 16)

/-- A slot waits on a plough queue that a lean die suspends (09 R211, 11 R258): its watchdog does not advance. -/
def State.suspendedWait (s : State) (r : SlotRef) (t : Task) : Bool :=
  t.waiting && decide (t.on = some .plough) && s.suspended r.core

/-- The watchdogs of the running tasks of a core count cycles (05 R109), but for those of parked slots (12 R268). -/
def State.tick (s : State) (cycles : Nat) (c : CoreRef) : State :=
  (List.finRange 4).foldl (fun s i =>
    let r : SlotRef := ⟨c, i⟩
    match s.task r with
    | some t => if (s.slot r).parked || s.suspendedWait r t then s else s.setTask r { t with wd := t.wd + cycles }
    | none => s) s

/-- The local time that passes in a region while `ns` of true time pass. -/
def localNs (ns : Nat) (locals : FMap Nat) (d : DieId) (south : Bool) : Nat := FMap.get ns locals (2 * d.val + south.toNat)

/-- The panel time that passes while `ns` of true time pass. -/
def panelPassed (ns : Nat) (locals : FMap Nat) : Nat := FMap.get ns locals 64

/-- The clock regions of the panel after a passage of time, north and south of each die. -/
def State.regionsAfter (s : State) (ns : Nat) (locals : FMap Nat) : List Region :=
  (List.finRange 32).flatMap fun d =>
    let p := panelPassed ns locals
    [(s.die d).north.elapse ns p (localNs ns locals d false), (s.die d).south.elapse ns p (localNs ns locals d true)]

/-- No two regions read panel times 32 ns apart or more: a reading that is passed on at once is then followed by none that lies 32 ns
before it (14 R304; log 12). -/
def agree (rs : List Region) (now : Nat) : Bool :=
  rs.all fun x => rs.all fun y => decide (x.error now - y.error now < 32)

/-- Time can pass so: the clocks run (21 R439), the reference and every region keep time, and the regions agree. -/
def State.canElapse (s : State) (ns : Nat) (locals : FMap Nat) : Bool :=
  let p := panelPassed ns locals
  decide (2 ≤ s.bootStage.toNat) && keepsRate s.refCredit ns p && ((List.finRange 32).all fun d =>
    (s.die d).north.keeps s.panelNs ns p (localNs ns locals d false) && (s.die d).south.keeps s.panelNs ns p (localNs ns locals d true)) &&
    agree (s.regionsAfter ns locals) (s.panelNs + p)

/-- Time passes: cycles of the cores, nanoseconds of true time, and what the reference (64) and the regions (2·die, and one more for
the south) count where it differs from true time. -/
def State.elapse (s : State) (cycles ns : Nat) (locals : FMap Nat) : State :=
  let p := panelPassed ns locals
  let s := s.listedCores.foldl (fun s c => s.tick cycles c) s
  let dies := Vector.ofFn fun (d : Fin 32) =>
    let x := s.dies[d]
    { x with north := x.north.elapse ns p (localNs ns locals d false), south := x.south.elapse ns p (localNs ns locals d true) }
  let ests := s.estates.map fun e =>
    { e with
      phase := match e.phase with
        | .draining a c m o i => .draining a (c + cycles) m o i
        | p => p
      pending := e.pending.map fun c => if c.op = 3 then { c with cycles := c.cycles + cycles } else c
      holdings := e.holdings.map fun h =>
        if h.placed then { h with posNs := FMap.set h.posNs h.position (FMap.get 0 h.posNs h.position + p) } else h }
  { s with
    dies := dies, estates := ests, panelNs := s.panelNs + p, refCredit := creditAfter s.refCredit ns p
    power := { s.power with since := s.power.since + p }
    health := { s.health with wear := s.health.wear.map fun w => { w with since := w.since + p } } }

/-! ## A turn -/

/-- An event row acts where its condition holds (log 23). A word that the decoder refuses is met in a slot's own turn, so its row is
the turn of the slot `cur` where that slot fetches the word: whatever comes before the slot's next instruction comes first
(03 R56, 12 R261, R269). -/
noncomputable def eventTurn (i : Instr) (s : State) : Host.Outcome State Fault Refusal :=
  match i with
  | .illegalInstruction w =>
    match s.task s.cur with
    | none => .next s
    | some t => match s.fetch s.cur t, wordCause w with
      | .ok x, some _ => if x = w then slotTurn s.cur s else .next s
      | _, _ => .next s
  | i => if i.isEvent then exec i s else .next s

/-- One turn of the agent that plain data names (log 2). A passage of time that the clocks do not allow does not happen
(log 12). -/
noncomputable def turn (t : Turn) (s : State) : Host.Outcome State Fault Refusal :=
  match t with
  | .slot r => slotTurn r s
  | .event i => eventTurn i s
  | .elapse cycles ns locals => .next (if s.canElapse ns locals then s.elapse cycles ns locals else s)
  | .iommu table => .next { s with iommu := table }
  | .hostMem a bs => .next (s.hostWriteMem a bs)
  | .perform r n => .next (s.performOne r n)
  | .loadPart r q => .next (s.loadPart r q)
  | .fetchAhead r pc keep => .next (s.fetchAhead r pc keep)
  | .mmioWrite port fn offset v ok => match s.mmioInstr port fn offset v ok with
    | some i => exec i s
    | none => .next s
  | .mmioRead port fn offset => .next (s.mmioRead port fn offset)
  | .numVfsRead port => .next (s.numVfsRead port)

end Sys2Proof.Machine
end

