-- ==== Sys2Proof/Machine/Step.lean ====
section
/-! DEFINITION. One step of the machine, and the placing of an instruction where the next step fetches it. -/

namespace Sys2Proof.Machine

/-- One step: the next turn of the schedule, or, where it lists none, a turn of the slot `cur`. -/
noncomputable def step (s : State) : Host.Outcome State Fault Refusal :=
  match s.sched with
  | [] => slotTurn s.cur s
  | t :: ts => turn t { s with sched := ts }

/-- The address at which `State.withFetchWord` places its instruction. -/
def fetchPlace : Nat := 0x10000

/-- The task that `State.withFetchWord` places: of class concurrent, in PASID 0. -/
def fetchTask : Task := { pc := word fetchPlace, cw := 0x80000000, kind := .seeded {} }

/-- `s` with an instruction where the next step fetches it: a task at `fetchPlace` in the slot `cur`, on a holding that
stands on that die, with a translation of its page and the word in the stack (log 36). -/
def State.withFetchWord (s : State) (nbits w : Nat) : State :=
  let r := s.cur
  let e := estOf s.mode r.core.die.val
  let h : HoldRef := (s.holdAt r.core.die).elim ⟨e, 0⟩ Prod.fst
  let s := match s.holdAt r.core.die with
    | some _ => s.modHold h fun x => { x with state := .running, closed := false }
    | none => s.modHold h fun x => { x with state := .running, vf := 1, dies := 1, position := posOf s.mode r.core.die, w := 20 }
  let entry : TlbEntry := ⟨0, fetchPlace, .k4, 0, true, true, true⟩
  let s := s.setDie r.core.die { s.die r.core.die with tlb := entry :: (s.die r.core.die).tlb }
  let s := { s with
    sched := []
    memPoison := s.memPoison.filter fun l => l ≠ stackAddr s.mode e 0 / 64
    mem := Memory.write s.mem (stackAddr s.mode e 0) (toBytes 4 (w % 2 ^ (min nbits 32))) }
  s.setSlot r { task := some fetchTask, stores := (s.slot r).stores }

end Sys2Proof.Machine
end

