-- ==== Sys2Proof/Certificates/Slice0/Obligations.lean ====
section
/-! DEFINITION. The statements for the provers, from the numbered rules of the spec. -/

namespace Sys2Proof.Claims
open Sys2Proof.Machine

/-! ## Vocabulary -/

/-- The slot `cur` runs task `t`; no port that the fields name is dead; the queues that the source fields pop hold
their words, which with the registers give `vs` and leave `c`; and the queue that the destination pushes has room (06 R125). -/
def Ready (s : State) (srcs : List Reg) (dst : Reg) (t : Task) (vs : List Word) (c : Core) : Prop :=
  s.task s.cur = some t ∧ s.deadPort s.cur.core (srcs ++ [dst]) = none ∧ readFields t (s.core s.cur.core) srcs = some (vs, c) ∧
    s.roomFor s.cur.core dst = true

/-- The state in which the instruction takes its effect: its sources are popped, and the next fetch is of the next word. -/
def popped (s : State) (c : Core) (t : Task) : State := s.retire s.cur c t

/-- A result of a rule: source fields in reading order, destination field, and the value of the source values. -/
abbrev ValueRule := List Reg × Reg × (List Word → Word)

def rule1 (d a : Reg) (f : Word → Word) : ValueRule := ([a], d, one f)
def rule2 (d a b : Reg) (f : Word → Word → Word) : ValueRule := ([a, b], d, two f)
def rule3 (d a b : Reg) (f : Word → Word → Word → Word) : ValueRule := ([a, b, d], d, three f)

/-- A 32-bit result, sign-extended (06 R140). -/
def wide (x : Nat) : Word := (BitVec.ofNat 32 x).signExtend 64
def wideInt (x : Int) : Word := (BitVec.ofInt 32 x).signExtend 64
/-- The low 32 bits of an operand, as a natural and as a signed number. -/
def low (x : Word) : Nat := x.toNat % 2 ^ 32
def lowInt (x : Word) : Int := (BitVec.ofNat 32 x.toNat).toInt

/-- The rules R137 to R139, in the arithmetic of the spec's own table. -/
def aluRule : Instr → Option ValueRule
  | .add d a b _ => some (rule2 d a b fun A B => word (A.toNat + B.toNat))
  | .sub d a b _ => some (rule2 d a b fun A B => BitVec.ofInt 64 (A.toInt - B.toInt))
  | .and d a b _ => some (rule2 d a b fun A B => word (A.toNat &&& B.toNat))
  | .or d a b _ => some (rule2 d a b fun A B => word (A.toNat ||| B.toNat))
  | .xor d a b _ => some (rule2 d a b fun A B => word (A.toNat ^^^ B.toNat))
  | .andn d a b _ => some (rule2 d a b fun A B => word (A.toNat &&& (2 ^ 64 - 1 - B.toNat)))
  | .sll d a b _ => some (rule2 d a b fun A B => word (A.toNat * 2 ^ (B.toNat % 64)))
  | .srl d a b _ => some (rule2 d a b fun A B => word (A.toNat / 2 ^ (B.toNat % 64)))
  | .sra d a b _ => some (rule2 d a b fun A B => BitVec.ofInt 64 (A.toInt / 2 ^ (B.toNat % 64)))
  | .rotl d a b _ => some (rule2 d a b fun A B => word (A.toNat * 2 ^ (B.toNat % 64) + A.toNat / 2 ^ (64 - B.toNat % 64)))
  | .slt d a b _ => some (rule2 d a b fun A B => if A.toInt < B.toInt then 1 else 0)
  | .sltn d a b _ => some (rule2 d a b fun A B => if A.toNat < B.toNat then 1 else 0)
  | .min d a b _ => some (rule2 d a b fun A B => BitVec.ofInt 64 (min A.toInt B.toInt))
  | .max d a b _ => some (rule2 d a b fun A B => BitVec.ofInt 64 (max A.toInt B.toInt))
  | .minn d a b _ => some (rule2 d a b fun A B => word (min A.toNat B.toNat))
  | .maxn d a b _ => some (rule2 d a b fun A B => word (max A.toNat B.toNat))
  | .mul d a b _ => some (rule2 d a b fun A B => word (A.toNat * B.toNat))
  | .mulh d a b _ => some (rule2 d a b fun A B => BitVec.ofInt 64 (A.toInt * B.toInt / 2 ^ 64))
  | .mulhn d a b _ => some (rule2 d a b fun A B => word (A.toNat * B.toNat / 2 ^ 64))
  | .div d a b _ => some (rule2 d a b fun A B => if B.toNat = 0 then BitVec.ofInt 64 (-1) else BitVec.ofInt 64 (A.toInt.tdiv B.toInt))
  | .divn d a b _ => some (rule2 d a b fun A B => if B.toNat = 0 then word (2 ^ 64 - 1) else word (A.toNat / B.toNat))
  | .rem d a b _ => some (rule2 d a b fun A B => if B.toNat = 0 then A else BitVec.ofInt 64 (A.toInt.tmod B.toInt))
  | .remn d a b _ => some (rule2 d a b fun A B => if B.toNat = 0 then A else word (A.toNat % B.toNat))
  | .clz d a _ => some (rule1 d a fun A => word ((List.range 64).takeWhile fun k => !A.getLsbD (63 - k)).length)
  | .ctz d a _ => some (rule1 d a fun A => word ((List.range 64).takeWhile fun k => !A.getLsbD k).length)
  | .popc d a _ => some (rule1 d a fun A => word ((List.range 64).filter fun k => A.getLsbD k).length)
  | .bext d a b _ => some (rule2 d a b fun A B => word (A.toNat / 2 ^ (B.toNat % 64) % 2 ^ (B.toNat / 256 % 64 + 1)))
  | .bins d a b _ => some (rule3 d a b fun A B D =>
      let mask := word ((2 ^ (B.toNat / 256 % 64 + 1) - 1) * 2 ^ (B.toNat % 64))
      (D &&& ~~~mask) ||| (word (A.toNat * 2 ^ (B.toNat % 64)) &&& mask))
  | .sext d a b _ => some (rule2 d a b fun A B => sext A (B.toNat % 64 + 1))
  | .zext d a b _ => some (rule2 d a b fun A B => word (A.toNat % 2 ^ (B.toNat % 64 + 1)))
  | .csel d a b _ => some (rule3 d a b fun A B D => if B.toNat ≠ 0 then A else D)
  | _ => none

/-- The `.w` forms (06 R140, R138). -/
def aluWRule : Instr → Option ValueRule
  | .addW d a b _ => some (rule2 d a b fun A B => wide (low A + low B))
  | .subW d a b _ => some (rule2 d a b fun A B => wideInt (lowInt A - lowInt B))
  | .sllW d a b _ => some (rule2 d a b fun A B => wide (low A * 2 ^ (B.toNat % 32)))
  | .srlW d a b _ => some (rule2 d a b fun A B => wide (low A / 2 ^ (B.toNat % 32)))
  | .sraW d a b _ => some (rule2 d a b fun A B => wideInt (lowInt A / 2 ^ (B.toNat % 32)))
  | .mulW d a b _ => some (rule2 d a b fun A B => wide (low A * low B))
  | .divW d a b _ => some (rule2 d a b fun A B => if low B = 0 then wideInt (-1) else wideInt ((lowInt A).tdiv (lowInt B)))
  | .divnW d a b _ => some (rule2 d a b fun A B => if low B = 0 then wide (2 ^ 32 - 1) else wide (low A / low B))
  | .remW d a b _ => some (rule2 d a b fun A B => if low B = 0 then wide (low A) else wideInt ((lowInt A).tmod (lowInt B)))
  | .remnW d a b _ => some (rule2 d a b fun A B => if low B = 0 then wide (low A) else wide (low A % low B))
  | _ => none

/-- The immediate forms and the shift group (06 R141, R142), but for `addpc`. -/
def immRule : Instr → Option ValueRule
  | .addi d a i => some (rule1 d a fun A => BitVec.ofInt 64 (A.toInt + i.toInt))
  | .addiW d a i => some (rule1 d a fun A => wideInt (low A + i.toInt))
  | .andi d a i => some (rule1 d a fun A => word (A.toNat &&& i.toNat))
  | .ori d a i => some (rule1 d a fun A => word (A.toNat ||| i.toNat))
  | .xori d a i => some (rule1 d a fun A => word (A.toNat ^^^ i.toNat))
  | .slti d a i => some (rule1 d a fun A => if A.toInt < i.toInt then 1 else 0)
  | .sltni d a i => some (rule1 d a fun A => if A.toNat < (BitVec.ofInt 64 i.toInt).toNat then 1 else 0)
  | .lhi d i => some ([], d, fun _ => BitVec.ofInt 64 (i.toInt * 2 ^ 16))
  | .slli d a n => some (rule1 d a fun A => word (A.toNat * 2 ^ n.toNat))
  | .srli d a n => some (rule1 d a fun A => word (A.toNat / 2 ^ n.toNat))
  | .srai d a n => some (rule1 d a fun A => BitVec.ofInt 64 (A.toInt / 2 ^ n.toNat))
  | .slliW d a n => some (rule1 d a fun A => wide (low A * 2 ^ n.toNat))
  | .srliW d a n => some (rule1 d a fun A => wide (low A / 2 ^ n.toNat))
  | .sraiW d a n => some (rule1 d a fun A => wideInt (lowInt A / 2 ^ n.toNat))
  | _ => none

/-- Where each instruction of these rules writes, if it computes a value from its sources alone. -/
def valueRule (i : Instr) : Option ValueRule := (aluRule i).orElse fun _ => (aluWRule i).orElse fun _ => immRule i

end Sys2Proof.Claims

section
open Sys2Proof Sys2Proof.Machine Sys2Proof.Claims

/-- 06 R137 to R139: every 64-bit form of major 0x01 completes with the value of its rule in its destination, whatever the
operand-reuse hint. That `divn` of the operands −2⁶³ and −1 gives the natural quotient 0, where the table of R138 prints 2⁶³, is the
model's reading (log 115). -/
def Obligations.AluValues : Prop :=
  ∀ (i : Instr) (srcs : List Reg) (d : Reg) (f : List Word → Word) (s : State) (t : Task) (vs : List Word) (c : Core),
    aluRule i = some (srcs, d, f) → Ready s srcs d t vs c → exec i s = .next ((popped s c t).writeReg s.cur d (f vs))

/-- 06 R140, with the limits of R138 at 32 bits: every `.w` form completes with the sign-extended 32-bit value of its rule. That
`divn.w` at the limit of the signed forms gives the natural quotient 0 is the model's reading (log 115). -/
def Obligations.AluWordValues : Prop :=
  ∀ (i : Instr) (srcs : List Reg) (d : Reg) (f : List Word → Word) (s : State) (t : Task) (vs : List Word) (c : Core),
    aluWRule i = some (srcs, d, f) → Ready s srcs d t vs c → exec i s = .next ((popped s c t).writeReg s.cur d (f vs))

/-- 06 R141, R142: the immediate forms and the shift group complete with the values of their rules; `addpc` adds to the
address of the instruction; `lhi` and `addpc` with a field a other than 0 are refused at decode with cause 0x02, and a `.w` shift amount
of 32 to 63 with cause 0x03. -/
def Obligations.ImmediateValues : Prop :=
  (∀ (i : Instr) (srcs : List Reg) (d : Reg) (f : List Word → Word) (s : State) (t : Task) (vs : List Word) (c : Core),
    immRule i = some (srcs, d, f) → Ready s srcs d t vs c → exec i s = .next ((popped s c t).writeReg s.cur d (f vs))) ∧
  (∀ (d : Reg) (k : BitVec 16) (s : State) (t : Task) (vs : List Word) (c : Core), Ready s [] d t vs c →
    exec (.addpc d k) s = .next ((popped s c t).writeReg s.cur d (BitVec.ofInt 64 (t.pc.toInt + k.toInt * 2 ^ 16)))) ∧
  (∀ (d a : Reg) (k : BitVec 16), a ≠ 0 → decode (encRI 0x0B d a k) = .error .reserved ∧ decode (encRI 0x0C d a k) = .error .reserved) ∧
  (∀ (d a : Reg) (sel : BitVec 4) (n : BitVec 6), sel = 8 ∨ sel = 9 ∨ sel = 10 → 32 ≤ n.toNat →
    decode (encSH d a sel n) = .error .range)

/-- The core `k` places after one in its cluster, wrapping (06 R126, 01 R14). -/
def Sys2Proof.Claims.ringCore (c : CoreRef) (k : Nat) : CoreRef := ⟨c.die, clusterCore (clusterOf c.idx) ((cidxOf c.idx + k) % 8)⟩

/-- One tile on, in a direction (06 R127). -/
def Sys2Proof.Claims.besides (x y : Coord) : Dir → Prop
  | .north => y.hx = x.hx ∧ y.hy + 1 = x.hy
  | .east => y.hx = x.hx + 1 ∧ y.hy = x.hy
  | .south => y.hx = x.hx ∧ y.hy = x.hy + 1
  | .west => y.hx + 1 = x.hx ∧ y.hy = x.hy

/-- The port of the neighbour that pairs with a port (06 R127). -/
def Sys2Proof.Claims.pairOf : Dir → Dir
  | .north => .south
  | .east => .west
  | .south => .north
  | .west => .east

/-- Queue `q` of core `n` is the one into which core `c` pushes: of `fw`, the furrow of the next core of its cluster that is not
retired (06 R126); of a port, the paired inbound queue of the live core one tile on in the holding grid (06 R127). -/
def Sys2Proof.Claims.pushes (s : State) (c : CoreRef) : Chan → CoreRef → Chan → Prop
  | .furrow, n, q => q = .furrow ∧ ∃ k, 1 ≤ k ∧ k ≤ 8 ∧ n = ringCore c k ∧ s.retired n = false ∧
      ∀ j, 1 ≤ j → j < k → s.retired (ringCore c j) = true
  | .port d, n, q => q = .port (pairOf d) ∧ ∃ h k x, s.holdAt c.die = some (h, k) ∧ besides (coordOn k c.idx) x d ∧
      s.inGrid h x.hx x.hy = true ∧ n = s.coreAt h x.hx x.hy ∧ s.retired n = false

/-- 06 R123, R126, R127: what a write of a register does. g0 discards it; a storage register holds the value from then on and every
other register of the task keeps its own; `fw` appends the word to the queue of the core's successor in its furrow ring, and a port
to the paired queue of the core one tile on in the holding grid. -/
def Obligations.RegisterWrite : Prop :=
  ∀ (s : State) (r : SlotRef) (t : Task) (d e : Reg) (v : Word), s.task r = some t →
    (d = 0 → ∀ c, (s.writeReg r d v).core c = s.core c) ∧
    (chanOf d = none → ∃ t', (s.writeReg r d v).task r = some t' ∧ t'.reg e = if d = e ∧ d ≠ 0 then v else t.reg e) ∧
    (∀ q n q', chanOf d = some q → pushes s r.core q n q' →
      ((s.writeReg r d v).core n).inbound q' = (s.core n).inbound q' ++ [v])
namespace Sys2Proof.Claims
open Sys2Proof.Machine

/-! ## Vector rules (08) -/

/-- Lane `i` of a v register of a task (08 R169). -/
def vlane (t : Task) (x : Reg) (i : Nat) : W32 := lane (t.vreg x) i

/-- A lane rule: the v register written and, for each lane, its value. -/
abbrev LaneRule := Reg × (Task → Nat → W32)

def lane1 (d a : Reg) (f : W32 → W32) : LaneRule := (d, fun t i => f (vlane t a i))
def lane2 (d a b : Reg) (f : W32 → W32 → W32) : LaneRule := (d, fun t i => f (vlane t a i) (vlane t b i))
def lane3 (d a b c : Reg) (f : W32 → W32 → W32 → W32) : LaneRule := (d, fun t i => f (vlane t a i) (vlane t b i) (vlane t c i))
/-- A lane of a mask (08 R171). -/
def truth (p : Bool) : W32 := if p then 0xFFFFFFFF else 0
/-- An FP32 value of a lane, the canonical NaN for every NaN (08 R178). -/
def quiet (x y : W32) : W32 := if isNan32 x then 0x7FC00000 else y

/-- The lane forms that read v registers only (08 R178 to R181, R183, R186 to R189). -/
def laneRule : Instr → Option LaneRule
  | .vaddF32 d a b => some (lane2 d a b add32)
  | .vsubF32 d a b => some (lane2 d a b sub32)
  | .vmulF32 d a b => some (lane2 d a b mul32)
  | .vfmaF32 d a b c => some (lane3 d a b c fma32)
  | .vfnmF32 d a b c => some (lane3 d a b c fun x y z => fma32 (x ^^^ 0x80000000) y z)
  | .vabsF32 d a => some (lane1 d a fun x => quiet x (x &&& 0x7FFFFFFF))
  | .vnegF32 d a => some (lane1 d a fun x => quiet x (x ^^^ 0x80000000))
  | .vrcpF32 d a => some (lane1 d a fun x => div32 0x3F800000 x)
  | .vrsqF32 d a => some (lane1 d a fun x => div32 0x3F800000 (sqrt32 x))
  | .vsclF32 d a b => some (lane2 d a b scale32)
  | .vaddS32 d a b => some (lane2 d a b fun x y => BitVec.ofNat 32 (x.toNat + y.toNat))
  | .vsubS32 d a b => some (lane2 d a b fun x y => BitVec.ofInt 32 (x.toInt - y.toInt))
  | .vmulS32 d a b => some (lane2 d a b fun x y => BitVec.ofNat 32 (x.toNat * y.toNat))
  | .vminS32 d a b => some (lane2 d a b fun x y => BitVec.ofInt 32 (min x.toInt y.toInt))
  | .vmaxS32 d a b => some (lane2 d a b fun x y => BitVec.ofInt 32 (max x.toInt y.toInt))
  | .vminN32 d a b => some (lane2 d a b fun x y => BitVec.ofNat 32 (min x.toNat y.toNat))
  | .vmaxN32 d a b => some (lane2 d a b fun x y => BitVec.ofNat 32 (max x.toNat y.toNat))
  | .vabsS32 d a => some (lane1 d a fun x => BitVec.ofNat 32 x.toInt.natAbs)
  | .vnegS32 d a => some (lane1 d a fun x => BitVec.ofInt 32 (-x.toInt))
  | .vand d a b => some (lane2 d a b fun x y => x &&& y)
  | .vor d a b => some (lane2 d a b fun x y => x ||| y)
  | .vxor d a b => some (lane2 d a b fun x y => x ^^^ y)
  | .vsll d a b => some (lane2 d a b fun x y => BitVec.ofNat 32 (x.toNat * 2 ^ (y.toNat % 32)))
  | .vsrl d a b => some (lane2 d a b fun x y => BitVec.ofNat 32 (x.toNat / 2 ^ (y.toNat % 32)))
  | .vsra d a b => some (lane2 d a b fun x y => BitVec.ofInt 32 (x.toInt / 2 ^ (y.toNat % 32)))
  | .vminF32 d a b => some (lane2 d a b fun x y =>
      if isNan32 x || isNan32 y then 0x7FC00000
      else if (fval x).isZero && (fval y).isZero && x != y then 0x80000000
      else if (fval x).le (fval y) then x else y)
  | .vmaxF32 d a b => some (lane2 d a b fun x y =>
      if isNan32 x || isNan32 y then 0x7FC00000
      else if (fval x).isZero && (fval y).isZero && x != y then 0
      else if (fval y).le (fval x) then x else y)
  | .vsel d a b c => some (lane3 d a b c fun x y m => (x &&& m) ||| (y &&& ~~~m))
  | .vcmpEqF32 d a b => some (lane2 d a b fun x y => truth ((fval x).eq (fval y)))
  | .vcmpNeF32 d a b => some (lane2 d a b fun x y => truth (!(fval x).eq (fval y)))
  | .vcmpLtF32 d a b => some (lane2 d a b fun x y => truth ((fval x).lt (fval y)))
  | .vcmpLeF32 d a b => some (lane2 d a b fun x y => truth ((fval x).le (fval y)))
  | .vcmpEqS32 d a b => some (lane2 d a b fun x y => truth (x.toNat = y.toNat))
  | .vcmpNeS32 d a b => some (lane2 d a b fun x y => truth (x.toNat ≠ y.toNat))
  | .vcmpLtS32 d a b => some (lane2 d a b fun x y => truth (x.toInt < y.toInt))
  | .vcmpLeS32 d a b => some (lane2 d a b fun x y => truth (x.toInt ≤ y.toInt))
  | .vcmpLtN32 d a b => some (lane2 d a b fun x y => truth (x.toNat < y.toNat))
  | .vcmpLeN32 d a b => some (lane2 d a b fun x y => truth (x.toNat ≤ y.toNat))
  | .vcvtF32S32 d a => some (lane1 d a fromS32)
  | .vcvtS32F32 d a => some (lane1 d a toS32)
  | .vcvtF32Bf16 d a => some (d, fun t i => BitVec.ofNat 32 (Fmt.fp32.convert (Fmt.bf16.decode (elemAt 16 (t.vreg a) i))))
  | .vcvtF32F16 d a => some (d, fun t i => BitVec.ofNat 32 (Fmt.fp32.convert (Fmt.fp16.decode (elemAt 16 (t.vreg a) i))))
  | .vcvtF32E4m3 d a => some (d, fun t i => BitVec.ofNat 32 (Fmt.fp32.convert (Fmt.e4m3.decode (elemAt 8 (t.vreg a) i))))
  | .vcvtF32E5m2 d a => some (d, fun t i => BitVec.ofNat 32 (Fmt.fp32.convert (Fmt.e5m2.decode (elemAt 8 (t.vreg a) i))))
  | .vunpkS16 d a k => some (d, fun t i => (BitVec.ofNat 16 (elemAt 16 (t.vreg a) (8 * k.toNat + i))).signExtend 32)
  | .vunpkN16 d a k => some (d, fun t i => BitVec.ofNat 32 (elemAt 16 (t.vreg a) (8 * k.toNat + i)))
  | .vunpkS8 d a k => some (d, fun t i => (BitVec.ofNat 8 (elemAt 8 (t.vreg a) (8 * k.toNat + i))).signExtend 32)
  | .vunpkN8 d a k => some (d, fun t i => BitVec.ofNat 32 (elemAt 8 (t.vreg a) (8 * k.toNat + i)))
  | .vperm d a b => some (d, fun t i => vlane t a ((vlane t b i).toNat % 8))
  | .vrot d a k => some (d, fun t i => vlane t a ((i + k.toNat) % 8))
  | .vshfl d a b => some (d, fun t i => if i % 2 = 0 then vlane t a (i / 2) else vlane t b (i / 2))
  | _ => none

/-- Source lane `j` of a pack: lanes of a, then lanes of b (08 R188). -/
def packSource (t : Task) (a b : Reg) (j : Nat) : Int := if j < 8 then (vlane t a j).toInt else (vlane t b (j - 8)).toInt
/-- A value between two bounds, as `n` low bits. -/
def clampTo (n : Nat) (lo hi x : Int) : Nat := (BitVec.ofInt n (max lo (min hi x))).toNat

/-- The forms that write elements of `n` bits: the register, the width, and each element's value (08 R186, R188). -/
def elemRule : Instr → Option (Reg × Nat × (Task → Nat → Nat))
  | .vcvtBf16F32 d a => some (d, 16, fun t j => if j < 8 then Fmt.bf16.convert (fval (vlane t a j)) else 0)
  | .vcvtF16F32 d a => some (d, 16, fun t j => if j < 8 then Fmt.fp16.convert (fval (vlane t a j)) else 0)
  | .vcvtE4m3F32 d a => some (d, 8, fun t j => if j < 8 then Fmt.e4m3.convert (fval (vlane t a j)) else 0)
  | .vcvtE5m2F32 d a => some (d, 8, fun t j => if j < 8 then Fmt.e5m2.convert (fval (vlane t a j)) else 0)
  | .vpackS16 d a b => some (d, 16, fun t j => clampTo 16 (-32768) 32767 (packSource t a b j))
  | .vpackN16 d a b => some (d, 16, fun t j => clampTo 16 0 65535 (packSource t a b j))
  | .vpackS8 d a b => some (d, 8, fun t j => if j < 16 then clampTo 8 (-128) 127 (packSource t a b j) else 0)
  | .vpackN8 d a b => some (d, 8, fun t j => if j < 16 then clampTo 8 0 255 (packSource t a b j) else 0)
  | _ => none

/-- The eight lanes of a register. -/
def eight (t : Task) (a : Reg) : List W32 := [vlane t a 0, vlane t a 1, vlane t a 2, vlane t a 3, vlane t a 4, vlane t a 5, vlane t a 6, vlane t a 7]

/-- Greater(x, y), and the scan of 08 R185 for the lowest of the largest lanes. -/
def above (x y : FVal) : Bool := !y.isNan && (x.isNan || y.lt x)
def bestLane (f : Nat → W32) : Nat :=
  [1, 2, 3, 4, 5, 6, 7].foldl (fun best i => if above (fval (f i)) (fval (f best)) then i else best) 0

/-- The forms that write a g register from v registers (08 R182, R184, R185, R189). -/
def readRule : Instr → Option (Reg × (Task → Word))
  | .vdotF32 d a b => some (d, fun t => word (blockSum 0x80000000
      (((eight t a).zip (eight t b)).map fun p => (fval p.1).mul (fval p.2))).toNat)
  | .vraddF32 d a => some (d, fun t => word (blockSum 0x80000000 ((eight t a).map fval)).toNat)
  | .vraddS32 d a => some (d, fun t => wideInt ((eight t a).map BitVec.toInt).sum)
  | .vrmaxS32 d a => some (d, fun t => wideInt (((eight t a).map BitVec.toInt).foldl max (vlane t a 0).toInt))
  | .vrminS32 d a => some (d, fun t => wideInt (((eight t a).map BitVec.toInt).foldl min (vlane t a 0).toInt))
  | .vrmaxF32 d a => some (d, fun t => word (((eight t a).drop 1).foldl max32 (vlane t a 0)).toNat)
  | .vrminF32 d a => some (d, fun t => word (((eight t a).drop 1).foldl min32 (vlane t a 0)).toNat)
  | .vext d a k => some (d, fun t => word (vlane t a k.toNat).toNat)
  | .vrmaxiF32 d a => some (d, fun t =>
      let k := bestLane (vlane t a)
      word ((quiet (vlane t a k) (vlane t a k)).toNat * 2 ^ 32 + k))
  | _ => none

end Sys2Proof.Claims

/-- 08 R178 to R181, R183, R186 to R189: every lane form completes, and each lane of its register has the value of its
rule. -/
def Sys2Proof.Claims.VectorLanes : Prop :=
  ∀ (i : Instr) (d : Reg) (f : Task → Nat → W32) (s : State) (t : Task) (c : Core),
    laneRule i = some (d, f) → Ready s [] 0 t [] c →
    ∃ v : VReg, exec i s = .next (((popped s c t).setV s.cur d v).writeReg s.cur 0 0) ∧ ∀ j < 8, lane v j = f t j

/-- 08 R186, R188: every narrowing conversion and pack completes, and each packed element of its register has the value of
its rule, the elements above being 0. -/
def Sys2Proof.Claims.VectorElements : Prop :=
  ∀ (i : Instr) (d : Reg) (n : Nat) (f : Task → Nat → Nat) (s : State) (t : Task) (c : Core),
    elemRule i = some (d, n, f) → Ready s [] 0 t [] c →
    ∃ v : VReg, exec i s = .next (((popped s c t).setV s.cur d v).writeReg s.cur 0 0) ∧ ∀ j < 256 / n, elemAt n v j = f t j

/-- 08 R182, R184, R185, R189: the dot product, the reductions, `vrmaxi.f32` and `vext` complete with their value in a g
register, which may be a port or the furrow. -/
def Sys2Proof.Claims.VectorReads : Prop :=
  ∀ (i : Instr) (d : Reg) (f : Task → Word) (s : State) (t : Task) (c : Core),
    readRule i = some (d, f) → Ready s [] d t [] c → exec i s = .next ((popped s c t).writeReg s.cur d (f t))

/-- 08 R189: `vbcast` writes g[a][31:0] to every lane, and `vins` to one lane, keeping the others. -/
def Sys2Proof.Claims.VectorInserts : Prop :=
  ∀ (d a : Reg) (k : BitVec 5) (s : State) (t : Task) (x : Word) (c : Core), Ready s [a] 0 t [x] c →
    (∃ v : VReg, exec (.vbcast d a) s = .next (((popped s c t).setV s.cur d v).writeReg s.cur 0 0) ∧
      ∀ j < 8, lane v j = BitVec.ofNat 32 x.toNat) ∧
    (∃ v : VReg, exec (.vins d a k) s = .next (((popped s c t).setV s.cur d v).writeReg s.cur 0 0) ∧
      ∀ j < 8, lane v j = if j = k.toNat then BitVec.ofNat 32 x.toNat else vlane t d j)
namespace Sys2Proof.Claims
open Sys2Proof.Machine

/-! ## Branches and jumps (06 R143, R144) -/

/-- A taken or not taken transfer: the next fetch is at `pc`, and a link goes to `d`. -/
def goTo (s : State) (c : Core) (t : Task) (d : Reg) (link pc : Word) : State :=
  ((popped s c t).modTask s.cur fun t => { t with pc := pc }).writeReg s.cur d link

/-- The branches: operand fields, offset and condition. -/
def branchRule : Instr → Option (Reg × Reg × BitVec 16 × (Word → Word → Bool))
  | .beq a b o => some (a, b, o, fun A B => A.toNat = B.toNat)
  | .bne a b o => some (a, b, o, fun A B => A.toNat ≠ B.toNat)
  | .blt a b o => some (a, b, o, fun A B => A.toInt < B.toInt)
  | .bge a b o => some (a, b, o, fun A B => A.toInt ≥ B.toInt)
  | .bltn a b o => some (a, b, o, fun A B => A.toNat < B.toNat)
  | .bgen a b o => some (a, b, o, fun A B => A.toNat ≥ B.toNat)
  | _ => none

/-- An address and a signed count of words above it. -/
def wordsOn (a : Word) (k : Int) : Word := BitVec.ofInt 64 (a.toInt + k * 4)

/-! ## System registers (06 R134, R136) -/

/-- The per-core RW registers: what a register reads, by its number. -/
def regValue (g : CoreRegs) (n : Nat) : Word :=
  match n with
  | 0x020 => g.fmtA
  | 0x021 => g.fmtB
  | 0x022 => g.sclA
  | 0x023 => g.sclB
  | 0x024 => g.plWt
  | 0x030 => g.gbpEps
  | 0x050 => g.dbg
  | 0x060 => g.fltCause
  | 0x061 => g.fltPc
  | 0x062 => g.fltAddr
  | 0x063 => g.fltInfo
  | _ => 0

/-- What a write of a register leaves in it: the reserved bits read as zero (06 R136), `pl.wt` never holds 0 (09 R194), and
bit 4 of `dbg` is not kept (12 R270). A register that is not listed is RO. -/
def stored (n : Nat) (v : Word) : Option Word :=
  match n with
  | 0x020 => some (word (v.toNat % 2 ^ 5))
  | 0x021 => some (word (v.toNat % 2 ^ 5))
  | 0x022 => some (word (v.toNat % 2 ^ 21 + v.toNat / 2 ^ 32 % 2 ^ 16 * 2 ^ 32))
  | 0x023 => some (word (v.toNat % 2 ^ 21 + v.toNat / 2 ^ 32 % 2 ^ 16 * 2 ^ 32))
  | 0x024 => some (if v.toNat % 16 = 0 then 1 else word (v.toNat % 16))
  | 0x030 => some (word (v.toNat % 2 ^ 32))
  | 0x050 => some (word (v.toNat % 16))
  | _ => none

/-- Core `k` is core `p` after a task of home `home` has written `v` to register `n`: the register holds what it keeps, every other register keeps
its value, a write of `dbg` with bit 4 set releases the held seeds, and nothing else differs but the note that a migrated task wrote
the register (12 R272). -/
def sysWrote (p : Core) (home : Option HomeRef) (n : BitVec 12) (v : Word) (k : Core) : Prop :=
  (∀ m, regValue k.regs m = if m = n.toNat then (stored m v).getD (regValue p.regs m) else regValue p.regs m) ∧
  k = { p with
    regs := { k.regs with geo0 := p.regs.geo0, geo1 := p.regs.geo1, geo2 := p.regs.geo2 }
    saved := p.saved.map fun sv => if home = some sv.home then { sv with wrote := NSet.insert sv.wrote n.toNat } else sv
    deque := if n.toNat = 0x050 ∧ v.getLsbD 4 then p.deque.map fun x => { x with held := false } else p.deque }

/-- The values of the registers that only the hardware writes (06 R134, 14 R311): a migrated task reads the position, the cluster index
and the holding of its home core. -/
def roValue (s : State) (t : Task) (n : Nat) : Option Word :=
  let core := s.core s.cur.core
  let idx := match t.home with | some k => k.core | none => s.cur.core.idx
  let xy : Coord := match t.home with
    | some k => ⟨20 * k.hdie + k.core.val % 20, k.core.val / 20⟩
    | none => (s.coord s.cur.core).getD ⟨0, 0⟩
  let hold := s.hold (match t.home with | some k => k.hold | none => s.holdOf s.cur.core)
  match n with
  | 0x000 => some (word xy.hx)
  | 0x001 => some (word xy.hy)
  | 0x002 => some (word (4 * (idx.val / 20 % 2) + idx.val % 20 % 4))
  | 0x003 => some (word (xy.hx / 20))
  | 0x004 => some (word hold.dies)
  | 0x005 => some (word s.cur.slot.val)
  | 0x006 => some (word (2 ^ 64 - 2 ^ 21 + 4096 * bits core.part 14 8 + 64 * bits core.part 27 16 + 1280 * (bits core.part 1 0 + 1)))
  | 0x007 => some core.part
  | 0x010 => some t.args[0]
  | 0x011 => some t.args[1]
  | 0x012 => some t.args[2]
  | 0x013 => some t.args[3]
  | 0x014 => some t.cw
  | 0x040 => some (s.region s.cur.core).count
  | 0x041 => some (s.region s.cur.core).toff
  | 0x042 => some hold.hlcount
  | _ => none

/-! ## Register fields of the instruction words (06 R125) -/

/-- The fields of the forms that act on tasks, messages, pool rings, barriers, mailboxes, the serving, the engines and posted
atomics. `reyoke` names no register, and `pl.mma` names groups of vector registers. -/
def machineFields : Instr → Option (List Reg × Reg)
  | .sow a _ => some ([a], 0)
  | .sowAt a b _ => some ([a, b], 0)
  | .sowCap a b _ => some ([a, b], 0)
  | .endTask a _ => some ([a], 0)
  | .sev a _ => some ([a], 0)
  | .trigArm a b _ => some ([a, b], 0)
  | .trigDec a b _ => some ([a, b], 0)
  | .trigRd d a _ => some ([a], d)
  | .hmask a _ => some ([a], 0)
  | .yoke a _ => some ([a], 0)
  | .msgH a _ => some ([a], 0)
  | .msgD a _ _ => some ([a], 0)
  | .msgTo a b _ => some ([a, b], 0)
  | .mqRd d _ _ => some ([], d)
  | .mqPeek d _ => some ([], d)
  | .mbPost a b _ => some ([a, b], 0)
  | .mbTake a b _ => some ([a, b], 0)
  | .gbpAcc a b _ => some ([a, b], 0)
  | .gbpSub a b _ => some ([a, b], 0)
  | .gbpElim a b _ => some ([a, b], 0)
  | .gbpDamp d a b _ => some ([a, b], d)
  | .gbpRes d a b _ => some ([a, b], d)
  | .rdtime d _ => some ([], d)
  | .rdtimeLoc d _ => some ([], d)
  | .rdband d a _ => some ([a], d)
  | .rdpos d _ => some ([], d)
  | .barMask a _ _ => some ([a], 0)
  | .barStat d _ _ => some ([], d)
  | .hlStat d _ => some ([], d)
  | .resume a _ => some ([a], 0)
  | .faultPost a b _ => some ([a, b], 0)
  | .sqTake d a _ => some ([a], d)
  | .sqAdmit d a _ => some ([a], d)
  | .sqRetire a _ => some ([a], 0)
  | .kvGet d a _ => some ([a], d)
  | .kvPut a b _ => some ([a, b], 0)
  | .stopTest d a b _ => some ([a, b], d)
  | .cbInit a b _ _ => some ([a, b], 0)
  | .cbNeed a _ _ => some ([a], 0)
  | .cbRoom a _ _ => some ([a], 0)
  | .cbAdvH a _ _ => some ([a], 0)
  | .cbAdvT a _ _ => some ([a], 0)
  | .cbStat d _ _ => some ([], d)
  | .plGeo a _ => some ([a], 0)
  | .plMmt a b _ => some ([a, b], 0)
  | .plMmtBlk a b _ => some ([a, b], 0)
  | .plTile a b _ => some ([a, b], 0)
  | .plTileBlk a b _ => some ([a, b], 0)
  | .plZacc a b => some ([a, b], 0)
  | .plLdacc a => some ([a], 0)
  | .plStacc a _ => some ([a], 0)
  | .plWait a => some ([a], 0)
  | .drCopyGp a b => some ([a, b], 0)
  | .drCopyPg a b => some ([a, b], 0)
  | .drCopyPp a b => some ([a, b], 0)
  | .drCopyGg a b => some ([a, b], 0)
  | .drGathG a b => some ([a, b], 0)
  | .drGathP a b => some ([a, b], 0)
  | .drScatG a b => some ([a, b], 0)
  | .drScatP a b => some ([a, b], 0)
  | .drFillG a b => some ([a, b], 0)
  | .drFillP a b => some ([a, b], 0)
  | .drWait a => some ([a], 0)
  | .amAddPs a b _ _ => some ([a, b], 0)
  | .amAndPs a b _ _ => some ([a, b], 0)
  | .amOrPs a b _ _ => some ([a, b], 0)
  | .amXorPs a b _ _ => some ([a, b], 0)
  | .amMinPs a b _ _ => some ([a, b], 0)
  | .amMaxPs a b _ _ => some ([a, b], 0)
  | .amMinnPs a b _ _ => some ([a, b], 0)
  | .amMaxnPs a b _ _ => some ([a, b], 0)
  | _ => none

/-- The fields that an instruction reads, in order, and the field that it writes, of every form that has a register field. -/
def scalarFields (i : Instr) : Option (List Reg × Reg) :=
  match valueRule i with
  | some (srcs, d, _) => some (srcs, d)
  | none => match branchRule i with
    | some (a, b, _, _) => some ([a, b], 0)
    | none => match i with
      | .addpc d _ => some ([], d)
      | .j _ => some ([], 0)
      | .jal _ => some ([], 31)
      | .jr a _ => some ([a], 0)
      | .jalr d a _ => some ([a], d)
      | .srd d _ => some ([], d)
      | .swr a _ => some ([a], 0)
      | .sxch d a _ => some ([a], d)
      | .ldS8 d a _ => some ([a], d)
      | .ldN8 d a _ => some ([a], d)
      | .ldS16 d a _ => some ([a], d)
      | .ldN16 d a _ => some ([a], d)
      | .ldS32 d a _ => some ([a], d)
      | .ldN32 d a _ => some ([a], d)
      | .ld64 d a _ => some ([a], d)
      | .ldAcq d a _ _ => some ([a], d)
      | .st8 d a _ => some ([a, d], 0)
      | .st16 d a _ => some ([a, d], 0)
      | .st32 d a _ => some ([a, d], 0)
      | .st64 d a _ => some ([a, d], 0)
      | .stRel d a _ _ => some ([a, d], 0)
      | .ldbit d a b _ => some ([a, b], d)
      | .stbit d a b _ => some ([a, b, d], 0)
      | .amAdd d a b _ _ => some ([a, b], d)
      | .amAnd d a b _ _ => some ([a, b], d)
      | .amOr d a b _ _ => some ([a, b], d)
      | .amXor d a b _ _ => some ([a, b], d)
      | .amMin d a b _ _ => some ([a, b], d)
      | .amMax d a b _ _ => some ([a, b], d)
      | .amMinn d a b _ _ => some ([a, b], d)
      | .amMaxn d a b _ _ => some ([a, b], d)
      | .amSwap d a b _ _ => some ([a, b], d)
      | .amCas d a b _ _ => some ([a, b, d], d)
      | .vbcast _ a => some ([a], 0)
      | .vins _ a _ => some ([a], 0)
      | .ldgV _ a _ => some ([a], 0)
      | .stgV _ a _ => some ([a], 0)
      | .ldV _ a _ => some ([a], 0)
      | .stV _ a _ => some ([a], 0)
      | i => match readRule i with
        | some (d, _) => some ([], d)
        | none => machineFields i

/-- The forms with register fields whose opcode a lean die lacks: they raise 0x40 there first (03 R57). -/
def leanLacks : Instr → Bool
  | .gbpElim _ _ _ => true
  | .gbpDamp _ _ _ _ => true
  | .plMmtBlk _ _ _ => true
  | .plTileBlk _ _ _ => true
  | _ => false

end Sys2Proof.Claims

/-- 06 R143: every branch completes, with the next fetch at its target if its condition holds and at the next word
otherwise; a branch that names a port or the furrow pops it either way. -/
def Sys2Proof.Claims.Branches : Prop :=
  ∀ (i : Instr) (a b : Reg) (o : BitVec 16) (f : Word → Word → Bool) (s : State) (t : Task) (A B : Word) (c : Core),
    branchRule i = some (a, b, o, f) → Ready s [a, b] 0 t [A, B] c →
    exec i s = .next (goTo s c t 0 0 (if f A B then wordsOn t.pc o.toInt else t.pc + 4))

/-- 06 R144: every jump completes at its target, with its link; the base of `jr` and `jalr` is read before the link is
written. -/
def Sys2Proof.Claims.Jumps : Prop :=
  (∀ (o : BitVec 26) (s : State) (t : Task) (c : Core), Ready s [] 0 t [] c →
    exec (.j o) s = .next (goTo s c t 0 0 (wordsOn t.pc o.toInt))) ∧
  (∀ (o : BitVec 26) (s : State) (t : Task) (c : Core), Ready s [] 31 t [] c →
    exec (.jal o) s = .next (goTo s c t 31 (t.pc + 4) (wordsOn t.pc o.toInt))) ∧
  (∀ (a : Reg) (i : BitVec 16) (s : State) (t : Task) (A : Word) (c : Core), Ready s [a] 0 t [A] c →
    exec (.jr a i) s = .next (goTo s c t 0 0 (wordsOn A i.toInt))) ∧
  (∀ (d a : Reg) (i : BitVec 16) (s : State) (t : Task) (A : Word) (c : Core), Ready s [a] d t [A] c →
    exec (.jalr d a i) s = .next (goTo s c t d (t.pc + 4) (wordsOn A i.toInt)))

/-- 06 R134, R136: `srd` completes with the register's value; a migrated task reads `hx`, `hy`, `cidx`, `hdie` and `hdies` of its home
core. -/
def Obligations.SystemReads : Prop :=
  ∀ (d : Reg) (n : BitVec 12) (s : State) (t : Task) (c : Core), Ready s [] d t [] c → sysRegNamed n = true →
    exec (.srd d n) s = .next ((popped s c t).writeReg s.cur d
      ((roValue s t n.toNat).getD (regValue (s.core s.cur.core).regs n.toNat)))

/-- 06 R133, R136, 12 R270: `swr` and `sxch` store what the register keeps of the value and change no other register and
nothing else of the core, but that bit 4 of a write of `dbg` releases its held seeds; a write of an RO register is ignored;
`sxch` returns the old value, in a migrated task that of the home core where R134 says so. They complete for every register but an SV register away from the supervisor core, where they raise
0x51 with no other effect. -/
def Obligations.SystemWrites : Prop :=
  ∀ (d a : Reg) (n : BitVec 12) (s : State) (t : Task) (v : Word) (c : Core),
    (¬(n.toNat = 0x050 ∧ s.isSupervisor s.cur.core = false) →
      (Ready s [a] 0 t [v] c → ∃ k, sysWrote ((popped s c t).core s.cur.core) t.home n v k ∧
        exec (.swr a n) s = .next (((popped s c t).setCore s.cur.core k).writeReg s.cur 0 0)) ∧
      (Ready s [a] d t [v] c → sysRegNamed n = true → ∃ k, sysWrote ((popped s c t).core s.cur.core) t.home n v k ∧
        exec (.sxch d a n) s = .next (((popped s c t).setCore s.cur.core k).writeReg s.cur d
          ((roValue s t n.toNat).getD (regValue c.regs n.toNat))))) ∧
    (n.toNat = 0x050 → s.isSupervisor s.cur.core = false →
      (Ready s [a] 0 t [v] c → exec (.swr a n) s = .next (s.takeTrap s.cur ⟨0x51, (encSY 0 a n 1).setWidth 64, 0⟩ t.pc (t.pc + 4) false)) ∧
      (Ready s [a] d t [v] c → exec (.sxch d a n) s = .next (s.takeTrap s.cur ⟨0x51, (encSY d a n 2).setWidth 64, 0⟩ t.pc (t.pc + 4) false)))

/-- 06 R125, R128: an instruction, of whichever family, that names a port that faces no core raises 0x47 with the direction before
any other effect; one that pops a queue without its words, or pushes a full one, waits at its address and pops nothing. Decode
comes before operands: of the four forms that a lean die lacks, the statement speaks on the other dies. -/
def Obligations.PortsAndWaits : Prop :=
  ∀ (i : Instr) (srcs : List Reg) (d : Reg) (s : State) (t : Task), scalarFields i = some (srcs, d) → s.task s.cur = some t →
    (leanLacks i = true → lean s.cur.core.die = false) →
    (∀ p, s.deadPort s.cur.core (srcs ++ [d]) = some p →
      exec i s = .next (s.takeTrap s.cur ⟨0x47, word p.index.val, 0⟩ t.pc (t.pc + 4) false)) ∧
    (s.deadPort s.cur.core (srcs ++ [d]) = none →
      readFields t (s.core s.cur.core) srcs = none ∨ s.roomFor s.cur.core d = false →
      exec i s = .next (s.setTask s.cur { t with waiting := true, on := none, met := false }))
namespace Sys2Proof.Claims
open Sys2Proof.Machine

/-! ## Where loads, stores and atomics go (07 R157, R158, 08 R175, R177, 10 R240, 11 R259) -/

/-- An access of `z` bytes: its address, and what it needs. -/
structure Access where
  ea : Word
  z : Nat
  need : Need

/-- The accesses of one location: source fields, destination field, the word, and the access of the source values. -/
def accessRule : Instr → Option (List Reg × Reg × W32 × (List Word → Access))
  | .ldS8 d a i => some ([a], d, encRI 0x10 d a i, fun vs => ⟨vs.headD 0 + BitVec.ofInt 64 i.toInt, 1, { read := true }⟩)
  | .ldN8 d a i => some ([a], d, encRI 0x11 d a i, fun vs => ⟨vs.headD 0 + BitVec.ofInt 64 i.toInt, 1, { read := true }⟩)
  | .ldS16 d a i => some ([a], d, encRI 0x12 d a i, fun vs => ⟨vs.headD 0 + BitVec.ofInt 64 (i.toInt * 2), 2, { read := true }⟩)
  | .ldN16 d a i => some ([a], d, encRI 0x13 d a i, fun vs => ⟨vs.headD 0 + BitVec.ofInt 64 (i.toInt * 2), 2, { read := true }⟩)
  | .ldS32 d a i => some ([a], d, encRI 0x14 d a i, fun vs => ⟨vs.headD 0 + BitVec.ofInt 64 (i.toInt * 4), 4, { read := true }⟩)
  | .ldN32 d a i => some ([a], d, encRI 0x15 d a i, fun vs => ⟨vs.headD 0 + BitVec.ofInt 64 (i.toInt * 4), 4, { read := true }⟩)
  | .ld64 d a i => some ([a], d, encRI 0x16 d a i, fun vs => ⟨vs.headD 0 + BitVec.ofInt 64 (i.toInt * 8), 8, { read := true }⟩)
  | .st8 d a i => some ([a, d], 0, encRI 0x18 d a i, fun vs => ⟨vs.headD 0 + BitVec.ofInt 64 i.toInt, 1, { write := true }⟩)
  | .st16 d a i => some ([a, d], 0, encRI 0x19 d a i, fun vs => ⟨vs.headD 0 + BitVec.ofInt 64 (i.toInt * 2), 2, { write := true }⟩)
  | .st32 d a i => some ([a, d], 0, encRI 0x1A d a i, fun vs => ⟨vs.headD 0 + BitVec.ofInt 64 (i.toInt * 4), 4, { write := true }⟩)
  | .st64 d a i => some ([a, d], 0, encRI 0x1B d a i, fun vs => ⟨vs.headD 0 + BitVec.ofInt 64 (i.toInt * 8), 8, { write := true }⟩)
  | .ldAcq d a h o => some ([a], d, encOR d a h 1 o, fun vs => ⟨vs.headD 0, 8, { read := true }⟩)
  | .stRel d a h o => some ([a, d], 0, encOR d a h 2 o, fun vs => ⟨vs.headD 0, 8, { write := true }⟩)
  | .amAdd d a b h z => some ([a, b], d, encAM d a b h 0 z 0, fun vs => ⟨vs.headD 0, amSize z, { read := true, write := true }⟩)
  | .amAnd d a b h z => some ([a, b], d, encAM d a b h 0 z 1, fun vs => ⟨vs.headD 0, amSize z, { read := true, write := true }⟩)
  | .amOr d a b h z => some ([a, b], d, encAM d a b h 0 z 2, fun vs => ⟨vs.headD 0, amSize z, { read := true, write := true }⟩)
  | .amXor d a b h z => some ([a, b], d, encAM d a b h 0 z 3, fun vs => ⟨vs.headD 0, amSize z, { read := true, write := true }⟩)
  | .amMin d a b h z => some ([a, b], d, encAM d a b h 0 z 4, fun vs => ⟨vs.headD 0, amSize z, { read := true, write := true }⟩)
  | .amMax d a b h z => some ([a, b], d, encAM d a b h 0 z 5, fun vs => ⟨vs.headD 0, amSize z, { read := true, write := true }⟩)
  | .amMinn d a b h z => some ([a, b], d, encAM d a b h 0 z 6, fun vs => ⟨vs.headD 0, amSize z, { read := true, write := true }⟩)
  | .amMaxn d a b h z => some ([a, b], d, encAM d a b h 0 z 7, fun vs => ⟨vs.headD 0, amSize z, { read := true, write := true }⟩)
  | .amSwap d a b h z => some ([a, b], d, encAM d a b h 0 z 8, fun vs => ⟨vs.headD 0, amSize z, { read := true, write := true }⟩)
  | .amCas d a b h z => some ([a, b, d], d, encAM d a b h 0 z 9, fun vs => ⟨vs.headD 0, amSize z, { read := true, write := true }⟩)
  | .amAddPs a b h z => some ([a, b], 0, encAM 0 a b h 1 z 0, fun vs => ⟨vs.headD 0, amSize z, { read := true, write := true }⟩)
  | .amAndPs a b h z => some ([a, b], 0, encAM 0 a b h 1 z 1, fun vs => ⟨vs.headD 0, amSize z, { read := true, write := true }⟩)
  | .amOrPs a b h z => some ([a, b], 0, encAM 0 a b h 1 z 2, fun vs => ⟨vs.headD 0, amSize z, { read := true, write := true }⟩)
  | .amXorPs a b h z => some ([a, b], 0, encAM 0 a b h 1 z 3, fun vs => ⟨vs.headD 0, amSize z, { read := true, write := true }⟩)
  | .amMinPs a b h z => some ([a, b], 0, encAM 0 a b h 1 z 4, fun vs => ⟨vs.headD 0, amSize z, { read := true, write := true }⟩)
  | .amMaxPs a b h z => some ([a, b], 0, encAM 0 a b h 1 z 5, fun vs => ⟨vs.headD 0, amSize z, { read := true, write := true }⟩)
  | .amMinnPs a b h z => some ([a, b], 0, encAM 0 a b h 1 z 6, fun vs => ⟨vs.headD 0, amSize z, { read := true, write := true }⟩)
  | .amMaxnPs a b h z => some ([a, b], 0, encAM 0 a b h 1 z 7, fun vs => ⟨vs.headD 0, amSize z, { read := true, write := true }⟩)
  | _ => none

/-- The location of an access in a state, where every check passes. -/
def located (s : State) (r : SlotRef) (t : Task) (x : Access) (l : Loc) : Prop :=
  x.ea.toNat % x.z = 0 ∧ s.locate r (ownerOf t.cw) x.ea x.z x.need = .ok l

/-- The loads: the value of the bytes read, as a number. -/
def loadRule : Instr → Option (Nat → Word)
  | .ldS8 .. => some fun x => (BitVec.ofNat 8 x).signExtend 64
  | .ldN8 .. => some word
  | .ldS16 .. => some fun x => (BitVec.ofNat 16 x).signExtend 64
  | .ldN16 .. => some word
  | .ldS32 .. => some fun x => (BitVec.ofNat 32 x).signExtend 64
  | .ldN32 .. => some word
  | .ld64 .. => some word
  | .ldAcq .. => some word
  | _ => none

def isStore : Instr → Bool
  | .st8 .. => true
  | .st16 .. => true
  | .st32 .. => true
  | .st64 .. => true
  | .stRel .. => true
  | _ => false

/-- The atomics that return the old value (10 R240): whether they return it zero-extended, and the new value of `k` bits from the old
one and the operands, or none where nothing is written. -/
def atomicRule : Instr → Option (Bool × (Nat → Nat → List Nat → Option Nat))
  | .amAdd .. => some (false, fun k x vs => some ((x + vs.headD 0) % 2 ^ k))
  | .amAnd .. => some (false, fun _ x vs => some (x &&& vs.headD 0))
  | .amOr .. => some (false, fun _ x vs => some (x ||| vs.headD 0))
  | .amXor .. => some (false, fun _ x vs => some (x ^^^ vs.headD 0))
  | .amMin .. => some (false, fun k x vs => some (if signedNat k x ≤ signedNat k (vs.headD 0) then x else vs.headD 0))
  | .amMax .. => some (false, fun k x vs => some (if signedNat k (vs.headD 0) ≤ signedNat k x then x else vs.headD 0))
  | .amMinn .. => some (true, fun _ x vs => some (min x (vs.headD 0)))
  | .amMaxn .. => some (true, fun _ x vs => some (max x (vs.headD 0)))
  | .amSwap .. => some (false, fun _ _ vs => some (vs.headD 0))
  | .amCas .. => some (false, fun _ x vs => if x = vs.getD 1 0 then some (vs.headD 0) else none)
  | _ => none

/-- The posted atomics (10 R240, R241), which return nothing. -/
def postedRule : Instr → Option AmKind
  | .amAddPs .. => some .add
  | .amAndPs .. => some .and
  | .amOrPs .. => some .or
  | .amXorPs .. => some .xor
  | .amMinPs .. => some .min
  | .amMaxPs .. => some .max
  | .amMinnPs .. => some .minn
  | .amMaxnPs .. => some .maxn
  | _ => none

/-- The new value of `k` bits that a posted atomic gives an old value and its operand (10 R240), and `stbit` its words (07 R158). -/
def postedValue (m : AmKind) (k x b : Nat) : Nat :=
  match m with
  | .add => (x + b) % 2 ^ k
  | .and => x &&& b
  | .or => x ||| b
  | .xor => x ^^^ b
  | .min => if signedNat k x ≤ signedNat k b then x else b
  | .max => if signedNat k b ≤ signedNat k x then x else b
  | .minn => min x b
  | .maxn => max x b
  | .bits shift n => x - x / 2 ^ shift % 2 ^ n * 2 ^ shift + b % 2 ^ n * 2 ^ shift

/-- The holding whose dirty-page report notes a store (19 R405). -/
def ownerHold (s : State) (t : Task) : HoldRef := s.taskHold s.cur t

/-! ## Vector accesses -/

/-- The location of 32 bytes (08 R175): in one pool, or in global memory page by page. -/
def vecPlace (s : State) (r : SlotRef) (t : Task) (ea : Word) (n : Need) : Option Loc :=
  if inPoolSpace ea || inPoolSpace (ea + 31) then
    if inPoolSpace ea && inPoolSpace (ea + 31) then
      match s.locate r (ownerOf t.cw) ea 32 n with
      | .ok l => some l
      | _ => none
    else none
  else if !canonical ea || s.lockedAt r.core (.virt (ownerOf t.cw)) ea.toNat 32 then none
  else
    let who : Waiter := .slot r.core.idx r.slot
    let first := min 32 (page4k ea.toNat + 4096 - ea.toNat)
    match s.translateRange r.core.die who (ownerOf t.cw) ea.toNat n first,
        s.translateRange r.core.die who (ownerOf t.cw) ((ea.toNat + first) % 2 ^ 64) n (32 - first) with
    | .ok ks, .ok ks' => some (.mem (ks ++ ks') (ownerOf t.cw) ea.toNat)
    | _, _ => none

/-- The address of lane `i` of a gather or scatter (08 R177). -/
def laneAt (base : Word) (t : Task) (b : Reg) (i : Nat) : Word := base + BitVec.ofInt 64 (vlane t b i).toInt

/-- The locations of the eight lanes, where every lane passes its checks. -/
def lanePlaces (s : State) (r : SlotRef) (t : Task) (base : Word) (b : Reg) (n : Need) : Option (List Loc) :=
  (List.range 8).mapM fun i =>
    if (laneAt base t b i).toNat % 4 ≠ 0 then none
    else match s.locate r (ownerOf t.cw) (laneAt base t b i) 4 n with
      | .ok l => some l
      | _ => none

/-- A plain store of a task, as its slot holds it until it is performed (11 R245). -/
def plainStore (s : State) (t : Task) (l : Loc) (bs : List Byte) : BufferedStore :=
  { hold := ownerHold s t, home := t.home, loc := l, bytes := bs }

/-- The store of an instruction: `st.rel` is a release (11 R250). -/
def storeOf (i : Instr) (s : State) (t : Task) (l : Loc) (bs : List Byte) : BufferedStore :=
  { plainStore s t l bs with release := match i with | .stRel .. => true | _ => false }

/-- A posted atomic of a task, as its slot holds it until it is performed (10 R241, 11 R245). -/
def postedStore (s : State) (t : Task) (m : AmKind) (l : Loc) (bs : List Byte) : BufferedStore := { plainStore s t l bs with am := some m }

/-- The stores of one vector instruction, which stand at one place in program order (08 R176, R177), in a state. -/
def storeParts (t : Task) (ls : List Loc) (xs : List (List Byte)) (s : State) : State :=
  (ls.zip xs).zipIdx.foldl (fun u p => u.buffer s.cur { plainStore s t p.1.1 p.1.2 with mate := decide (p.2 ≠ 0) }) s

/-- The four doublewords of a location of 32 bytes (08 R176). -/
def fourths : Loc → List Loc
  | .pool c o _ => (List.range 4).map fun q => .pool c (o + 8 * q) 8
  | .mem ks p ea => (List.range 4).map fun q => .mem ((ks.drop (8 * q)).take 8) p (ea + 8 * q)

/-- The parts of a vector load, some of which were read ahead: the bytes that each gives, and whether it is still to be read. -/
def partsRead (u : State) (t : Task) (ls : List Loc) : List (List Byte × Bool × Loc) :=
  ls.zipIdx.map fun p => match FMap.get none t.parts p.2 with
    | some (l, bs) => if l = p.1 then (bs, false, p.1) else (u.readLoc p.1, true, p.1)
    | none => (u.readLoc p.1, true, p.1)

/-- A task as its vector load sees the parts read ahead: none counts where the base is a port or furrow word (06 R129). -/
def onward (t : Task) (a : Reg) : Task := if (chanOf a).isSome then { t with parts := [] } else t

/-- No part that is still to be read is poisoned. -/
def partsClean (u : State) (t : Task) (ls : List Loc) : Prop := ∀ x ∈ partsRead u t ls, x.2.1 = true → u.poisoned x.2.2 = false

/-- A memory reads as before outside the listed bytes. -/
def keepsOutside (ks : List Nat) (m m' : List Host.Cell) : Prop := ∀ k, k ∉ ks → Memory.get m' k = Memory.get m k

end Sys2Proof.Claims

/-- 07 R157, 11 R246, R259: a load whose checks pass, from bytes that are not poisoned, completes with their value, extended as its
form says: the value after the slot's own earlier stores to a byte of them. That those stores, and everything older, are performed
first is the model's choice (log 93). -/
def Sys2Proof.Claims.LoadValues : Prop :=
  ∀ (i : Instr) (srcs : List Reg) (d : Reg) (w : W32) (x : List Word → Access) (f : Nat → Word) (s : State) (t : Task)
    (vs : List Word) (c : Core) (l : Loc),
    accessRule i = some (srcs, d, w, x) → loadRule i = some f → Ready s srcs d t vs c →
    located (popped s c t) s.cur t (x vs) l →
    let p := (popped s c t).flushFor s.cur [l]
    p.poisoned l = false → exec i s = .next (p.writeReg s.cur d (f (ofBytes (p.readLoc l))))

/-- 07 R157, 11 R245, R250, R259: a store whose checks pass completes; the low bytes of its data, for the location of its address, are the
youngest store that its slot holds, marked as a release if it is one. -/
def Sys2Proof.Claims.StoreValues : Prop :=
  ∀ (i : Instr) (srcs : List Reg) (w : W32) (x : List Word → Access) (s : State) (t : Task) (A D : Word) (c : Core) (l : Loc),
    accessRule i = some (srcs, 0, w, x) → isStore i = true → Ready s srcs 0 t [A, D] c →
    located (popped s c t) s.cur t (x [A, D]) l →
    exec i s = .next (((popped s c t).buffer s.cur (storeOf i (popped s c t) t l (toBytes (x [A, D]).z D.toNat))).writeReg s.cur 0 0)

/-- The stores `pre` that a slot holds before `b` stand at one place in program order with it, and none shares a byte with it. -/
def Sys2Proof.Claims.oldest (pre : List BufferedStore) (b : BufferedStore) : Prop :=
  (pre ≠ [] → b.mate = true) ∧ (∀ x ∈ pre.drop 1, x.mate = true) ∧ ∀ x ∈ pre, x.loc.overlaps b.loc = false

/-- What is left of a turn that performs a store or a posted atomic: its location, of distinct bytes, reads `bs`, and in the stacks
every other byte reads as before. -/
def Sys2Proof.Claims.wrote (s u : State) (b : BufferedStore) (bs : List Byte) : Prop :=
  (∀ ks p ea, b.loc = .mem ks p ea → ks.Nodup → ks.length = b.bytes.length → Memory.wf s.mem = true →
    u.readLoc b.loc = bs ∧ keepsOutside ks s.mem u.mem) ∧
  (∀ c off, b.loc = .pool c off b.bytes.length → Memory.wf (s.core c).pool.bytes = true → u.readLoc b.loc = bs ∧ u.mem = s.mem)

/-- 11 R245, R246, 08 R176, R177: a store that stands at the oldest place of those that a slot holds becomes visible beyond the slot in
a turn of its own, and the others stay; one that stands at a later place, or after one to a byte of it, stays too. That it becomes
visible to every agent in one turn is log 24 (R245 lets the dies receive it at different moments), and that the stores of a slot are
performed in their order is log 93: both are the model's choices. -/
def Sys2Proof.Claims.StoresPerformed : Prop :=
  ∀ (s : State) (r : SlotRef) (pre : List BufferedStore) (b : BufferedStore) (post : List BufferedStore),
    (s.slot r).stores = pre ++ b :: post →
    (oldest pre b → b.am = none → ∃ u, turn (.perform r pre.length) s = .next u ∧ (u.slot r).stores = pre ++ post ∧ wrote s u b b.bytes) ∧
    (¬oldest pre b → turn (.perform r pre.length) s = .next s)

/-- 10 R227, R240, R241: a posted atomic is done where it is performed, in a turn of its own: it reads, computes and writes as one step;
where its place has been poisoned meanwhile it writes nothing (log 93). -/
def Sys2Proof.Claims.PostedPerformed : Prop :=
  ∀ (s : State) (r : SlotRef) (pre : List BufferedStore) (b : BufferedStore) (post : List BufferedStore) (m : AmKind),
    (s.slot r).stores = pre ++ b :: post → oldest pre b → b.am = some m →
    ∃ u, turn (.perform r pre.length) s = .next u ∧ (u.slot r).stores = pre ++ post ∧
      (s.poisoned b.loc = false → wrote s u b
        (toBytes b.bytes.length (postedValue m (8 * b.bytes.length) (ofBytes (s.readLoc b.loc)) (ofBytes b.bytes)))) ∧
      ((∀ shift n, m ≠ .bits shift n) → s.poisoned b.loc = true → u.mem = s.mem ∧ ∀ k, (u.core k).pool = (s.core k).pool)

/-- 10 R240, R241: an atomic that returns the old value, whose checks pass, on bytes that are not poisoned, reads, computes and writes as
one step; `am.cas` writes nothing where the old value is not the expected one. A posted atomic whose checks pass completes at once and
stands last among the stores of its slot, and is done where it is performed. That a returning atomic performs all of its slot's earlier
stores first, and that a posted one stays with its slot till then, are the model's choices (log 93). -/
def Obligations.Atomics : Prop :=
  (∀ (i : Instr) (srcs : List Reg) (d : Reg) (w : W32) (x : List Word → Access) (uns : Bool)
    (f : Nat → Nat → List Nat → Option Nat) (s : State) (t : Task) (vs : List Word) (c : Core) (l : Loc),
    accessRule i = some (srcs, d, w, x) → atomicRule i = some (uns, f) → Ready s srcs d t vs c →
    located (popped s c t) s.cur t (x vs) l →
    let p := (popped s c t).flush s.cur
    let k := 8 * (x vs).z
    let old := ofBytes (p.readLoc l)
    p.poisoned l = false →
    exec i s = .next ((match f k old ((vs.drop 1).map fun (v : Word) => v.toNat % 2 ^ k) with
        | some y => (p.noteGuest t.home l).writeLoc (ownerHold p t) l (toBytes (x vs).z y)
        | none => p).writeReg s.cur d (if uns then zext (word old) k else sext (word old) k))) ∧
  (∀ (i : Instr) (srcs : List Reg) (w : W32) (x : List Word → Access) (m : AmKind) (s : State) (t : Task) (A B : Word) (c : Core) (l : Loc),
    accessRule i = some (srcs, 0, w, x) → postedRule i = some m → Ready s srcs 0 t [A, B] c →
    located (popped s c t) s.cur t (x [A, B]) l →
    exec i s = .next (((popped s c t).buffer s.cur (postedStore (popped s c t) t m l (toBytes (x [A, B]).z B.toNat))).writeReg s.cur 0 0)) ∧
  PostedPerformed

/-- 07 R157, 10 R227, R240, 11 R259: the checks of loads, stores and atomics, in their order; an access that fails one has no other
effect than the trap, and one that lacks its translation waits at its address. Poisoned bytes stop a load and an atomic that returns a
value. That such an atomic follows all of its slot's earlier stores is the model's choice (log 93). -/
def Obligations.AccessChecks : Prop :=
  ∀ (i : Instr) (srcs : List Reg) (d : Reg) (w : W32) (x : List Word → Access) (s : State) (t : Task) (vs : List Word) (c : Core),
    accessRule i = some (srcs, d, w, x) → Ready s srcs d t vs c →
    let p := popped s c t
    let ea := (x vs).ea
    let z := (x vs).z
    let trapped := fun (cause : BitVec 8) => Host.Outcome.next (s.takeTrap s.cur ⟨cause, w.setWidth 64, ea⟩ t.pc (t.pc + 4) false)
    (ea.toNat % z ≠ 0 → exec i s = trapped 0x11) ∧
    (ea.toNat % z = 0 → inPoolSpace ea = true → p.poolRange s.cur.core (poolOffset ea) z = none → exec i s = trapped 0x12) ∧
    (∀ k o, ea.toNat % z = 0 → inPoolSpace ea = true → p.poolRange s.cur.core (poolOffset ea) z = some (k, o) →
      p.lockedAt s.cur.core (.pool k.idx) o z = true → exec i s = trapped 0x30) ∧
    (ea.toNat % z = 0 → inPoolSpace ea = false → canonical ea = false → exec i s = trapped 0x13) ∧
    (ea.toNat % z = 0 → inPoolSpace ea = false → canonical ea = true →
      p.lockedAt s.cur.core (.virt (ownerOf t.cw)) ea.toNat z = true → exec i s = trapped 0x30) ∧
    (∀ cause, ea.toNat % z = 0 → p.locate s.cur (ownerOf t.cw) ea z (x vs).need = .trap cause → exec i s = trapped cause) ∧
    (∀ q, ea.toNat % z = 0 → p.locate s.cur (ownerOf t.cw) ea z (x vs).need = .wait q → exec i s = .next (s.waitAt s.cur [q])) ∧
    (∀ l, located p s.cur t (x vs) l → (p.flushFor s.cur [l]).poisoned l = true → (loadRule i).isSome = true →
      exec i s = .next (s.takeTrap s.cur ⟨0x52, 0, ea⟩ t.pc (t.pc + 4) false)) ∧
    (∀ l, located p s.cur t (x vs) l → (p.flush s.cur).poisoned l = true → (atomicRule i).isSome = true →
      exec i s = .next (s.takeTrap s.cur ⟨0x52, 0, ea⟩ t.pc (t.pc + 4) false))

/-- A number is another one but for a field of `n` bits from bit `shift` on, which takes a value. -/
def Sys2Proof.Claims.fieldSet (y z v shift n : Nat) : Prop :=
  ∀ j, z.testBit j = if shift ≤ j ∧ j < shift + n then v.testBit (j - shift) else y.testBit j

/-- The words of a field lie in one pool, as one location. -/
def Sys2Proof.Claims.onePool (ls : List Loc) (l : Loc) : Prop :=
  ∃ c o, (ls = [.pool c o 4] ∧ l = .pool c o 4) ∨ (ls = [.pool c o 4, .pool c (o + 4) 4] ∧ l = .pool c o 8)

/-- 07 R158: the store of a bit field replaces exactly the bits of its field when it is performed, in one turn, poisoned words as well. -/
def Sys2Proof.Claims.FieldPerformed : Prop :=
  ∀ (s : State) (r : SlotRef) (pre : List BufferedStore) (b : BufferedStore) (post : List BufferedStore) (shift n : Nat),
    (s.slot r).stores = pre ++ b :: post → oldest pre b → b.am = some (.bits shift n) →
    ∃ u z, turn (.perform r pre.length) s = .next u ∧ (u.slot r).stores = pre ++ post ∧
      fieldSet (ofBytes (s.readLoc b.loc)) z (ofBytes b.bytes) shift n ∧ wrote s u b (toBytes b.bytes.length z)

/-- 07 R158, 11 R243, R246: `ldbit` returns the field of the bit string as the slot's own stores leave it; `stbit` completes as a store
that replaces exactly the bits of its field when it is performed. That an `ldbit` performs everything older than the stores to its
bytes, that a `stbit` stays with its slot till a turn or a rule performs it, and that one whose words lie in two pools is performed as it
retires, after all of its slot's stores, are the model's choices (log 93). -/
def Obligations.BitFields : Prop :=
  FieldPerformed ∧
  ∀ (d a b : Reg) (h : BitVec 1) (s : State) (t : Task) (A B D : Word) (c : Core) (ls : List Loc),
    let p := popped s c t
    let q := B.toNat % 2 ^ 32
    let n := B.toNat / 2 ^ 32 % 32 + 1
    let u := p.flushFor s.cur ls
    let v := p.flush s.cur
    let x := ofBytes (ls.flatMap u.readLoc)
    let y := ofBytes (ls.flatMap v.readLoc)
    A.toNat % 4 = 0 → B.toNat / 2 ^ 38 = 0 → p.locateBits s.cur (bitPlace A B) = .ok ls →
    (Ready s [a, b] d t [A, B] c → (ls.any u.poisoned) = false →
      exec (.ldbit d a b h) s = .next (u.writeReg s.cur d
        (if B.getLsbD 37 then sext (word (x / 2 ^ (q % 32))) n else word (x / 2 ^ (q % 32) % 2 ^ n)))) ∧
    (∀ l, Ready s [a, b, d] 0 t [A, B, D] c → B.getLsbD 37 = false → onePool ls l →
      exec (.stbit d a b h) s = .next ((p.buffer s.cur { plainStore p t l (toBytes (4 * ls.length) (D.toNat % 2 ^ n)) with
        am := some (.bits (q % 32) n) }).writeReg s.cur 0 0)) ∧
    (Ready s [a, b, d] 0 t [A, B, D] c → B.getLsbD 37 = false → (∀ l, ¬onePool ls l) →
      ∃ z : Nat, exec (.stbit d a b h) s = .next (((ls.zip [(toBytes (4 * ls.length) z).take 4, (toBytes (4 * ls.length) z).drop 4]).foldl
          (fun s m => (s.noteGuest t.home m.1).writeLoc (ownerHold p t) m.1 m.2) v).writeReg s.cur 0 0) ∧
        fieldSet y z D.toNat (q % 32) n)

/-- The vector loads as words, and the locations of their parts (08 R176, R177). -/
def Sys2Proof.Claims.loadPlaces (s : State) (r : SlotRef) (t : Task) (A : Word) : Instr → Option (List Loc)
  | .ldV _ _ i =>
    let ea := A + BitVec.ofInt 64 (i.toInt * 8)
    if ea.toNat % 8 = 0 then (vecPlace s r t ea { read := true }).map fourths else none
  | .ldgV _ _ b => lanePlaces s r t A b { read := true }
  | _ => none

/-- 08 R176, R177: a part of a vector load that stands at a task's program counter may be read ahead of the others, in a turn of its
own, after the slot's stores to its bytes; the load then gives what was read. A load whose base is a port or furrow word is not
performed before the word has been popped, which the load itself does (06 R129): no part of it is read ahead. -/
def Sys2Proof.Claims.PartsAhead : Prop :=
  (∀ (s : State) (r : SlotRef) (t : Task) (w : W32) (i : Instr) (a : Reg) (q : Nat),
    s.task r = some t → s.fetch r t = .ok w → decode w = .ok i → scalarFields i = some ([a], 0) → (chanOf a).isSome = true →
    turn (.loadPart r q) s = .next s) ∧
  ∀ (s : State) (r : SlotRef) (t : Task) (w : W32) (i : Instr) (a : Reg) (A : Word) (c : Core) (ls : List Loc) (q : Nat) (l : Loc),
    s.task r = some t → (s.slot r).halted = false → s.frozenHold (s.taskHold r t) = false → s.takeDue r = none → t.stepped = none →
    s.fetch r t = .ok w → decode w = .ok i → scalarFields i = some ([a], 0) → chanOf a = none → readFields t (s.core r.core) [a] = some ([A], c) →
    loadPlaces s r t A i = some ls → ls[q]? = some l → (s.flushFor r [l]).poisoned l = false →
    turn (.loadPart r q) s = .next ((s.flushFor r [l]).modTask r fun t =>
      { t with parts := FMap.set t.parts q (some (l, (s.flushFor r [l]).readLoc l)) })

/-- 06 R129, 08 R175 to R177, 11 R245, R246: the vector loads and stores, and the gathers and scatters, complete where every check passes:
a load follows its slot's own stores to its bytes and gives what stands there, part by part, or what was read ahead, of which nothing
counts where its base is a port or furrow word, popped by the load itself; a store's doublewords and
a scatter's lanes are stores of their own, which stand at one place in program order, the highest lane of an address being the last.
That a load performs everything older than the stores to its bytes is log 93, and that a part may be read in a turn of its own, and which,
is log 24: both are the model's choices. -/
def Obligations.VectorMemory : Prop :=
  PartsAhead ∧
  ∀ (d a b : Reg) (i : BitVec 16) (s : State) (t : Task) (A : Word) (c : Core), Ready s [a] 0 t [A] c →
    let p := popped s c t
    let ea := A + BitVec.ofInt 64 (i.toInt * 8)
    (∀ l, ea.toNat % 8 = 0 → vecPlace p s.cur t ea { read := true } = some l →
      let u := p.flushFor s.cur [l]
      partsClean u (onward t a) (fourths l) →
      exec (.ldV d a i) s = .next ((u.setV s.cur d (BitVec.ofNat 256
        (ofBytes ((partsRead u (onward t a) (fourths l)).flatMap (·.1))))).writeReg s.cur 0 0)) ∧
    (∀ l, ea.toNat % 8 = 0 → vecPlace p s.cur t ea { write := true } = some l →
      exec (.stV d a i) s = .next ((storeParts t (fourths l)
        ((List.range 4).map fun q => toBytes 8 ((t.vreg d).toNat / 2 ^ (64 * q))) p).writeReg s.cur 0 0)) ∧
    (∀ ls, lanePlaces p s.cur t A b { read := true } = some ls →
      let u := p.flushFor s.cur ls
      partsClean u (onward t a) ls →
      exec (.ldgV d a b) s = .next ((u.setV s.cur d (ofElems 32 ((partsRead u (onward t a) ls).map fun x => ofBytes x.1))).writeReg s.cur 0 0)) ∧
    (∀ ls, lanePlaces p s.cur t A b { write := true } = some ls →
      exec (.stgV d a b) s = .next ((storeParts t ls ((eight t d).map fun x => toBytes 4 x.toNat) p).writeReg s.cur 0 0))

/-- 11 R256 to R258: a fence performs its slot's stores and completes; an engine fence performs them too, completes when no operation
of its slot is in the queues that it names, and waits otherwise. That a store becomes visible to every agent at one moment is the
model's choice (log 24). -/
def Obligations.Fences : Prop :=
  ∀ (h : BitVec 1) (o : BitVec 3) (s : State) (t : Task) (c : Core), Ready s [] 0 t [] c →
    let u := s.flush s.cur
    let done := Host.Outcome.next ((popped u (u.core s.cur.core) t).writeReg s.cur 0 0)
    let wait := fun (on : Option WaitOn) => Host.Outcome.next (u.setTask s.cur { t with waiting := true, on := on, met := false })
    let drill := (s.core s.cur.core).drq.any fun o => o.origin.slot = s.cur.slot
    let plough := (s.core s.cur.core).plq.any fun o => o.origin.slot = s.cur.slot
    exec (.fence h o) s = .next (((popped s c t).flush s.cur).writeReg s.cur 0 0) ∧
    exec (.fenceEngDr h) s = (if drill then wait none else done) ∧
    exec (.fenceEngPl h) s = (if plough then wait (some .plough) else done) ∧
    exec (.fenceEng h) s = (if plough then wait (some .plough) else if drill then wait none else done)
namespace Sys2Proof.Claims
open Sys2Proof.Machine

/-! ## Frames -/

/-- The instructions that change no state beyond registers, with their source fields, the g register that they write (g0: none)
and the v register that they write. -/
def registerOnly (i : Instr) : Option (List Reg × Reg × Option Reg) :=
  match valueRule i with
  | some (srcs, d, _) => some (srcs, d, none)
  | none => match branchRule i with
    | some (a, b, _, _) => some ([a, b], 0, none)
    | none => match laneRule i with
      | some (d, _) => some ([], 0, some d)
      | none => match elemRule i with
        | some (d, _, _) => some ([], 0, some d)
        | none => match readRule i with
          | some (d, _) => some ([], d, none)
          | none => match i with
            | .addpc d _ => some ([], d, none)
            | .j _ => some ([], 0, none)
            | .jal _ => some ([], 31, none)
            | .jr a _ => some ([a], 0, none)
            | .jalr d a _ => some ([a], d, none)
            | .srd d _ => some ([], d, none)
            | .vbcast d a => some ([a], 0, some d)
            | .vins d a _ => some ([a], 0, some d)
            | .rdtime d _ => some ([], d, none)
            | .rdtimeLoc d _ => some ([], d, none)
            | .rdband d a _ => some ([a], d, none)
            | .rdpos d _ => some ([], d, none)
            | .hlStat d _ => some ([], d, none)
            | .cbStat d _ _ => some ([], d, none)
            | .mqPeek d _ => some ([], d, none)
            | .mqRd d _ _ => some ([], d, none)
            | .yield _ => some ([], 0, none)
            | _ => none

/-- Every part of two states that belongs to no core is the same, and the memory reads alike. -/
def sameOutside (s s' : State) : Prop :=
  (∀ a, Memory.get s'.mem a = Memory.get s.mem a) ∧ s'.memPoison = s.memPoison ∧ s'.hostMem = s.hostMem ∧ s'.dies = s.dies ∧
    s'.estates = s.estates ∧ s'.functions = s.functions ∧ s'.mode = s.mode ∧ s'.panelNs = s.panelNs ∧ s'.outbox = s.outbox ∧
    s'.hostEvt = s.hostEvt ∧ s'.steward = s.steward ∧ s'.links = s.links ∧ s'.transplant = s.transplant ∧
    s'.harvest = s.harvest ∧ s'.security = s.security ∧ s'.power = s.power ∧ s'.health = s.health

/-- Everything of a core but its slots, its furrow and port queues and its pool is the same. -/
def sameRest (k k' : Core) : Prop :=
  k'.part = k.part ∧ k'.regs = k.regs ∧ k'.deque = k.deque ∧ k'.trig = k.trig ∧ k'.serial = k.serial ∧ k'.handles = k.handles ∧
    k'.poolOf = k.poolOf ∧ k'.plq = k.plq ∧ k'.drq = k.drq ∧ k'.plHeld = k.plHeld ∧ k'.excused = k.excused ∧ k'.arrived = k.arrived

/-- Everything of a core but its slots and its furrow and port queues is the same. -/
def sameCore (k k' : Core) : Prop :=
  (∀ o, Memory.get k'.pool.bytes o = Memory.get k.pool.bytes o) ∧ k'.pool.dirty = k.pool.dirty ∧ k'.pool.poison = k.pool.poison ∧
    k'.saved = k.saved ∧ sameRest k k'

/-- The furrow and port queues of every core are the same, unless one of the fields names a queue. -/
def sameQueues (s s' : State) (fields : List Reg) : Prop :=
  (∀ r ∈ fields, chanOf r = none) → ∀ k q, (s'.core k).inbound q = (s.core k).inbound q

/-- The task of the issuing slot keeps every register but those named, its arguments, control doubleword, message and send
buffer. -/
def sameTask (t t' : Task) (d : Reg) (dv : Option Reg) : Prop :=
  (∀ e, e ≠ d → t'.reg e = t.reg e) ∧ (∀ e, some e ≠ dv → t'.vreg e = t.vreg e) ∧ t'.args = t.args ∧ t'.cw = t.cw ∧
    t'.kind = t.kind ∧ t'.tag = t.tag ∧ t'.msg = t.msg ∧ t'.buf = t.buf ∧ t'.wd = t.wd ∧ t'.caller = t.caller ∧ t'.home = t.home ∧
    t'.async = t.async

/-- The instruction words that put nothing into global memory but the stores that slots hold: all but the atomics that return a value, and
the serving instruction `sq.admit`, which may send a completion. -/
def storesNothing : Instr → Bool
  | .sqAdmit .. => false
  | i => (atomicRule i).isNone && !i.isEvent

/-- Stack byte `a` belongs to a store that a slot holds, or to a location. -/
def storesAt (b : BufferedStore) (a : Nat) : Prop := ∃ ks pasid ea, b.loc = .mem ks pasid ea ∧ a ∈ ks
def locAt (l : Loc) (a : Nat) : Prop := ∃ ks pasid ea, l = .mem ks pasid ea ∧ a ∈ ks

/-- Byte `o` of the pool of a core belongs to a store that a slot holds, or to a location. -/
def storesPool (b : BufferedStore) (k : CoreRef) (o : Nat) : Prop :=
  ∃ off len, b.loc = .pool k off len ∧ off ≤ o ∧ o < off + b.bytes.length
def locPool (l : Loc) (k : CoreRef) (o : Nat) : Prop := ∃ off len, l = .pool k off len ∧ off ≤ o ∧ o < off + len

end Sys2Proof.Claims

/-- 06 R123 to R127, 08 R168, R173, 07 R151: the frame of the instructions that work on registers alone. When one completes, every
byte of memory and of every pool, every register but its destination, every other slot, and every special register, queue and
trigger entry is as before; queues of the furrow and the ports change only where a field names them. -/
def Obligations.RegisterFrame : Prop :=
  ∀ (i : Instr) (srcs : List Reg) (d : Reg) (dv : Option Reg) (s s' : State) (t : Task) (vs : List Word) (c : Core),
    registerOnly i = some (srcs, d, dv) → Ready s srcs d t vs c → exec i s = .next s' →
    sameOutside s s' ∧ (∀ k, sameCore (s.core k) (s'.core k)) ∧ (∀ r, r ≠ s.cur → s'.slot r = s.slot r) ∧
    (∃ t', s'.task s.cur = some t' ∧ sameTask t t' d dv) ∧ sameQueues s s' (srcs ++ [d])

/-- Where no form writes global memory (07 R157, 10 R240, R241, 11 R245, R259): in every state, whatever an instruction word other than a
returning atomic or `sq.admit` does, its trap and its waits included, it puts into global memory at most stores that slots have issued
before: every byte that belongs to none of them reads as before. -/
def Obligations.MemoryFrame : Prop :=
  ∀ (i : Instr) (s s' : State), storesNothing i = true → exec i s = .next s' →
    ∀ a, (∀ r, ∀ b ∈ (s.slot r).stores, ¬storesAt b a) → Memory.get s'.mem a = Memory.get s.mem a

/-- 07 R157, 10 R240, R241, 11 R245, R246, R259: the frame of the scalar stores and the atomics, where the location of the computed address
is `l`. A store or a posted atomic changes no byte of memory and of any pool: it stands last among the stores of its slot. An atomic
that returns a value, on bytes that are not poisoned, leaves every byte outside `l` and outside the earlier stores of its slot, which it
performs (all of them, which is the model's choice, log 93). All leave every
register of the task but the destination, every other slot, and every register, deque, entry, handle and engine queue of every
core; the furrow and port queues change only where a field names them. -/
def Obligations.StoreFrame : Prop :=
  ∀ (i : Instr) (srcs : List Reg) (d : Reg) (w : W32) (x : List Word → Access) (s s' : State) (t : Task) (vs : List Word) (c : Core)
    (l : Loc),
    accessRule i = some (srcs, d, w, x) → Ready s srcs d t vs c → located (popped s c t) s.cur t (x vs) l → exec i s = .next s' →
    let kept := (∀ r, r ≠ s.cur → s'.slot r = s.slot r) ∧ (∃ t', s'.task s.cur = some t' ∧ sameTask t t' d none) ∧
      (∀ k, sameRest (s.core k) (s'.core k)) ∧ sameQueues s s' (srcs ++ [d]) ∧ s'.dies = s.dies ∧ s'.memPoison = s.memPoison
    let issued := fun b => kept ∧ (∀ a, Memory.get s'.mem a = Memory.get s.mem a) ∧
      (∀ k o, Memory.get (s'.core k).pool.bytes o = Memory.get (s.core k).pool.bytes o) ∧
      (s'.slot s.cur).stores = (s.slot s.cur).stores ++ [b]
    (isStore i = true → issued (storeOf i (popped s c t) t l (toBytes (x vs).z (vs.getD 1 0).toNat))) ∧
    (∀ m, postedRule i = some m → issued (postedStore (popped s c t) t m l (toBytes (x vs).z (vs.getD 1 0).toNat))) ∧
    ((atomicRule i).isSome = true → ((popped s c t).flush s.cur).poisoned l = false → kept ∧
      (∀ a, ¬locAt l a → (∀ b ∈ (s.slot s.cur).stores, ¬storesAt b a) → Memory.get s'.mem a = Memory.get s.mem a) ∧
      (∀ k o, ¬locPool l k o → (∀ b ∈ (s.slot s.cur).stores, ¬storesPool b k o) →
        Memory.get (s'.core k).pool.bytes o = Memory.get (s.core k).pool.bytes o) ∧
      (s'.slot s.cur).stores = [])
namespace Sys2Proof.Claims
open Sys2Proof.Machine

/-! ## Outcomes of an instruction of the slot `cur` -/

/-- It completes with no result, in a state. -/
def completes (s p : State) : Host.Outcome State Fault Refusal := .next (p.writeReg s.cur 0 0)
/-- It takes a cause, with the instruction word as information. -/
def traps (s : State) (t : Task) (cause : BitVec 8) (w : W32) (ea : Word := 0) : Host.Outcome State Fault Refusal :=
  .next (s.takeTrap s.cur ⟨cause, w.setWidth 64, ea⟩ t.pc (t.pc + 4) false)
/-- It waits at its address, for a condition of which the machine keeps note, if any. -/
def waitsOn (s : State) (t : Task) (w : Option WaitOn) : Host.Outcome State Fault Refusal :=
  .next (s.setTask s.cur { t with waiting := true, on := w, met := false })
def waits (s : State) (t : Task) : Host.Outcome State Fault Refusal := waitsOn s t none

/-- A handle of the issuing core replaced, with what that does for the tasks that wait at it (07 R165). -/
def withHandle (s p : State) (k : BitVec 4) (x : Handle) : State := p.setCore s.cur.core ((p.core s.cur.core).setHandle k x)

/-- What `cb.init` refuses under 0x3A (07 R164). -/
def ringBad (part A B : Word) : Bool :=
  let size := (B.toNat % 2 ^ 16 + 1) * 8
  let n := B.toNat / 2 ^ 16 % 2 ^ 16 + 1
  let p := B.toNat / 2 ^ 32 % 4
  B.toNat / 2 ^ 35 ≠ 0 || p = 3 || n > 4096 || A.toNat % 8 ≠ 0 || A.toNat < (spbase part).toNat ||
    A.toNat + size * n > 0xFFFFFFFFFFE40000 || (p = 1 && size ≠ 8)

end Sys2Proof.Claims

/-- 07 R164: `cb.init` raises 0x3C while a drill operation names the handle, raises 0x3A for a ring that the rule refuses, and
otherwise completes with the handle initialised and empty. -/
def Sys2Proof.Claims.RingInit : Prop :=
  ∀ (a b : Reg) (h : BitVec 1) (k : BitVec 4) (s : State) (t : Task) (A B : Word) (c : Core), Ready s [a, b] 0 t [A, B] c →
    exec (.cbInit a b h k) s =
      if c.drq.any (fun o => o.dring = some k || o.sring = some k) then traps s t 0x3C (encRR 0x03 0 a b h k 0x02)
      else if ringBad c.part A B then traps s t 0x3A (encRR 0x03 0 a b h k 0x02)
      else completes s (withHandle s (popped s c t) k
        { init := true, base := A, size := (B.toNat % 2 ^ 16 + 1) * 8, slots := B.toNat / 2 ^ 16 % 2 ^ 16 + 1, head := 0, tail := 0,
          fill := 0, prod := BitVec.ofNat 2 (B.toNat / 2 ^ 32), cons := BitVec.ofNat 1 (B.toNat / 2 ^ 34) })

/-- 07 R165: the checks of `cb.need` and `cb.room`, in their order; then each completes if its condition holds, or has held at a moment
since it began to wait for it, and waits if it does not; neither changes the handle. That a wait which was not met checks the handle
anew at a later turn is the model's choice (log 117). -/
def Sys2Proof.Claims.RingWaits : Prop :=
  ∀ (a : Reg) (h : BitVec 1) (k : BitVec 4) (s : State) (t : Task) (n : Word) (c : Core), Ready s [a] 0 t [n] c →
    let x := c.handle k
    exec (.cbNeed a h k) s =
      (if t.met = true ∧ t.on = some (.need k n.toNat) then completes s (popped s c t)
       else if x.init = false then traps s t 0x38 (encRR 0x03 0 a 0 h k 0x03)
       else if x.cons = 1 then traps s t 0x39 (encRR 0x03 0 a 0 h k 0x03)
       else if x.slots < n.toNat then traps s t 0x3B (encRR 0x03 0 a 0 h k 0x03)
       else if n.toNat ≤ x.fill then completes s (popped s c t) else waitsOn s t (some (.need k n.toNat))) ∧
    exec (.cbRoom a h k) s =
      (if t.met = true ∧ t.on = some (.room k n.toNat) then completes s (popped s c t)
       else if x.init = false then traps s t 0x38 (encRR 0x03 0 a 0 h k 0x04)
       else if x.prod ≠ 0 then traps s t 0x39 (encRR 0x03 0 a 0 h k 0x04)
       else if x.slots < n.toNat then traps s t 0x3B (encRR 0x03 0 a 0 h k 0x04)
       else if n.toNat ≤ x.slots - x.fill then completes s (popped s c t) else waitsOn s t (some (.room k n.toNat)))

/-- 07 R160, R165: what a change of a handle does for the tasks of the core that wait at it: a wait whose condition the new handle
meets is met from then on, and nothing else of the task changes. -/
def Sys2Proof.Claims.RingWakes : Prop :=
  ∀ (s : State) (r : SlotRef) (k : BitVec 4) (x : Handle) (t : Task) (n : Nat), s.task r = some t →
    let u := s.setCore r.core ((s.core r.core).setHandle k x)
    (t.on = some (.need k n) → u.task r = some (if n ≤ x.fill then { t with met := true } else t)) ∧
    (t.on = some (.room k n) → u.task r = some (if n ≤ x.slots - x.fill then { t with met := true } else t)) ∧
    (t.on = none → u.task r = some t)

/-- 07 R162, R166: `cb.adv.h` and `cb.adv.t` advance one pointer and the count of filled slots in one step, after their checks and
after the slot's earlier stores. -/
def Sys2Proof.Claims.RingAdvances : Prop :=
  ∀ (a : Reg) (h : BitVec 1) (k : BitVec 4) (s : State) (t : Task) (n : Word) (c : Core), Ready s [a] 0 t [n] c →
    let x := c.handle k
    exec (.cbAdvH a h k) s =
      (if x.init = false then traps s t 0x38 (encRR 0x03 0 a 0 h k 0x05)
       else if x.cons ≠ 0 then traps s t 0x39 (encRR 0x03 0 a 0 h k 0x05)
       else if x.fill < n.toNat then traps s t 0x3B (encRR 0x03 0 a 0 h k 0x05)
       else completes s (withHandle s ((popped s c t).flush s.cur) k { x with head := (x.head + n.toNat) % x.slots, fill := x.fill - n.toNat })) ∧
    exec (.cbAdvT a h k) s =
      (if x.init = false then traps s t 0x38 (encRR 0x03 0 a 0 h k 0x06)
       else if x.prod ≠ 0 then traps s t 0x39 (encRR 0x03 0 a 0 h k 0x06)
       else if x.slots - x.fill < n.toNat then traps s t 0x3B (encRR 0x03 0 a 0 h k 0x06)
       else completes s (withHandle s ((popped s c t).flush s.cur) k { x with tail := (x.tail + n.toNat) % x.slots, fill := x.fill + n.toNat }))

/-- 07 R167: `cb.stat` completes with the handle's state, or with 0 where the handle is not initialised. -/
def Sys2Proof.Claims.RingStatus : Prop :=
  ∀ (d : Reg) (h : BitVec 1) (k : BitVec 4) (s : State) (t : Task) (c : Core), Ready s [] d t [] c →
    let x := c.handle k
    exec (.cbStat d h k) s = .next ((popped s c t).writeReg s.cur d (if x.init = false then 0 else
      word (x.fill + 2 ^ 16 * x.head + 2 ^ 32 * x.tail + 2 ^ 48 + 2 ^ 49 * x.prod.toNat + 2 ^ 51 * x.cons.toNat)))
namespace Sys2Proof.Claims
open Sys2Proof.Machine

/-! ## Seeds (05 R93 to R95, R116) -/

/-- The seed image at `A` lies in the own scratchpad at a multiple of 8, and no byte of it is locked or poisoned. -/
def imageReady (p : State) (A : Word) : Prop :=
  ownScratch (p.core p.cur.core).part A 48 8 = true ∧ p.ownRead p.cur.core A 48 8 = none

/-- The control doubleword of a sown seed (05 R95). -/
def sownWord (img issuer : Word) (cap aff : Nat) : Word :=
  word (issuer.toNat / 2 ^ 44 * 2 ^ 44 + img.toNat / 2 ^ 40 % 16 * 2 ^ 40 + aff * 2 ^ 32 +
    (if issuer.toNat / 2 ^ 30 % 4 = 2 then 1 else issuer.toNat / 2 ^ 30 % 4) * 2 ^ 30 + img.toNat / 2 ^ 26 % 16 * 2 ^ 26 +
    img.toNat / 2 ^ 8 % 2 ^ 18 * 2 ^ 8 + cap)

/-- The seed that a task sows from the image at `A`. -/
def sownSeed (p : State) (t : Task) (A : Word) (cap aff : Nat) : Seed :=
  let bs := Memory.read (p.core p.cur.core).pool.bytes (A.toNat % 2 ^ 21) 48
  { pc := word (field bs 0 8), args := #v[word (field bs 8 8), word (field bs 16 8), word (field bs 24 8), word (field bs 32 8)]
    cw := sownWord (word (field bs 40 8)) t.cw cap aff, part := (p.core p.cur.core).part, tag := t.tag }

/-- A seed that 05 R94 admits. -/
def legalSeed (x : Seed) (dies : Nat) : Prop :=
  x.pc.toNat % 4 = 0 ∧ (x.pc.toNat / 2 ^ 56 = 0 ∨ x.pc.toNat / 2 ^ 56 = 255) ∧ x.cw.toNat / 2 ^ 40 % 16 = 0 ∧
    x.cw.toNat / 2 ^ 8 % 2 ^ 18 = 0 ∧ (x.cw.toNat / 2 ^ 32 % 256 = 255 ∨ x.cw.toNat / 2 ^ 32 % 256 < dies) ∧
    x.cw.toNat / 2 ^ 30 % 4 ≠ 3 ∧ (x.cw.toNat % 256 = 0 ∨ x.cw.toNat % 256 = 2 ∨ x.cw.toNat % 256 = 4 ∨ x.cw.toNat % 256 = 6)

/-- A seed is held as its core's `dbg` bit 3 says (12 R270). -/
def asHeld (p : State) (x : Seed) : Seed := { x with held := (p.core p.cur.core).regs.dbg.getLsbD 3 }

/-- A core is quiescent (07 R150): no slot holds a task or is reserved, no entry is RUNNABLE or RUNNING, its deque is empty and no engine
operation is under way. -/
def calm (c : Core) : Prop :=
  (∀ i : SlotId, c.slots[i].task = none ∧ c.slots[i].reserved = none) ∧
    (∀ x ∈ c.trig, x.2.state ≠ .runnable ∧ x.2.state ≠ .running) ∧ c.deque = [] ∧ c.plq = [] ∧ c.drq = []

/-- Arrive (05 R97): a message applied to an ARMED entry with a clear return mark, or put in the pending list. -/
def arrived (x : Trigger) (m : Msg) : Trigger :=
  if x.state = .armed ∧ x.ret = false then
    if x.count.toNat ≤ m.dec.toNat then { x with count := 0, state := .runnable, fire := some m }
    else { x with count := BitVec.ofNat 16 (x.count.toNat - m.dec.toNat) }
  else { x with pend := x.pend ++ [m] }

/-- A message is consumed without firing (05 R97), so that it needs no place. -/
def consumed (x : Trigger) (m : Msg) : Prop := x.state = .armed ∧ x.ret = false ∧ m.dec.toNat < x.count.toNat

/-- The place that a message of a class takes in a core's queue (13 R287): one of the 8 of its class, otherwise one of the 32 that the
classes share. -/
def placeFor (c : Core) (k : Nat) : Option Place :=
  if (c.queued.filter fun m => m.place = .reserved ∧ m.cls = k).length < 8 then some .reserved
  else if (c.queued.filter fun m => m.place = .shared).length < 32 then some .shared
  else none

/-- An ARMED entry after the messages that it applies in order: they are consumed until one fires it, and the rest stay pending (05 R98). -/
def drained (x : Trigger) : List Msg → Trigger
  | [] => { x with pend := [] }
  | m :: ms =>
    if x.count.toNat ≤ m.dec.toNat then { x with count := 0, state := .runnable, fire := some m, pend := ms }
    else drained { x with count := BitVec.ofNat 16 (x.count.toNat - m.dec.toNat) } ms

/-- TrigArm on an entry that is not RUNNING and has no return mark (05 R120). -/
def armedBy (x : Trigger) (a : Arm) : Trigger :=
  if a.count = 0 then { x with arm := a, held := none, state := .runnable, fire := some nullMsg }
  else drained { x with arm := a, held := none, state := .armed, count := a.count } x.pend

/-- What an entry becomes when its task ends (05 R98): a held arm takes effect; otherwise the entry reloads, fires at once with a null
message where the reload count is 0, or goes IDLE. The count 0 of the last two is the model's (log 114). -/
def endedEntry (x : Trigger) : Trigger :=
  let y := { x with fire := none, away := none }
  match x.held with
  | some a => armedBy y a
  | none =>
    if x.arm.reload = false then { y with state := .idle, count := 0 }
    else if x.arm.count = 0 then { y with state := .runnable, count := 0, fire := some nullMsg }
    else drained { y with state := .armed, count := x.arm.count } x.pend

/-- A trigger entry of the issuing core changed. -/
def withEntry (s p : State) (e : BitVec 8) (x : Trigger) : State := p.setCore s.cur.core ((p.core s.cur.core).setTrigger e x)

/-- The first index of the group of `n` that holds a cluster index (05 R111). -/
def groupStart (n i : Nat) : Nat := i / n * n

/-- A slot waits in `yoke` for a group of `n`, and its operand still names that size. -/
def waitsForYoke (s : State) (n : Nat) (r : SlotRef) : Prop :=
  ∃ (t : Task) (x : Reg) (v : Word) (c : Core), s.task r = some t ∧ t.yokeN = some (n, x) ∧
    readFields t (s.core r.core) [x] = some ([v], c) ∧ v.toNat = n

/-- The state in which a sow reads its image: its operands are popped, and its slot's earlier stores are performed (11 R246). -/
def flushed (s : State) (c : Core) (t : Task) : State := (popped s c t).flush s.cur

/-- The stores of a slot once everything older than its last release has been performed (11 R250, R252): the last release and what
follows it; all of them where no release is among them. -/
def fromRelease : List BufferedStore → List BufferedStore
  | [] => []
  | b :: bs => if bs.any (·.release) then fromRelease bs else b :: bs

end Sys2Proof.Claims

/-- 05 R101, R116, 11 R246: `sow` and `sow.cap`, after their slot's earlier stores, complete by pushing their seed at the tail of the own deque, where the seed needs no
steering and the deque has room; by appending it to the ready queue of the die to which it must be steered; and by starting it in
the lowest free slot, where the deque is full, the seed is not held, dispatch is open and the core's partition word is the
seed's. That a steered seed is not held, and that the slot is the lowest free one, are the model's (logs 108, 78). -/
def Sys2Proof.Claims.Sowing : Prop :=
  ∀ (a b : Reg) (h : BitVec 1) (s : State) (t : Task) (A B : Word) (c : Core),
    let p := flushed s c t
    let hold := p.taskHold s.cur t
    let home := match t.home with | some k => k.hdie | none => 0
    let placed := fun (i : Instr) (x : Seed) =>
      (∀ d, p.steer hold s.cur.core.die home x = some d → p.readyRoom d = true →
        exec i s = completes s (p.pushReady d (p.withHome hold s.cur.core s.cur.slot d { x with held := false }))) ∧
      (p.steer hold s.cur.core.die home x = none → p.dequeRoom s.cur.core = true → exec i s = completes s (p.pushDeque s.cur.core x)) ∧
      (∀ j, p.steer hold s.cur.core.die home x = none → p.dequeRoom s.cur.core = false → x.held = false →
        (p.core s.cur.core).freeSlot = some j → p.open hold s.cur.core = true →
        exec i s = completes s (p.startSeed hold ⟨s.cur.core, j⟩ x))
    (Ready s [a] 0 t [A] c → imageReady p A → legalSeed (sownSeed p t A 0 255) (p.hold hold).dies →
      placed (.sow a h) (asHeld p (sownSeed p t A 0 255))) ∧
    (Ready s [a, b] 0 t [A, B] c → imageReady p A → B.toNat / 2 ^ 16 = 0 → B.toNat % 256 % 2 = 0 → B.toNat % 256 < 8 →
      (B.toNat / 256 = 255 ∨ B.toNat / 256 < (p.hold hold).dies) →
      legalSeed (sownSeed p t A (B.toNat % 256) (B.toNat / 256)) (p.hold hold).dies →
      placed (.sowCap a b h) (asHeld p (sownSeed p t A (B.toNat % 256) (B.toNat / 256))))

/-- 05 R90, R100, R101, R116, 07 R150: `sow.at` completes by starting its seed in a slot of its target that is free under the seed's
partition word, where dispatch is open and the target has that word or is quiescent, adopting it first; or by pushing it on the target's
deque where no slot takes it. Where the target core's `dbg` holds seeds, the seed joins the deque held even where a slot is
free, and the sower waits while the deque is full. That the slot is the lowest free one, and that the target is the core on which a seed
of `sow.at` is sown, are the model's (log 78). -/
def Sys2Proof.Claims.SowAt : Prop :=
  ∀ (a b : Reg) (h : BitVec 1) (s : State) (t : Task) (A B : Word) (c : Core), Ready s [a, b] 0 t [A, B] c →
    let p := flushed s c t
    let hold := p.taskHold s.cur t
    let target := p.coreAt hold (B.toNat % 2 ^ 16) (B.toNat / 2 ^ 16)
    let x := sownSeed p t A 0 255
    imageReady p A → B.toNat / 2 ^ 32 = 0 → p.inGrid hold (B.toNat % 2 ^ 16) (B.toNat / 2 ^ 16) = true →
    legalSeed x (p.hold hold).dies → p.retired target = false →
    let holds := (p.core target).regs.dbg.getLsbD 3
    let slot := (List.finRange 4).find? ((p.core target).slotFreeUnder x.part)
    (∀ j, holds = false → p.open hold target = true → slot = some j →
      ((p.core target).part = x.part → exec (.sowAt a b h) s = completes s (p.startSeed hold ⟨target, j⟩ x)) ∧
      ((p.core target).part ≠ x.part → calm (p.core target) →
        exec (.sowAt a b h) s = completes s ((p.adopt hold target x).startSeed hold ⟨target, j⟩ x))) ∧
    (holds = true ∨ p.open hold target = false ∨ slot = none ∨ ((p.core target).part ≠ x.part ∧ ¬calm (p.core target)) →
      p.dequeRoom target = true →
      exec (.sowAt a b h) s = completes s (p.pushDeque target { x with held := holds })) ∧
    (holds = true → p.dequeRoom target = false → exec (.sowAt a b h) s = waits s t)

/-- 05 R94, R116: the checks of `sow`, `sow.at` and `sow.cap`, in their order: the placement of the image (0x41), the register operand
(0x42), and the seed as it stands after the replacement (0x41). That the fault address is the image's for a misplaced image and 0 for an ill-formed
seed is the model's reading (log 74). -/
def Obligations.SowChecks : Prop :=
  ∀ (a b : Reg) (h : BitVec 1) (s : State) (t : Task) (A B : Word) (c : Core),
    let p := flushed s c t
    let dies := (p.hold (p.taskHold s.cur t)).dies
    (Ready s [a] 0 t [A] c → ownScratch (p.core s.cur.core).part A 48 8 = false →
      exec (.sow a h) s = .next (s.takeTrap s.cur ⟨0x41, 0, A⟩ t.pc (t.pc + 4) false)) ∧
    (Ready s [a] 0 t [A] c → imageReady p A → ¬legalSeed (sownSeed p t A 0 255) dies →
      exec (.sow a h) s = .next (s.takeTrap s.cur ⟨0x41, 0, 0⟩ t.pc (t.pc + 4) false)) ∧
    (Ready s [a, b] 0 t [A, B] c → ownScratch (p.core s.cur.core).part A 48 8 = false →
      exec (.sowAt a b h) s = .next (s.takeTrap s.cur ⟨0x41, 0, A⟩ t.pc (t.pc + 4) false) ∧
      exec (.sowCap a b h) s = .next (s.takeTrap s.cur ⟨0x41, 0, A⟩ t.pc (t.pc + 4) false)) ∧
    (Ready s [a, b] 0 t [A, B] c → imageReady p A →
      (B.toNat / 2 ^ 32 ≠ 0 ∨ 20 * dies ≤ B.toNat % 2 ^ 16 ∨ 24 ≤ B.toNat / 2 ^ 16 → exec (.sowAt a b h) s = traps s t 0x42 (encRR 0x32 0 a b h 0 0x01)) ∧
      (B.toNat / 2 ^ 16 ≠ 0 ∨ B.toNat % 2 = 1 ∨ 8 ≤ B.toNat % 256 ∨ (B.toNat / 256 % 256 ≠ 255 ∧ dies ≤ B.toNat / 256 % 256) →
        exec (.sowCap a b h) s = traps s t 0x42 (encRR 0x32 0 a b h 0 0x02)) ∧
      (B.toNat / 2 ^ 32 = 0 → B.toNat % 2 ^ 16 < 20 * dies → B.toNat / 2 ^ 16 < 24 → ¬legalSeed (sownSeed p t A 0 255) dies →
        exec (.sowAt a b h) s = .next (s.takeTrap s.cur ⟨0x41, 0, 0⟩ t.pc (t.pc + 4) false)) ∧
      (B.toNat / 2 ^ 16 = 0 → B.toNat % 2 = 0 → B.toNat % 256 < 8 → (B.toNat / 256 = 255 ∨ B.toNat / 256 < dies) →
        ¬legalSeed (sownSeed p t A (B.toNat % 256) (B.toNat / 256)) dies →
        exec (.sowCap a b h) s = .next (s.takeTrap s.cur ⟨0x41, 0, 0⟩ t.pc (t.pc + 4) false)))

/-- 05 R98, R108, R109, R117, 11 R252, 13 R280, R290: `end` of a task at home that no inline caller waits for frees its slot, sends the
messages that it closed in the order built and then the join, and leaves the entry of a triggered task IDLE, reloaded, fired again, or as
its held arm says, where the network has room for the messages; it waits at its address, with nothing sent, where the network lacks room
for one of them. Before the messages leave, a join makes the slot's stores visible, and otherwise the stores before its last release become
visible. A join word that the rule refuses raises 0x42. When the network has room, and that all messages of an end then leave in one step,
are the model's (log 79), so is the count of an entry that goes IDLE or fires again (log 114), and that the slot's other stores stay with
it and outlive the task where there is no join (log 93). -/
def Obligations.Ending : Prop :=
  ∀ (a : Reg) (h : BitVec 1) (s : State) (t : Task) (J : Word) (c : Core), Ready s [a] 0 t [J] c →
    let p := popped s c t
    let hold := p.holdOf s.cur.core
    let join : List Msg := if J = 0 then [] else
      [{ header := word (J.toNat % 2 ^ 16 + J.toNat / 2 ^ 16 % 2 ^ 16 * 2 ^ 10 + J.toNat / 2 ^ 32 % 256 * 2 ^ 16 +
          J.toNat / 2 ^ 40 % 2 ^ 16 * 2 ^ 24 + 2 * 2 ^ 40 + 1 * 2 ^ 42)
         payload := [J], dec := BitVec.ofNat 16 (J.toNat / 2 ^ 40) }]
    let refused := J ≠ 0 ∧ (J.toNat / 2 ^ 56 ≠ 0 ∨ 20 * (p.hold (p.taskHold s.cur t)).dies ≤ J.toNat % 2 ^ 16 ∨ 24 ≤ J.toNat / 2 ^ 16 % 2 ^ 16)
    (refused → exec (.endTask a h) s = traps s t 0x42 (encRR 0x32 0 a 0 h 0 0x03)) ∧
    let src := p.sender hold s.cur
    let msgs := ((t.buf.filter (·.closed)).map Draft.toMsg) ++ join
    let taken := ∀ m ∈ msgs, p.netRoom hold src m.netClass = true
    let left := if J ≠ 0 then [] else if msgs = [] then (s.slot s.cur).stores else fromRelease (s.slot s.cur).stores
    (¬refused → t.home = none → t.caller = none → taken →
      ∃ s', exec (.endTask a h) s = .next s' ∧ s'.task s.cur = none ∧
        (s'.hold hold).net = (s.hold hold).net ++ msgs.map (fun m => ⟨src, m, false⟩) ∧
        (∀ e, t.kind = .triggered e → ((s.core s.cur.core).trigger e).ret = false →
          (s'.core s.cur.core).trigger e = endedEntry ((s.core s.cur.core).trigger e)) ∧
        (s'.slot s.cur).stores = left ∧
        ∀ a, (∀ pre, (s.slot s.cur).stores = pre ++ left → ∀ b ∈ pre, ¬storesAt b a) → Memory.get s'.mem a = Memory.get s.mem a) ∧
    (¬refused → t.home = none → ¬taken → exec (.endTask a h) s = waits s t)

/-- An instruction at a slot's address would go on if executed now: it is there, and it would not wait (05 R118). -/
def Sys2Proof.Claims.hasReady (s : State) (r : SlotRef) : Prop :=
  ∃ t w i s', s.task r = some t ∧ (s.slot r).halted = false ∧ s.frozenHold (s.taskHold r t) = false ∧ s.fetch r t = .ok w ∧
    decode w = .ok i ∧ exec i { s with cur := r } = .next s' ∧ s'.waits r t.id = false

/-- 05 R110, R118, R119: `yield` completes, and its slot then issues nothing before every other slot that is ready has issued; `wfe`
clears a set event-pending bit and continues, and waits while it is clear; `sev` sets all four bits of its target, which ignores the
event if it is retired. -/
def Obligations.Events : Prop :=
  ∀ (a : Reg) (h : BitVec 1) (s : State) (t : Task) (V : Word) (c : Core),
    let p := popped s c t
    let x := V.toNat % 2 ^ 16
    let y := V.toNat / 2 ^ 16 % 2 ^ 16
    let target := p.coreAt (p.taskHold s.cur t) x y
    (Ready s [] 0 t [] c → exec (.yield h) s = completes s (p.setSlot s.cur { p.slot s.cur with
      after := (List.finRange 4).filter fun j => j ≠ s.cur.slot && (p.task ⟨s.cur.core, j⟩).isSome && !(p.slot ⟨s.cur.core, j⟩).halted })) ∧
    (∀ j ∈ (s.slot s.cur).after, s.task s.cur = some t → s.sched = [] → s.yokeOf s.cur = none → s.takeDue s.cur = none →
      hasReady s ⟨s.cur.core, j⟩ → s.yokeOf ⟨s.cur.core, j⟩ = none → step s = .next s) ∧
    (Ready s [] 0 t [] c → exec (.wfe h) s =
      if (s.slot s.cur).event then completes s (p.setSlot s.cur { p.slot s.cur with event := false }) else waits s t) ∧
    (Ready s [a] 0 t [V] c → V.toNat / 2 ^ 32 = 0 → p.inGrid (p.taskHold s.cur t) x y = true →
      exec (.sev a h) s = completes s (if p.retired target then p else
        p.setCore target { p.core target with slots := (p.core target).slots.map fun sl => { sl with event := true } })) ∧
    (Ready s [a] 0 t [V] c → V.toNat / 2 ^ 32 ≠ 0 ∨ p.inGrid (p.taskHold s.cur t) x y = false →
      exec (.sev a h) s = traps s t 0x42 (encRR 0x32 0 a 0 h 0 0x06))

/-- 05 R97, R98, R120, R121: the trigger instructions. `trig.arm` arms an entry that is not RUNNING, which applies its pending messages
in order until one fires it; it fires the entry at once where the count is 0, holds the arm on a RUNNING entry or one with a return mark,
and refuses a RUNNABLE one; `trig.dec` counts an ARMED entry down and fires it at 0; on an entry that is not ARMED, or has a return mark,
its null message joins the pending list in a place of the task class, or the instruction waits while there is none; `trig.rd` reads an
entry; `hmask` writes mask bits. -/
def Obligations.Triggers : Prop :=
  ∀ (a b d : Reg) (h : BitVec 1) (s : State) (t : Task) (A B : Word) (c : Core),
    let p := popped s c t
    let e : BitVec 8 := BitVec.ofNat 8 B.toNat
    let x := c.trigger e
    let arm : Arm := { handler := A, prio := BitVec.ofNat 2 (B.toNat / 2 ^ 24), reload := B.getLsbD 26, count := BitVec.ofNat 16 (B.toNat / 256)
                       cw := t.cw, tag := t.tag }
    let bad := B.toNat / 2 ^ 27 ≠ 0 ∨ A.toNat % 4 ≠ 0 ∨ (A.toNat / 2 ^ 56 ≠ 0 ∧ A.toNat / 2 ^ 56 ≠ 255) ∨ x.state = .runnable
    (Ready s [a, b] 0 t [A, B] c →
      (bad → exec (.trigArm a b h) s = traps s t 0x42 (encRR 0x32 0 a b h 0 0x08)) ∧
      (¬bad → x.state = .running ∨ x.ret = true → exec (.trigArm a b h) s = completes s (withEntry s p e { x with held := some arm })) ∧
      (¬bad → x.state ≠ .running → x.ret = false → exec (.trigArm a b h) s = completes s (withEntry s p e (armedBy x arm)))) ∧
    (Ready s [a, b] 0 t [A, B] c → A.toNat < 256 → B.toNat < 2 ^ 16 →
      let f : BitVec 8 := BitVec.ofNat 8 A.toNat
      let y := c.trigger f
      let m : Msg := { dec := BitVec.ofNat 16 B.toNat, serial := c.serial }
      let takes := fun (m : Msg) => completes s (p.setCore s.cur.core { (p.core s.cur.core).setTrigger f (arrived y m) with serial := c.serial + 1 })
      (y.state = .armed → y.ret = false → exec (.trigDec a b h) s = takes m) ∧
      (y.state ≠ .armed ∨ y.ret = true →
        (∀ pl, placeFor c 2 = some pl → exec (.trigDec a b h) s = takes { m with place := pl }) ∧
        (placeFor c 2 = none → exec (.trigDec a b h) s = waits s t))) ∧
    (Ready s [a] d t [A] c → A.toNat < 256 →
      let y := c.trigger (BitVec.ofNat 8 A.toNat)
      exec (.trigRd d a h) s = .next (p.writeReg s.cur d (word (y.count.toNat + 2 ^ 16 * y.state.code + 2 ^ 18 * y.arm.prio.toNat +
        2 ^ 20 * y.arm.reload.toNat + 2 ^ 21 * y.mask.toNat + 2 ^ 22 * y.ret.toNat + 2 ^ 32 * y.arm.count.toNat)))) ∧
    (Ready s [a] 0 t [A] c → A.toNat < 2 ^ 10 → ∃ k, exec (.hmask a h) s = completes s (p.setCore s.cur.core k) ∧
      k = { p.core s.cur.core with trig := k.trig } ∧
      ∀ g : BitVec 8, k.trigger g = if A.getLsbD 9 ∨ g.toNat = A.toNat % 256 then { c.trigger g with mask := A.getLsbD 8 } else c.trigger g)

/-- 05 R111, R122: `yoke` waits while a member of its group has not come, and forms the yoke when the last one comes: its members
are one waiting slot of each core of the group, the leader first, and all continue at the leader's next instruction. On a core in
no yoke, `unyoke` has no effect and `reyoke` acts as `j`; `unyoke` of an attached core dissolves its yoke. -/
def Obligations.Yokes : Prop :=
  ∀ (a : Reg) (h : BitVec 1) (s : State) (t : Task) (N : Word) (c : Core) (ms : List SlotRef),
    let die := s.cur.core.die
    let cl := clusterOf s.cur.core.idx
    let n := N.toNat % 16
    let base := groupStart n (cidxOf s.cur.core.idx)
    (Ready s [a] 0 t [N] c → t.yokeN = none → s.yokeRefused s.cur t N = false → s.yokeClash s.cur n = [] →
      (∃ i < n, base + i ≠ cidxOf s.cur.core.idx ∧ ∀ r : SlotRef, r.core = ⟨die, clusterCore cl (base + i)⟩ → ¬waitsForYoke s n r) →
      exec (.yoke a h) s = .next (s.setTask s.cur { t with yokeN := some (n, a), waiting := true })) ∧
    (Ready s [a] 0 t [N] c → s.yokeRefused s.cur t N = false → s.yokeClash s.cur n = [] →
      ms.map (·.core) = (List.range n).map (fun i => ⟨die, clusterCore cl (base + i)⟩) → s.cur ∈ ms →
      (∀ r ∈ ms, r ≠ s.cur → waitsForYoke s n r) →
      (∀ r : SlotRef, r.core ∈ ms.map (·.core) → waitsForYoke s n r → r ∈ ms) →
      ∃ s', exec (.yoke a h) s = .next s' ∧
        (s'.cluster die cl).yokes = (s.cluster die cl).yokes ++ [⟨n, base, ms.map fun r => (cidxOf r.core.idx, r.slot), []⟩] ∧
        ∀ r ∈ ms, ∃ t', s'.task r = some t' ∧ t'.yokeN = none ∧ t'.waiting = false ∧
          ∃ lead t0, ms.head? = some lead ∧ s.task lead = some t0 ∧ t'.pc = t0.pc + 4) ∧
    (Ready s [] 0 t [] c → s.yokeOf s.cur = none →
      exec (.unyoke h) s = completes s (popped s c t) ∧
      ∀ o, exec (.reyoke o) s = .next (goTo s c t 0 0 (wordsOn t.pc o.toInt))) ∧
    (∀ y, Ready s [] 0 t [] c → s.yokeOf s.cur = some y → (cidxOf s.cur.core.idx, s.cur.slot) ∈ y.attached →
      ∃ s', exec (.unyoke h) s = .next s' ∧ (s'.cluster die cl).yokes = (s.cluster die cl).yokes.filter (· ≠ y))
namespace Sys2Proof.Claims
open Sys2Proof.Machine

/-! ## Messages (13 R283, R296 to R301) -/

/-- The payload count of a header. -/
def count (hd : Word) : Nat := hd.toNat / 2 ^ 42 % 16
/-- The destination of a header lies in the holding grid. -/
def destX (hd : Word) : Nat := hd.toNat % 2 ^ 10
def destY (hd : Word) : Nat := hd.toNat / 2 ^ 10 % 32

/-- The tests of `TakeHeader` that raise 0x48 (13 R296). -/
def headerRefused (p : State) (h : HoldRef) (hd : Word) (one : Bool) : Prop :=
  hd.toNat / 2 ^ 52 ≠ 0 ∨ hd.getLsbD 15 = true ∨ count hd = 0 ∨ 8 < count hd ∨ (one = true ∧ count hd ≠ 1) ∨
    (hd.getLsbD 51 = false ∧ hd.toNat / 2 ^ 47 % 16 ≠ 0) ∨
    (hd.getLsbD 46 = true ∧ (hd.toNat / 2 ^ 20 % 16 ≠ 0 ∨ hd.toNat / 2 ^ 24 % 2 ^ 16 ≠ 0)) ∨
    20 * (p.hold h).dies ≤ destX hd ∨ 23 < destY hd ∨ p.retired (p.coreAt h (destX hd) (destY hd)) = true

/-- The information of 0x49, where a routed header of a task in the holding grid is refused (13 R286, R294). -/
def routeInfo (p : State) (t : Task) (hd : Word) : Option Word :=
  let h := p.taskHold p.cur t
  let src := p.sender h p.cur
  if hd.getLsbD 51 = true ∧ p.inGrid h src.hx src.hy = true then p.routeRefused h src t.tag hd else none

/-- A draft appended to the send buffer of the issuing task. -/
def drafted (s p : State) (d : Draft) : State := p.modTask s.cur fun t => { t with buf := t.buf ++ [d] }

end Sys2Proof.Claims

/-- 13 R296: `msg.h` opens a message of `n` payload doublewords and `msg.to` builds and closes one of a single payload, where
no message is open (`msg.h`), the header passes its tests and the send buffer holds fewer than 8; otherwise they raise 0x48,
0x49 or 0x45, in this order, with no effect. -/
def Obligations.MessageHeaders : Prop :=
  ∀ (a b : Reg) (h : BitVec 1) (s : State) (t : Task) (hd B : Word) (c : Core),
    let p := popped s c t
    let hold := p.taskHold s.cur t
    let built := fun (i : Instr) (w : W32) (one : Bool) (d : Draft) =>
      (headerRefused p hold hd one → exec i s = traps s t 0x48 w) ∧
      (∀ x, ¬headerRefused p hold hd one → routeInfo p t hd = some x →
        exec i s = .next (s.takeTrap s.cur ⟨0x49, x, 0⟩ t.pc (t.pc + 4) false)) ∧
      (¬headerRefused p hold hd one → routeInfo p t hd = none → 8 ≤ t.buf.length → exec i s = traps s t 0x45 w) ∧
      (¬headerRefused p hold hd one → routeInfo p t hd = none → t.buf.length < 8 → exec i s = completes s (drafted s p d))
    (Ready s [a] 0 t [hd] c →
      ((∃ d ∈ t.buf, d.closed = false) → exec (.msgH a h) s = traps s t 0x48 (encRR 0x33 0 a 0 h 0 0x00)) ∧
      ((∀ d ∈ t.buf, d.closed = true) → built (.msgH a h) (encRR 0x33 0 a 0 h 0 0x00) false
        { header := hd, payload := List.replicate (count hd) 0, closed := false, inner := t.caller.isSome })) ∧
    (Ready s [a, b] 0 t [hd, B] c → built (.msgTo a b h) (encRR 0x33 0 a b h 0 0x03) true
      { header := hd, payload := [B], closed := true, inner := t.caller.isSome })

/-- 13 R297, R298: `msg.d` writes one payload doubleword of the open message and no other, and raises 0x48 where no message is
open or the index is not below its count; `msg.go` closes the open message, and raises 0x48 where none is open. -/
def Sys2Proof.Claims.MessageBodies : Prop :=
  ∀ (a : Reg) (h : BitVec 1) (k : BitVec 4) (s : State) (t : Task) (A : Word) (c : Core) (pre post : List Draft) (d : Draft),
    let p := popped s c t
    let rebuilt := fun (d' : Draft) => p.modTask s.cur fun t => { t with buf := pre ++ d' :: post }
    (Ready s [a] 0 t [A] c →
      ((∀ x ∈ t.buf, x.closed = true) → exec (.msgD a h k) s = traps s t 0x48 (encRR 0x33 0 a 0 h k 0x01)) ∧
      (t.buf = pre ++ d :: post → (∀ x ∈ pre ++ post, x.closed = true) → d.closed = false →
        exec (.msgD a h k) s = if d.payload.length ≤ k.toNat then traps s t 0x48 (encRR 0x33 0 a 0 h k 0x01)
          else completes s (rebuilt { d with payload := d.payload.set k.toNat A }))) ∧
    (Ready s [] 0 t [] c →
      ((∀ x ∈ t.buf, x.closed = true) → exec (.msgGo h) s = traps s t 0x48 (encRR 0x33 0 0 0 h 0 0x02)) ∧
      (t.buf = pre ++ d :: post → (∀ x ∈ pre ++ post, x.closed = true) → d.closed = false →
        exec (.msgGo h) s = completes s (rebuilt { d with closed := true })))

/-- 13 R299, R300: `mq.peek` and `mq.rd` complete with the header of the slot's current message, bit 15 set, and with a payload
doubleword of it, or with 0 where there is none. -/
def Sys2Proof.Claims.MessageReads : Prop :=
  ∀ (d : Reg) (h : BitVec 1) (k : BitVec 4) (s : State) (t : Task) (c : Core), Ready s [] d t [] c →
    exec (.mqPeek d h) s = .next ((popped s c t).writeReg s.cur d
      (match t.msg with | none => 0 | some m => word (m.header.toNat % 2 ^ 15 + 2 ^ 15 + m.header.toNat / 2 ^ 16 * 2 ^ 16))) ∧
    exec (.mqRd d h k) s = .next ((popped s c t).writeReg s.cur d
      (match t.msg with | none => 0 | some m => if k.toNat < m.payload.length then m.payload.getD k.toNat 0 else 0))

/-- 13 R301: `mq.pop` without a current message has no effect; with one, it discards it, and makes current the oldest record of
the fault queue for entry 255 on the supervisor core, otherwise the oldest pending message of the task's own entry for a task
at home, otherwise nothing. What it takes leaves its queue, and a migrated task's message its place in the home core's (13 R287);
that a migrated task takes no further message of its home core's entry is the model's reading (log 40). -/
def Sys2Proof.Claims.MessagePops : Prop :=
  ∀ (h : BitVec 1) (s : State) (t : Task) (c : Core), Ready s [] 0 t [] c →
    let p := popped s c t
    let hold := p.taskHold s.cur t
    let now := fun (q : State) (m : Option Msg) => q.modTask s.cur fun t => { t with msg := m }
    (t.msg = none → exec (.mqPop h) s = completes s p) ∧
    ∀ (m : Msg) (e : BitVec 8), t.msg = some m → t.kind = .triggered e →
      let x := c.trigger e
      let own := e = 255 ∧ p.supervisor hold = some s.cur.core ∧ (p.hold hold).faultQ ≠ []
      (∀ r rs, e = 255 → p.supervisor hold = some s.cur.core → (p.hold hold).faultQ = r :: rs →
        ∃ q m', exec (.mqPop h) s = completes s (now q (some m')) ∧ m'.payload = r.toList ∧ (q.hold hold).faultQ = rs ∧
          (t.home = none → ∀ e, (q.core s.cur.core).trigger e = c.trigger e) ∧
          (t.home.isSome = true → ((q.core (p.homeSlot s.cur t).core).trigger e).away = none)) ∧
      (∀ m' ms, ¬own → t.home = none → x.pend = m' :: ms →
        exec (.mqPop h) s = completes s (now (withEntry s p e { x with pend := ms }) (some m'))) ∧
      (¬own → t.home = none → x.pend = [] → exec (.mqPop h) s = completes s (now p none)) ∧
      (¬own → t.home.isSome = true →
        exec (.mqPop h) s = completes s (now (p.modTrigger (p.homeSlot s.cur t).core e fun y => { y with away := none }) none))
namespace Sys2Proof.Claims
open Sys2Proof.Machine

/-- The cause word of a trap of a task at home (12 R264): its slot and place, whether an engine operation raised
it, whether a halt or a park ends it, and the cause. -/
def reportWord (s : State) (async halts parks : Bool) (cause : BitVec 8) : Word :=
  causeWord s.cur.slot ((s.coord s.cur.core).getD ⟨0, 0⟩) false false false async halts parks cause

/-- The four fault registers of a core hold a report. -/
def fltIs (g : CoreRegs) (cw pc addr info : Word) : Prop := g.fltCause = cw ∧ g.fltPc = pc ∧ g.fltAddr = addr ∧ g.fltInfo = info

end Sys2Proof.Claims

/-- 03 R55, 06 R146, 12 R273, R275: `trap` and `park` take 0x54 and 0x56 in the issuing task, `brk` takes 0x50, and a word that the
decoder refuses takes the cause of its refusal with the word as information. -/
def Obligations.SoftwareTraps : Prop :=
  ∀ (n : BitVec 16) (h : BitVec 1) (s : State) (t : Task) (c : Core) (w : W32) (x : DecodeCause),
    (Ready s [] 0 t [] c →
      exec (.trap n) s = .next (s.takeTrap s.cur ⟨0x54, n.setWidth 64, 0⟩ t.pc (t.pc + 4) false) ∧
      exec (.park h) s = .next (s.takeTrap s.cur ⟨0x56, 0, 0⟩ t.pc (t.pc + 4) false)) ∧
    (s.task s.cur = some t →
      exec .brk s = .next (s.takeTrap s.cur ⟨0x50, 0, 0⟩ t.pc t.pc false) ∧
      (s.fetch s.cur t = .ok w → decode w = .error x →
        exec (.illegalInstruction w) s = traps s t x.code w))

/-- 12 R260 to R262, R264, R267, 05 R99: a trap of disposition P in a task at home with no inline caller performs the slot's stores,
writes the four fault registers, frees and parks the slot, returns the message of a triggered task to the head of its entry's pending
list with the count at 1, or keeps the seed of a seed-started one in the restore place, appends a record where the queue has room,
after the records of the engine causes that the task had not taken (log 129), and sends nothing. The model's choices: a null message is
returned where `mq.pop` left none (log 33), and a restore place that is taken keeps the seed behind the others (log 95). -/
def Obligations.TrapEntry : Prop :=
  ∀ (s : State) (t : Task) (tr : Trap) (pc next : Word) (async : Bool),
    s.task s.cur = some t → t.home = none → t.caller = none → s.retired s.cur.core = false →
    (∀ c ∈ [(0x50 : BitVec 8), 0x53, 0x40, 0x46, 0x4B, 0x57], tr.cause ≠ c) →
    let s' := s.takeTrap s.cur tr pc next async
    let u := s.flush s.cur
    let c := s.core s.cur.core
    let hold := s.taskHold s.cur t
    let cw := reportWord s async false true tr.cause
    (t.async = [] → fltIs (s'.core s.cur.core).regs cw pc tr.addr tr.info ∧
      (s'.core s.cur.core).regs = { c.regs with fltCause := cw, fltPc := pc, fltAddr := tr.addr, fltInfo := tr.info }) ∧
    s'.task s.cur = none ∧ (s'.slot s.cur).parked = true ∧ (s'.slot s.cur).halted = (s.slot s.cur).halted ∧
    (∀ e, t.kind = .triggered e → (c.trigger e).away = none →
      (s'.core s.cur.core).trigger e = { c.trigger e with
        state := .armed, count := 1, ret := true, fire := none, pend := t.msg.getD nullMsg :: (c.trigger e).pend }) ∧
    (∀ x, t.kind = .seeded x → (s'.slot s.cur).restore = (s.slot s.cur).restore ++ [x]) ∧
    ((∀ f ∈ t.async, f.origin.home = none) → (s.hold hold).faultQ.length + t.async.length < 64 → (s.hold hold).faultDropped = 0 →
      ∃ (rs : List Record) (r : Record), (s'.hold hold).faultQ = (s.hold hold).faultQ ++ rs ++ [r] ∧
        rs.map (fun q => q[1]) = t.async.map (fun f => f.origin.pc) ∧
        r[0] = cw ∧ r[1] = pc ∧ r[2] = tr.addr ∧ r[3] = tr.info ∧ r[6] = t.cw ∧ r[7] = s.time) ∧
    (s'.hold hold).net = (s.hold hold).net ∧ s'.mem = u.mem ∧ (s'.core s.cur.core).pool = (u.core s.cur.core).pool

/-- 12 R262, R269: a halt (0x50, 0x53) of a task at home with no inline caller performs the slot's stores and keeps the task in its
slot, which is parked and halted, at the next program counter that it saves with the registers in the slot's register image. -/
def Sys2Proof.Claims.Halts : Prop :=
  ∀ (s : State) (t : Task) (tr : Trap) (pc next : Word), s.task s.cur = some t → t.home = none → t.caller = none →
    t.reyoke = none → tr.cause = 0x50 ∨ tr.cause = 0x53 →
    let s' := s.takeTrap s.cur tr pc next false
    let u := s.flush s.cur
    s'.task s.cur = some { t with pc := next, waiting := false, async := [] } ∧ (s'.slot s.cur).parked = true ∧ (s'.slot s.cur).halted = true ∧
    (t.async = [] → fltIs (s'.core s.cur.core).regs (reportWord s false true true tr.cause) pc tr.addr tr.info) ∧
    (s'.core s.cur.core).pool = (u.core s.cur.core).pool.write (imageOffset (s.core s.cur.core).part s.cur.slot) (t.image next) ∧ s'.mem = u.mem

/-- 12 R262, R271, 13 R287: a cause 0x40 of a task at home with no inline caller posts no record of its own: the task leaves its slot,
which is not parked, and a seed with its control word and its message waits there for the migration, a triggered task's with the
handler's address and the entry's index in `tk.a0`. The entry keeps the message, whose place in the home core's queue stays taken, so
that the copy which the seed carries holds none (log 40). -/
def Sys2Proof.Claims.MigrationTrap : Prop :=
  ∀ (s : State) (t : Task) (set : BitVec 8) (pc next : Word), s.task s.cur = some t → t.home = none → t.caller = none →
    s.retired s.cur.core = false →
    let s' := s.takeTrap s.cur ⟨0x40, set.setWidth 64, 0⟩ pc next false
    let hold := s.taskHold s.cur t
    s'.task s.cur = none ∧ (s'.slot s.cur).parked = (s.slot s.cur).parked ∧ (t.async = [] → (s'.hold hold).faultQ = (s.hold hold).faultQ) ∧
    (∀ e, t.kind = .triggered e → ((s.core s.cur.core).trigger e).away = none → ((s'.core s.cur.core).trigger e).away = t.msg) ∧
    ∃ x g, (s'.slot s.cur).migrating = some x ∧ x.mig = some g ∧ g.set = set ∧ g.home.core = s.cur.core.idx ∧ g.home.slot = s.cur.slot ∧
      g.home.hold = hold ∧
      (∀ e, t.kind = .triggered e → x.pc = ((s.core s.cur.core).trigger e).arm.handler ∧ x.args = #v[word e.toNat, 0, 0, 0] ∧
        x.cw = t.cw ∧ g.entry = some e ∧ g.msg = t.msg.map fun m => { m with place := .none }) ∧
      (∀ y, t.kind = .seeded y → x.pc = y.pc ∧ x.args = y.args ∧ x.cw = y.cw ∧ g.entry = none ∧ g.msg = none)

/-- 12 R274, R276: `fault.post` performs the slot's stores and appends a record of cause 0x57 to the holding's fault queue, with the
operands as its information and address and with the pc and the control word of the task, an inline child as well, or drops it where the queue is full; the
task continues. `resume` raises 0x55 away from the supervisor core and for an operand that the rule refuses; otherwise it performs the
slot's stores; it has no further effect on a slot that is not parked; it gives a halted task its register image back; it clears the
parked mark of its target, and releases, or discards, the message and the seed that wait there. That `fault.post` leaves the fault
registers as they are is the model's reading (log 44). -/
def Obligations.SupervisorInstructions : Prop :=
  ∀ (a b : Reg) (h : BitVec 1) (s : State) (t : Task) (A B : Word) (c : Core),
    let p := flushed s c t
    let hold := p.taskHold s.cur t
    let target : SlotRef := ⟨p.coreAt hold (A.toNat % 2 ^ 16) (A.toNat / 2 ^ 16 % 2 ^ 16), ⟨A.toNat / 2 ^ 32 % 4, Nat.mod_lt _ (by decide)⟩⟩
    let refused := A.toNat / 2 ^ 35 ≠ 0 ∨ p.inGrid hold (A.toNat % 2 ^ 16) (A.toNat / 2 ^ 16 % 2 ^ 16) = false ∨ p.retired target.core = true
    (Ready s [a, b] 0 t [A, B] c → t.home = none → ∃ q, exec (.faultPost a b h) s = completes s q ∧ q.mem = p.mem ∧
      q.task s.cur = p.task s.cur ∧ (q.core s.cur.core).regs = c.regs ∧
      ((s.hold hold).faultQ.length < 64 → (s.hold hold).faultDropped = 0 → ∃ r : Record, (q.hold hold).faultQ = (s.hold hold).faultQ ++ [r] ∧
        r[0] = reportWord s false false false 0x57 ∧ r[1] = t.pc ∧ r[2] = B ∧ r[3] = A ∧ r[6] = t.cw ∧ r[7] = s.time) ∧
      (64 ≤ (s.hold hold).faultQ.length → (q.hold hold).faultQ = (s.hold hold).faultQ)) ∧
    (Ready s [a] 0 t [A] c → s.supervisor (s.holdOf s.cur.core) ≠ some s.cur.core ∨ refused →
      exec (.resume a h) s = traps s t 0x55 (encRR 0x36 0 a 0 h 0 0x00)) ∧
    (Ready s [a] 0 t [A] c → s.isSupervisor s.cur.core = true → ¬refused →
      ((p.slot target).parked = false → p.haltedGuest ⟨hold, A.toNat % 2 ^ 16 / 20, target.core.idx, target.slot⟩ = none →
        exec (.resume a h) s = completes s p) ∧
      (∀ u, (p.slot target).parked = true → (p.slot target).halted = true → p.task target = some u → A.getLsbD 34 = false →
        ∃ q, exec (.resume a h) s = completes s q ∧ q.task target = some { u.load (p.imageBytes target) with kept := [], parts := [] } ∧
          (q.slot target).parked = false ∧ (q.slot target).halted = false ∧ q.mem = p.mem) ∧
      ((p.slot target).parked = true → p.task target = none →
        ∃ q, exec (.resume a h) s = completes s q ∧ q.task target = none ∧ (q.slot target).parked = false ∧ q.mem = p.mem ∧
          (A.getLsbD 34 = true ∨ (p.image target.core.die).ready.length + (p.slot target).restore.length ≤ 4096 → (q.slot target).restore = []) ∧
          (A.getLsbD 34 = true → ∀ e ∈ (p.slot target).parkedEntry, ((q.core target.core).trigger e).ret = false)))
namespace Sys2Proof.Claims
open Sys2Proof.Machine

/-- The band of a round whose members stand at these holding dies and cores (15 R323); 0 when there are none. -/
def releaseBand (ms : List (Nat × CoreRef)) : Nat :=
  if ms.all fun x => ms.all fun y => x.1 == y.1 then
    (if ms.all fun x => ms.all fun y => isSouth x.2.idx == isSouth y.2.idx then 0 else 1)
  else if ms.all fun x => ms.all fun y => x.1 ≤ y.1 + 1 then 2 else 3

/-- State `q` is `p` after barrier `k` of a holding was released (15 R316): every arrival on the holding's dies is cleared and the round
count is one more; the excused bits, the other barriers and memory keep their values, and the waits for the barrier are met (15 R320). -/
def releasedTo (p q : State) (h : HoldRef) (k : BitVec 4) : Prop :=
  (∀ j : Fin 16, (q.hold h).barG[j] = (p.hold h).barG[j] + if j.val = k.toNat then 1 else 0) ∧
  (∀ d ∈ p.diesOf h, ∀ i, (q.core ⟨d, i⟩).excused = (p.core ⟨d, i⟩).excused ∧
    ∀ j < 16, (q.core ⟨d, i⟩).arrived.getLsbD j = if j = k.toNat then false else (p.core ⟨d, i⟩).arrived.getLsbD j) ∧
  (∀ d ∈ p.diesOf h, ∀ (i : CoreIdx) (j : SlotId) (t : Task), p.task ⟨⟨d, i⟩, j⟩ = some t → t.on = some (.barrier k) →
    q.task ⟨⟨d, i⟩, j⟩ = some { t with met := true }) ∧ q.mem = p.mem

/-- A core of the rectangle that a `bar.mask` descriptor names (15 R328). -/
def inRect (s : State) (h : HoldRef) (v : Word) (c : CoreRef) : Prop :=
  ∃ x y, c = s.coreAt h x y ∧ v.toNat % 2 ^ 16 ≤ x ∧ x ≤ v.toNat % 2 ^ 16 + v.toNat / 2 ^ 32 % 2 ^ 10 ∧
    v.toNat / 2 ^ 16 % 2 ^ 16 ≤ y ∧ y ≤ v.toNat / 2 ^ 16 % 2 ^ 16 + v.toNat / 2 ^ 42 % 2 ^ 5

/-- State `m` is `p` after the event of a `bar.mask` and before any release (15 R328): each core of the rectangle that is not retired
has the excused bit of barrier `k` as the descriptor says and its other excused bits as before; where it is excused its arrival is
clear and the waits of its slots for the barrier are met (15 R320); every other core, the round counts and memory are unchanged. -/
def masked (s p m : State) (h : HoldRef) (k : BitVec 4) (v : Word) : Prop :=
  (m.hold h).barG = (p.hold h).barG ∧ m.mem = p.mem ∧ ∀ x : CoreRef,
    (¬(inRect s h v x ∧ s.retired x = false) → m.core x = p.core x) ∧
    (inRect s h v x → s.retired x = false →
      (∀ j < 16, (m.core x).excused.getLsbD j = (if j = k.toNat then v.getLsbD 48 else (p.core x).excused.getLsbD j) ∧
        (m.core x).arrived.getLsbD j = ((p.core x).arrived.getLsbD j && !(v.getLsbD 48 && decide (j = k.toNat)))) ∧
      (v.getLsbD 48 = true → ∀ (i : SlotId) (t : Task), p.task ⟨x, i⟩ = some t → t.on = some (.barrier k) →
        m.task ⟨x, i⟩ = some { t with met := true }))

end Sys2Proof.Claims

/-- 14 R311 to R313, 16 R347: `rdtime`, `rdtime.loc`, `rdband`, `rdpos` and `hl.stat` complete with the values of their rules. The
band of entry 4 is the part's own (log 17): the statement says only that it names a path; that of entry 5 is 0, since a load through
the cluster window takes 12 cycles (07 R155). That `hl.stat` computes the time to the next headland from panel time is the model's
reading (log 43). -/
def Sys2Proof.Claims.TimeReads : Prop :=
  ∀ (d a : Reg) (h : BitVec 1) (s : State) (t : Task) (A : Word) (c : Core),
    let p := popped s c t
    let r := s.cur
    let die := r.core.die
    let g := if r.core.idx.val < 240 then (s.die die).north else (s.die die).south
    let hold := s.hold (s.taskHold r t)
    let est := s.estate (s.taskHold r t).est
    let e := estOf s.mode die.val
    let dir : Fin 4 → Dir := fun i => #v[Dir.north, .east, .south, .west][i]
    (Ready s [] d t [] c →
      exec (.rdtime d h) s = .next (p.writeReg r d (g.count + g.toff)) ∧
      exec (.rdtimeLoc d h) s = .next (p.writeReg r d g.count) ∧
      exec (.rdpos d h) s = .next (p.writeReg r d (word (die.val + 2 ^ 8 * (2 * (die.val % 4) + die.val / 4 % 2) + 2 ^ 11 * (die.val / 4) +
        2 ^ 16 * (posOf s.mode die % 32) + 2 ^ 24 * courseLen s.mode e + 2 ^ 30 * (r.core.idx.val / 240) +
        2 ^ 31 * (lean die).toNat + 2 ^ 32 * e.val + 2 ^ 34 * t.home.isSome.toNat +
        2 ^ 36 * (5 * (r.core.idx.val / 40) + r.core.idx.val % 20 / 4) + 2 ^ 48 * (hold.hlcount.toNat % 2 ^ 16)))) ∧
      exec (.hlStat d h) s = .next (p.writeReg r d (word (min (est.due - s.panelNs) (2 ^ 32 - 1) + 2 ^ 32 * (hold.hlcount.toNat % 2 ^ 16) +
        2 ^ 48 * (s.draining (s.taskHold r t)).toNat + 2 ^ 49 * (est.deferred.contains (s.taskHold r t).ix).toNat +
        2 ^ 50 * (est.deferEn.getLsbD (s.taskHold r t).ix.val).toNat + 2 ^ 51 * (lean (dieAt s.mode e (posOf s.mode die + 1))).toNat)))) ∧
    (Ready s [a] d t [A] c → ∃ v, exec (.rdband d a h) s = .next (p.writeReg r d v) ∧
      (∀ i : Fin 4, A.toNat % 8 = i.val → v =
        match s.neighbour r.core (dir i) with
        | none => 7
        | some n => if n.die ≠ die then 0x12 else if (n.idx.val < 240 ∧ r.core.idx.val < 240) ∨ (240 ≤ n.idx.val ∧ 240 ≤ r.core.idx.val) then 0 else 9) ∧
      (A.toNat % 8 = 4 → v.toNat < 2 ^ 5 ∧ v.getLsbD 2 = false) ∧ (A.toNat % 8 = 5 → v = 0) ∧
      (6 ≤ A.toNat % 8 → v = 7))

/-- 16 R348: `hl.defer` has no effect on a migration target, without the holding's defer.en bit, or in the drain; otherwise it
marks the task and the holding. -/
def Sys2Proof.Claims.HeadlandDeferral : Prop :=
  ∀ (h : BitVec 1) (s : State) (t : Task) (c : Core), Ready s [] 0 t [] c →
    let p := popped s c t
    let hold := s.taskHold s.cur t
    let no := t.home.isSome = true ∨ (s.estate hold.est).deferEn.getLsbD hold.ix.val = false ∨ s.draining hold = true
    (no → exec (.hlDefer h) s = completes s p) ∧
    (¬no → ∃ q, exec (.hlDefer h) s = completes s q ∧ hold.ix ∈ (q.estate hold.est).deferred ∧ (q.estate hold.est).asked = true ∧
      q.task s.cur = some { t with pc := t.pc + 4, waiting := false, on := none, met := false, parts := [], deferring := true } ∧
      q.mem = s.mem)

/-- 15 R316 to R319, R327: the two checks of `bar.arrive`, which raise 0x4A; otherwise it performs the slot's stores; an arrival of a core
that has arrived has no further effect; another sets the core's arrival, and releases the barrier at once where every member has
arrived. That the stores are performed as the instruction retires, and so also where the core has already arrived, is the model's
choice (log 93): by R319 and R327 that arrival returns with no effect. -/
def Sys2Proof.Claims.BarrierArrivals : Prop :=
  ∀ (h : BitVec 1) (k : BitVec 4) (s : State) (t : Task) (c : Core), Ready s [] 0 t [] c →
    let p := flushed s c t
    let hold := p.taskHold s.cur t
    let allowed := t.cw.toNat / 2 ^ 30 % 4 = 2 ∧ t.home = none
    let arrived := p.setCore s.cur.core { p.core s.cur.core with arrived := c.arrived ||| BitVec.ofNat 16 (2 ^ k.toNat) }
    let all := arrived.members16 hold k ≠ [] ∧ ∀ m ∈ arrived.members16 hold k, (arrived.core m.2).arrived.getLsbD k.toNat = true
    (¬allowed ∨ c.excused.getLsbD k.toNat = true → exec (.barArrive h k) s = traps s t 0x4A (encRR 0x35 0 0 0 h k 0x08)) ∧
    (allowed → c.excused.getLsbD k.toNat = false →
      (c.arrived.getLsbD k.toNat = true → exec (.barArrive h k) s = completes s p) ∧
      (c.arrived.getLsbD k.toNat = false → ¬all → exec (.barArrive h k) s = completes s arrived) ∧
      (c.arrived.getLsbD k.toNat = false → all → ∃ q, exec (.barArrive h k) s = completes s q ∧ releasedTo arrived q hold k))

/-- 15 R317, R318, R320, R323, R327 to R329: `bar.wait` waits while its core's arrival stands, and has stood since it began to wait; `bar.mask` sets the excused bit of the
cores of its rectangle that are not retired, of no other core and in no other barrier, and clears the arrivals of the cores that it excuses;
where every member that is left has arrived, that event completes the release, and the round count advances (15 R316); otherwise
no count and no other arrival changes. `bar.stat` reads. Each raises 0x4A where R318 or the rectangle refuses it. -/
def Sys2Proof.Claims.BarrierMembership : Prop :=
  ∀ (a d : Reg) (h : BitVec 1) (k : BitVec 4) (s : State) (t : Task) (V : Word) (c : Core),
    let p := popped s c t
    let hold := p.taskHold s.cur t
    let allowed := t.cw.toNat / 2 ^ 30 % 4 = 2 ∧ t.home = none
    let badRect := V.toNat / 2 ^ 49 ≠ 0 ∨ V.getLsbD 47 = true ∨
      20 * (p.hold hold).dies ≤ V.toNat % 2 ^ 16 + V.toNat / 2 ^ 32 % 2 ^ 10 ∨ 23 < V.toNat / 2 ^ 16 % 2 ^ 16 + V.toNat / 2 ^ 42 % 2 ^ 5
    (Ready s [] 0 t [] c → exec (.barWait h k) s =
      if ¬allowed then traps s t 0x4A (encRR 0x35 0 0 0 h k 0x09)
      else if c.arrived.getLsbD k.toNat = true ∧ ¬(t.met = true ∧ t.on = some (.barrier k)) then waitsOn s t (some (.barrier k))
      else completes s p) ∧
    (Ready s [a] 0 t [V] c →
      (¬allowed ∨ badRect → exec (.barMask a h k) s = traps s t 0x4A (encRR 0x35 0 a 0 h k 0x0A)) ∧
      (allowed → ¬badRect → ∃ m q, exec (.barMask a h k) s = completes s q ∧ masked s p m hold k V ∧
        let all := m.members16 hold k ≠ [] ∧ ∀ x ∈ m.members16 hold k, (m.core x.2).arrived.getLsbD k.toNat = true
        (all → releasedTo m q hold k) ∧ (¬all → q = m))) ∧
    (Ready s [] d t [] c →
      exec (.barStat d h k) s = if t.home.isSome then traps s t 0x4A (encRR 0x35 d 0 0 h k 0x0B)
        else .next (p.writeReg s.cur d (word (((s.hold hold).barG[k.toNat]'k.isLt).toNat + 2 ^ 16 * (c.arrived.getLsbD k.toNat).toNat +
          2 ^ 17 * (c.excused.getLsbD k.toNat).toNat + 2 ^ 18 * releaseBand (p.members16 hold k)))))
namespace Sys2Proof.Claims
open Sys2Proof.Machine

/-! ## Mailbox records (17 R351 to R356) -/

/-- A record at an address that passes the checks of R356. -/
def recordPlace (p : State) (a : Word) : Option Loc :=
  if a.toNat % 64 = 0 ∧ inPoolSpace a = true then
    match p.poolRange p.cur.core (poolOffset a) 64 with
    | some (k, o) => if p.lockedAt p.cur.core (.pool k.idx) o 64 then none else some (.pool k o 64)
    | none => none
  else none

/-- Record `i` of the own mailbox, where the index is below the partition word's count and no byte is locked. -/
def mailPlace (p : State) (i : Word) : Option Loc :=
  let part := (p.core p.cur.core).part
  let o := mboxBase part + 64 * i.toNat
  if i.toNat < 2 ^ 12 ∧ i.toNat < partMbox part ∧ p.lockedAt p.cur.core (.pool p.cur.core.idx) o 64 = false then some (.pool p.cur.core o 64)
  else none

/-- The pool-space address of record `i` of the own mailbox (R349). -/
def mailAt (part i : Word) : Word := word (2 ^ 64 - 2 ^ 21 + mboxBase part + 64 * i.toNat)

/-- The header of a record and its 14 FP32 positions. -/
def headerOf (bs : List Byte) : Nat := field bs 0 8
def fieldAt (bs : List Byte) (k : Nat) : W32 := BitVec.ofNat 32 (field bs (8 + 4 * k) 4)
/-- A record that is not ill-formed (R354), and its live flag and dimension (R352). -/
def wellFormed (bs : List Byte) : Prop := headerOf bs / 2 ^ 35 % 32 = 0
def isLive (bs : List Byte) : Prop := headerOf bs / 2 ^ 34 % 2 = 1
def dimOf (bs : List Byte) : Nat := headerOf bs / 2 ^ 32 % 4 + 1

/-- The positions of Fields(d), in its order (R353): η of the row, then Λ from the diagonal on. -/
def fieldsIn (d : Nat) : List Nat :=
  [0, 1, 2, 3].take d ++ ([[4, 5, 6, 7], [8, 9, 10], [11, 12], [13]].take d).zipIdx.flatMap fun (row, p) => row.take (d - p)

/-- The bytes `bs` are a record with this header, these values in Fields(d) and +0 elsewhere. -/
def isRecord (bs : List Byte) (header d : Nat) (v : Nat → W32) : Prop :=
  bs.length = 64 ∧ headerOf bs = header ∧ ∀ k < 14, fieldAt bs k = if k ∈ fieldsIn d then v k else 0

/-- Doubleword `q` of a record. -/
def eighth (q : Nat) : Loc → Loc
  | .pool c o _ => .pool c (o + 8 * q) 8
  | .mem ks p ea => .mem ((ks.drop (8 * q)).take 8) p (ea + 8 * q)

/-- A record that a task has written at a location (17 R356): eight stores at one place in program order, one of each doubleword, which
carry the poison of the data, last among the stores of its slot. `mate`: they stand at the place of the record written before. -/
def recorded (p : State) (t : Task) (l : Loc) (bs : List Byte) (bad : Bool) (mate : Bool := false) : State :=
  p.setSlot p.cur { p.slot p.cur with stores := (p.slot p.cur).stores ++ (List.range 8).map fun q =>
    { plainStore p t (eighth q l) ((bs.drop (8 * q)).take 8) with mate := mate || decide (q ≠ 0), whole := some bad } }

/-- Position of the element pq of Λ, p ≤ q, in a record (R351). -/
def lamAt (p q : Nat) : Nat := 4 + [0, 4, 7, 9].getD p 0 + (q - p)
/-- `a` less the products of `x` and `y` below `n`, one fused step for each, in order (04 R85). -/
def lessProducts (x y : Nat → W32) (n : Nat) (a : W32) : W32 := (List.range n).foldl (fun a t => fma32 (x t ^^^ 0x80000000) (y t) a) a
/-- A pivot is refused: a NaN, or not above the threshold, which a NaN threshold never refuses (04 R85). -/
def badPivot (eps d : W32) : Prop := isNan32 d = true ∨ (isNan32 eps = false ∧ (fval eps).lt (fval d) = false)
/-- The first `n` columns of LDLᵀ of the upper triangle `lee` of a block of dimension `de` (04 R85): pivots `dg`, unit lower triangle `l`, and
`w` before the division; no pivot is refused. -/
def factored (n de : Nat) (eps : W32) (lee w l : Nat → Nat → W32) (dg : Nat → W32) : Prop :=
  ∀ j < n, dg j = lessProducts (w j) (l j) j (lee j j) ∧ ¬badPivot eps (dg j) ∧
    ∀ i, j < i → i < de → w i j = lessProducts (w i) (l j) j (lee j i) ∧ l i j = div32 (w i j) (dg j)
/-- The substitutions of 04 R85: `y` of the coupling, `z` of the eliminated vector, and `u`, the columns of `y` over the pivots. -/
def substituted (de dk : Nat) (l lke : Nat → Nat → W32) (he dg z : Nat → W32) (y u : Nat → Nat → W32) : Prop :=
  ∀ i < de, z i = lessProducts (l i) z i (he i) ∧
    ∀ c < dk, y i c = lessProducts (l i) (fun t => y t c) i (lke c i) ∧ u i c = div32 (y i c) (dg i)

/-- The larger of a residual and a change (R365, R366). -/
def largest (res e : W32) : W32 := if isNan32 e || isNan32 res then nan32 else if (fval res).lt (fval e) then e else res

end Sys2Proof.Claims

/-- 10 R226, 17 R356: a turn that performs a doubleword of a record leaves its line poisoned as the record's data were (log 93). -/
def Sys2Proof.Claims.RecordPerformed : Prop :=
  ∀ (s : State) (r : SlotRef) (pre : List BufferedStore) (b : BufferedStore) (post : List BufferedStore) (bad : Bool) (c : CoreRef) (off : Nat),
    (s.slot r).stores = pre ++ b :: post → oldest pre b → b.am = none → b.whole = some bad → b.loc = .pool c off 8 →
    ∃ u, turn (.perform r pre.length) s = .next u ∧ u.poisoned b.loc = bad

/-- 17 R356, R358, R360, R361: `mb.post` copies the current message or the 64 bytes of a record, with their poison, unchanged to a record of the own
mailbox; `mb.take` copies a record of the mailbox to the open message or to 64 bytes; an index that the partition word does not
give raises 0x26, a record that is ill-formed or not there raises 0x25 or 0x48, and a poisoned one that goes to a message 0x52. What a record is
read from follows the slot's earlier stores to it. -/
def Sys2Proof.Claims.Mailboxes : Prop :=
  ∀ (a b : Reg) (h : BitVec 1) (s : State) (t : Task) (A B : Word) (c : Core), Ready s [a, b] 0 t [A, B] c →
    let p := popped s c t
    let after := fun (l : Loc) => p.flushFor s.cur [l]
    let post := encRR 0x34 0 a b h 0 0x00
    let take := encRR 0x34 0 a b h 0 0x01
    (2 ^ 12 ≤ B.toNat ∨ c.part.toNat / 2 ^ 16 % 2 ^ 12 ≤ B.toNat →
      exec (.mbPost a b h) s = traps s t 0x26 post ∧ exec (.mbTake a b h) s = traps s t 0x26 take) ∧
    ∀ box, mailPlace p B = some box →
      (A = 0 →
        ((∀ m, t.msg = some m → m.payload.length ≠ 8) → exec (.mbPost a b h) s = traps s t 0x25 post) ∧
        (∀ m, t.msg = some m → m.payload.length = 8 → exec (.mbPost a b h) s =
          if (m.payload.getD 0 0).toNat / 2 ^ 35 % 32 = 0 then completes s (recorded p t box (bytesOf m.payload) false)
          else traps s t 0x25 post) ∧
        ((∀ x ∈ t.buf, x.closed = true) → exec (.mbTake a b h) s = traps s t 0x48 take) ∧
        (∀ pre d post, t.buf = pre ++ d :: post → (∀ x ∈ pre ++ post, x.closed = true) → d.closed = false → d.payload.length = 8 →
          let u := after box
          exec (.mbTake a b h) s = if u.poisoned box = true then .next (s.takeTrap s.cur ⟨0x52, 0, mailAt c.part B⟩ t.pc (t.pc + 4) false)
            else if (headerOf (u.readLoc box)) / 2 ^ 35 % 32 ≠ 0 then traps s t 0x25 take (mailAt c.part B)
            else completes s (u.modTask s.cur fun t =>
              { t with buf := pre ++ { d with payload := (List.range 8).map fun i => word (field (u.readLoc box) (8 * i) 8) } :: post }))) ∧
      (∀ l, A ≠ 0 → recordPlace p A = some l →
        let u := after l
        let v := after box
        exec (.mbPost a b h) s = (if (headerOf (u.readLoc l)) / 2 ^ 35 % 32 = 0
          then completes s (recorded u t box (u.readLoc l) (u.poisoned l)) else traps s t 0x25 post A) ∧
        exec (.mbTake a b h) s = (if (headerOf (v.readLoc box)) / 2 ^ 35 % 32 = 0
          then completes s (recorded v t l (v.readLoc box) (v.poisoned box)) else traps s t 0x25 take (mailAt c.part B)))

/-- 17 R362, R363: after the slot's earlier stores to the two records, `gbp.acc` adds the fields of a live record into another and takes its stamp, and adds nothing of a record that is not
live; `gbp.sub` writes the difference over the second record, with the header of the first. Each completes where both records are
well-formed, the first is live and the dimensions of live records agree; an ill-formed first record and a different dimension
raise 0x25 at their addresses. -/
def Sys2Proof.Claims.GaussianSums : Prop :=
  ∀ (a b : Reg) (h : BitVec 1) (s : State) (t : Task) (A B : Word) (c : Core) (la lb : Loc), Ready s [a, b] 0 t [A, B] c →
    recordPlace (popped s c t) A = some la → recordPlace (popped s c t) B = some lb →
    let p := (popped s c t).flushFor s.cur [la, lb]
    p.poisoned la = false → p.poisoned lb = false →
    let x := p.readLoc la
    let y := p.readLoc lb
    (¬wellFormed x → exec (.gbpAcc a b h) s = traps s t 0x25 (encRR 0x34 0 a b h 0 0x08) A) ∧
    (wellFormed x → wellFormed y → isLive x →
      (¬isLive y → exec (.gbpAcc a b h) s = completes s p) ∧
      (isLive y → dimOf y ≠ dimOf x → exec (.gbpAcc a b h) s = traps s t 0x25 (encRR 0x34 0 a b h 0 0x08) B ∧
        exec (.gbpSub a b h) s = traps s t 0x25 (encRR 0x34 0 a b h 0 0x09) B) ∧
      (isLive y → dimOf y = dimOf x → ∃ z, exec (.gbpAcc a b h) s = completes s (recorded p t la z false) ∧
        isRecord z (headerOf x % 2 ^ 48 + headerOf y / 2 ^ 48 * 2 ^ 48) (dimOf x) fun k => add32 (fieldAt x k) (fieldAt y k)) ∧
      (¬isLive y ∨ dimOf y = dimOf x → ∃ z, exec (.gbpSub a b h) s = completes s (recorded p t lb z false) ∧
        isRecord z (headerOf x) (dimOf x) fun k => sub32 (fieldAt x k) (if headerOf y / 2 ^ 34 % 2 = 1 then fieldAt y k else 0)))

/-- 17 R364 to R366, 04 R85, 03 R57: after the slot's earlier stores to what they read, `gbp.elim` writes the kept block with the other eliminated, by the
equations of R85 in their order, or raises 0x24 with the index of the first singular pivot and nothing written; `gbp.damp` writes the blend of a new and an old record to both and returns the largest change, and `gbp.res` returns
the largest difference; a first message is copied undamped with the residual +∞. `gbp.elim` and `gbp.damp` raise 0x40 on a lean
die. A poisoned line of a factor block raises 0x52. -/
def Sys2Proof.Claims.GaussianUpdates : Prop :=
  ∀ (d a b : Reg) (h : BitVec 1) (s : State) (t : Task) (A B : Word) (c : Core),
    let q := popped s c t
    (s.task s.cur = some t → lean s.cur.core.die = true →
      exec (.gbpElim a b h) s = .next (s.takeTrap s.cur ⟨0x40, 2, 0⟩ t.pc (t.pc + 4) false) ∧
      exec (.gbpDamp d a b h) s = .next (s.takeTrap s.cur ⟨0x40, 2, 0⟩ t.pc (t.pc + 4) false)) ∧
    (∀ la lb, Ready s [a, b] d t [A, B] c → recordPlace q A = some la → recordPlace q B = some lb →
      let p := q.flushFor s.cur [la, lb]
      p.poisoned la = false → p.poisoned lb = false → wellFormed (p.readLoc la) → wellFormed (p.readLoc lb) → isLive (p.readLoc la) →
      let x := p.readLoc la
      let y := p.readLoc lb
      let ks := fieldsIn (dimOf x)
      (¬isLive y → exec (.gbpRes d a b h) s = .next (p.writeReg s.cur d 0x7F800000) ∧
        (lean s.cur.core.die = false → ∃ z, exec (.gbpDamp d a b h) s = .next ((recorded p t lb z false).writeReg s.cur d 0x7F800000) ∧
          z = x)) ∧
      (isLive y → dimOf y = dimOf x →
        exec (.gbpRes d a b h) s = .next (p.writeReg s.cur d
          ((ks.foldl (fun res k => largest res (abs32 (sub32 (fieldAt x k) (fieldAt y k)))) 0).setWidth 64)) ∧
        (lean s.cur.core.die = false → ∃ z, exec (.gbpDamp d a b h) s =
            .next ((recorded (recorded p t la z false) t lb z false true).writeReg s.cur d
              ((ks.foldl (fun res k => largest res (abs32 (sub32 (fieldAt z k) (fieldAt y k)))) 0).setWidth 64)) ∧
          isRecord z (headerOf x) (dimOf x) fun k => fma32 (dampFactor (headerOf x / 2 ^ 40 % 256)) (sub32 (fieldAt y k) (fieldAt x k)) (fieldAt x k)))) ∧
    (∀ l0 l1 l2 lo, Ready s [a, b] 0 t [A, B] c → lean s.cur.core.die = false → B.toNat / 2 % 32 = 0 → recordPlace q A = some l0 →
      recordPlace q (A + 64) = some l1 → recordPlace q (A + 128) = some l2 → recordPlace q (word (B.toNat / 64 * 64)) = some lo →
      let p := q.flushFor s.cur [l0, l1, l2]
      (∀ k < 3, (∀ j < k, p.poisoned ([l0, l1, l2].getD j l0) = false) → p.poisoned ([l0, l1, l2].getD k l0) = true →
        exec (.gbpElim a b h) s = .next (s.takeTrap s.cur ⟨0x52, 0, A + word (64 * k)⟩ t.pc (t.pc + 4) false)) ∧
      (p.poisoned l0 = false → p.poisoned l1 = false → p.poisoned l2 = false →
      let u := p.readLoc l0
      let w := p.readLoc l1
      wellFormed u → wellFormed w → isLive u → isLive w →
      let keepW := B.getLsbD 0
      let bk := if keepW then w else u
      let be := if keepW then u else w
      let dk := dimOf bk
      let de := dimOf be
      let eps : W32 := BitVec.ofNat 32 c.regs.gbpEps.toNat
      let lee := fun j i => fieldAt be (lamAt j i)
      let lke := fun c i => (BitVec.ofNat 32 (field (p.readLoc l2) (4 * (if keepW then 4 * i + c else 4 * c + i)) 4) : W32)
      ∀ (w l : Nat → Nat → W32) (dg : Nat → W32),
        (∀ j < de, factored j de eps lee w l dg → badPivot eps (lessProducts (w j) (l j) j (lee j j)) →
          exec (.gbpElim a b h) s = .next (s.takeTrap s.cur ⟨0x24, word j, A⟩ t.pc (t.pc + 4) false)) ∧
        (factored de de eps lee w l dg → ∀ (z : Nat → W32) (y u : Nat → Nat → W32), substituted de dk l lke (fieldAt be) dg z y u →
          ∃ (bs : List Byte) (v : Nat → W32), exec (.gbpElim a b h) s = completes s (recorded p t lo bs false) ∧
            isRecord bs (headerOf bk % 2 ^ 32 + 2 ^ 32 * (dk - 1) + 2 ^ 34 + 2 ^ 40 * (headerOf bk / 2 ^ 40 % 256) +
              2 ^ 48 * (headerOf be / 2 ^ 48 % 2 ^ 16)) dk v ∧
            ∀ i < dk, v i = lessProducts (fun t => u t i) z de (fieldAt bk i) ∧
              ∀ q, i ≤ q → q < dk → v (lamAt i q) = lessProducts (fun t => u t i) (fun t => y t q) de (fieldAt bk (lamAt i q)))))
namespace Sys2Proof.Claims
open Sys2Proof.Machine

/-! ## Serving (18 R376 to R391) -/

/-- The serving resources of a holding changed. -/
def withServing (p : State) (h : HoldRef) (v : Serving) : State := p.setHold h { p.hold h with serving := v }

/-- The handle in a register names an ACTIVE slot of its generation (18 R376). -/
def handled (v : Serving) (a : Word) : Prop :=
  (v.seq (a.toNat % 2 ^ 12)).active = true ∧ (v.seq (a.toNat % 2 ^ 12)).gen.toNat = a.toNat / 2 ^ 16 % 2 ^ 16

/-- The resources after slot `i` retired with a status and an index: it is FREE, and its fields are in the walker (18 R379). -/
def retiredSeq (v : Serving) (i : Nat) (x : SeqSlot) (status index : Nat) (time : Word) (tag : Option Nat) : Serving :=
  { v.setSeq i { gen := x.gen } with walker := v.walker ++ [⟨i, x.id, x.tokens, BitVec.ofNat 8 status, BitVec.ofNat 8 index, x.pages,
      x.pages.length, time, tag⟩] }

/-- The index after `i` in a ring. -/
def ringNext (x : Ring) (i : BitVec 16) : BitVec 16 := BitVec.ofNat 16 ((i.toNat + 1) % 2 ^ x.lsize.toNat)

/-- The completion ring takes no completion now (18 R375): it is disabled or full, or a write failed and waits for SV.CQ.HEAD. -/
def ringShut (v : Serving) : Prop := v.cq.en = false ∨ ringNext v.cq v.cq.tail = v.cq.head ∨ v.cqStuck = true
/-- The 32 bytes of a completion (18 R374). -/
def cqBytes (c : Completion) (phase : Bool) : List Byte :=
  bytesOf [word ((if phase then 2 ^ 63 else 0) + c.number.toNat * 2 ^ 16 + c.status.toNat * 2 ^ 8 + c.kind.toNat), c.dw1, c.dw2, c.time]
/-- The tail advances past a completion that was written, the phase flips where it returns to 0, and vector 0 is signalled (18 R374). -/
def cqAdvanced (m : State) (h : HoldRef) : State :=
  let v := (m.hold h).serving
  let tail := ringNext v.cq v.cq.tail
  (withServing m h { v with cq := { v.cq with tail := tail }, cqPhase := if tail = 0 then !v.cqPhase else v.cqPhase }).signal
    ⟨(m.hold h).vf.toNat % 64, Nat.mod_lt _ (by decide)⟩ 0
/-- State `q` is `p` after the waiting completions of a holding are written, oldest first, as far as the ring takes them; a write that
finds no translation sets fault and stops the rest (18 R375). -/
def drains (h : HoldRef) : List Completion → State → State → Prop
  | [], p, q => q = withServing p h { (p.hold h).serving with waitingCq := [] }
  | c :: cs, p, q =>
    let v := (p.hold h).serving
    let write := p.sysWrite h.est v.cq.pasid (v.cq.base.toNat + 32 * v.cq.tail.toNat) (cqBytes c v.cqPhase)
    (ringShut v → q = withServing p h { v with waitingCq := c :: cs }) ∧
    (¬ringShut v → write = none →
      q = withServing p h { v with cqStuck := true, cq := { v.cq with fault := true }, waitingCq := c :: cs }) ∧
    (¬ringShut v → ∀ m, write = some m → drains h cs (cqAdvanced m h) q)
/-- State `q` is `p` after a launch or request-refused completion: it waits behind those that wait already, and is written when its turn
comes (18 R375). -/
def completed (p q : State) (h : HoldRef) (c : Completion) : Prop :=
  let v := (p.hold h).serving
  drains h (v.waitingCq ++ [c]) (withServing p h { v with waitingCq := v.waitingCq ++ [c] }) q

/-- A request entry that 18 R377 calls ill-formed. -/
def requestRefused (bs : List Byte) : Prop :=
  field bs 33 1 ≠ 0 ∨ field bs 44 20 ≠ 0 ∨ 6 < field bs 32 1 ∨ field bs 34 2 = 0 ∨ 512 < field bs 34 2

end Sys2Proof.Claims

/-- 18 R386, R387: `sq.take` completes with a doubleword of the shape of the task's launch, and raises 0x58 without one.
`sq.admit` moves the oldest waiting request into the slot it names or into the lowest FREE one, and answers 0x1000, 0x2000 or
0x4000 where there is no request, no slot, or no translation of the entry; an ill-formed request is refused with 0x3000 and a
completion of kind 3, and HEAD moves past it, or, while the list of waiting completions is full, stays at HEAD and is answered
with 0x2000. -/
def Obligations.SequenceAdmission : Prop :=
  ∀ (d a : Reg) (h : BitVec 1) (s : State) (t : Task) (A : Word) (c : Core), Ready s [a] d t [A] c →
    let p := popped s c t
    let hold := p.taskHold s.cur t
    let v := (p.hold hold).serving
    let answers := fun (q : State) (x : Word) => exec (.sqAdmit d a h) s = .next (q.writeReg s.cur d x)
    let bad := A.toNat / 2 ^ 13 % 8 ≠ 0 ∨ (A.getLsbD 12 = true ∧ A.toNat % 2 ^ 12 ≠ 0)
    let waiting := v.rq.en = true ∧ v.rq.head ≠ v.rq.tail
    let entry := v.rq.base.toNat + 64 * v.rq.head.toNat
    let slotFor := fun (i : Nat) => i < 4096 ∧ (v.seq i).active = false ∧
      if A.getLsbD 12 then ∀ j < i, (v.seq j).active = true else i = A.toNat % 2 ^ 12
    (∀ l, p.launchOf hold t.tag = some l → A.toNat < 4 →
      exec (.sqTake d a h) s = .next (p.writeReg s.cur d l.shape[(⟨A.toNat % 4, Nat.mod_lt _ (by decide)⟩ : Fin 4)])) ∧
    (p.launchOf hold t.tag = none ∨ 4 ≤ A.toNat → exec (.sqTake d a h) s = traps s t 0x58 (encRR 0x37 d a 0 h 0 0x00)) ∧
    (bad → exec (.sqAdmit d a h) s = traps s t 0x58 (encRR 0x37 d a 0 h 0 0x01)) ∧
    (¬bad → ¬waiting → answers p 0x1000) ∧
    (¬bad → waiting → (∀ i, ¬slotFor i) → answers p 0x2000) ∧
    (∀ i, ¬bad → waiting → slotFor i →
      (p.sysRead hold.est v.rq.pasid entry 64 = none → answers (withServing p hold { v with rq := { v.rq with fault := true } }) 0x4000) ∧
      (∀ bs, p.sysRead hold.est v.rq.pasid entry 64 = some bs → ¬requestRefused bs →
        let gen := (v.seq i).gen + 1
        answers (withServing p hold ({ v with rq := { v.rq with head := BitVec.ofNat 16 ((v.rq.head.toNat + 1) % 2 ^ v.rq.lsize.toNat) } }.setSeq i
          { active := true, gen := gen, id := word (field bs 0 8)
            stops := (List.range (field bs 32 1)).map fun j => BitVec.ofNat 32 (field bs (8 + 4 * j) 4)
            tlimit := BitVec.ofNat 32 (field bs 36 4), tokens := 0, plimit := field bs 34 2, pages := [] }))
          (word (i + 2 ^ 16 * gen.toNat + 2 ^ 32 * field bs 40 4))) ∧
      (∀ bs, p.sysRead hold.est v.rq.pasid entry 64 = some bs → requestRefused bs →
        (64 ≤ v.waitingCq.length → answers p 0x2000) ∧
        (v.waitingCq.length < 64 → ∃ q, answers q 0x3000 ∧
          completed (withServing p hold { v with rq := { v.rq with head := ringNext v.rq v.rq.head } }) q hold
            ⟨3, 0, v.rq.head, word (field bs 0 8), 0, s.time⟩)))

/-- 18 R379, R388, R389: `stop.test` counts a token of a current sequence and retires it at a stop token or at its limit;
`sq.retire` retires a current sequence; both wait, before any effect, where a retirement finds the walker full. A handle that is not
current is answered with 3, or ignored. The index in the completion of a sequence at its limit is a free value (log 141). A retirement performs the slot's earlier stores first (18 R382). -/
def Sys2Proof.Claims.SequenceEnds : Prop :=
  ∀ (d a b : Reg) (h : BitVec 1) (s : State) (t : Task) (A B : Word) (c : Core),
    let p := popped s c t
    let hold := p.taskHold s.cur t
    let v := (p.hold hold).serving
    let i := A.toNat % 2 ^ 12
    let x := { v.seq i with tokens := (v.seq i).tokens + 1 }
    let answers := fun (q : State) (w : Serving) (n : Nat) =>
      exec (.stopTest d a b h) s = .next ((withServing q hold w).writeReg s.cur d (word (x.tokens.toNat * 2 ^ 32 + n)))
    let q := flushed s c t
    (Ready s [a, b] d t [A, B] c →
      (A.toNat / 2 ^ 12 % 16 ≠ 0 ∨ B.toNat / 2 ^ 32 ≠ 0 → exec (.stopTest d a b h) s = traps s t 0x58 (encRR 0x37 d a b h 0 0x0A)) ∧
      (A.toNat / 2 ^ 12 % 16 = 0 → B.toNat < 2 ^ 32 →
        (¬handled v A → exec (.stopTest d a b h) s = .next (p.writeReg s.cur d 3)) ∧
        (handled v A → BitVec.ofNat 32 B.toNat ∉ x.stops → x.tlimit = 0 ∨ x.tokens.toNat < x.tlimit.toNat → answers p (v.setSeq i x) 0) ∧
        (handled v A → BitVec.ofNat 32 B.toNat ∉ x.stops → x.tlimit ≠ 0 → x.tlimit.toNat ≤ x.tokens.toNat →
          if 64 ≤ v.walker.length then exec (.stopTest d a b h) s = waits s t else answers q (retiredSeq v i x 1 (Config.limitIndex x.tokens).toNat s.time t.tag) 2) ∧
        (∀ j, handled v A → x.stops.length ≤ 6 → x.stops[j]? = some (BitVec.ofNat 32 B.toNat) →
          (∀ k < j, x.stops[k]? ≠ some (BitVec.ofNat 32 B.toNat)) →
          if 64 ≤ v.walker.length then exec (.stopTest d a b h) s = waits s t
          else answers q (retiredSeq v i x 0 j s.time t.tag) (j * 2 ^ 8 + 1)))) ∧
    (Ready s [a] 0 t [A] c →
      (A.toNat / 2 ^ 40 ≠ 0 ∨ A.toNat / 2 ^ 12 % 16 ≠ 0 → exec (.sqRetire a h) s = traps s t 0x58 (encRR 0x37 0 a 0 h 0 0x02)) ∧
      (A.toNat < 2 ^ 40 → A.toNat / 2 ^ 12 % 16 = 0 →
        (¬handled v A → exec (.sqRetire a h) s = completes s p) ∧
        (handled v A → exec (.sqRetire a h) s = if 64 ≤ v.walker.length then waits s t
          else completes s (withServing q hold (retiredSeq v i (v.seq i) 2 (A.toNat / 2 ^ 32) s.time t.tag)))))

/-- 18 R390, R391: `kv.get` moves the top page of the free list to the sequence and answers its address, or answers 3, 2 or 1
where the handle is not current, the page limit is reached, or the list is empty; `kv.put` moves a page back that stands on the
sequence's list, after the slot's earlier stores, and has no effect otherwise. -/
def Sys2Proof.Claims.KeyValuePages : Prop :=
  ∀ (d a b : Reg) (h : BitVec 1) (s : State) (t : Task) (A B : Word) (c : Core),
    let p := popped s c t
    let hold := p.taskHold s.cur t
    let v := (p.hold hold).serving
    let i := A.toNat % 2 ^ 12
    let x := v.seq i
    let n := (B.toNat - v.kvBaseTaken.toNat) / 2 ^ 16
    let isPage := B.toNat % 2 ^ 16 = 0 ∧ v.kvBaseTaken.toNat ≤ B.toNat ∧ n < v.kvCount.toNat
    (Ready s [a] d t [A] c →
      (A.toNat / 2 ^ 12 % 16 ≠ 0 → exec (.kvGet d a h) s = traps s t 0x58 (encRR 0x37 d a 0 h 0 0x08)) ∧
      (A.toNat / 2 ^ 12 % 16 = 0 →
        (¬handled v A → exec (.kvGet d a h) s = .next (p.writeReg s.cur d 3)) ∧
        (handled v A → x.plimit ≤ x.pages.length → exec (.kvGet d a h) s = .next (p.writeReg s.cur d 2)) ∧
        (handled v A → x.pages.length < x.plimit → v.kvFree = [] → exec (.kvGet d a h) s = .next (p.writeReg s.cur d 1)) ∧
        (∀ g gs, handled v A → x.pages.length < x.plimit → v.kvFree = g :: gs →
          exec (.kvGet d a h) s = .next ((withServing p hold { v.setSeq i { x with pages := x.pages ++ [g] } with kvFree := gs }).writeReg s.cur d
            (v.kvBaseTaken + word (65536 * g)))))) ∧
    (Ready s [a, b] 0 t [A, B] c →
      (A.toNat / 2 ^ 12 % 16 ≠ 0 ∨ ¬isPage → exec (.kvPut a b h) s = traps s t 0x58 (encRR 0x37 0 a b h 0 0x09)) ∧
      (A.toNat / 2 ^ 12 % 16 = 0 → isPage →
        (¬handled v A ∨ n ∉ x.pages → exec (.kvPut a b h) s = completes s p) ∧
        (handled v A → n ∈ x.pages → exec (.kvPut a b h) s =
          completes s (withServing (flushed s c t) hold { v.setSeq i { x with pages := x.pages.erase n } with kvFree := n :: v.kvFree }))))
namespace Sys2Proof.Claims
open Sys2Proof.Machine

/-! ## The plough (09 R191 to R218) -/

/-- The plough operations whose operands are descriptors or numbers: kind, block form, `z`, `out`, source fields. -/
def ploughForm : Instr → Option (PlKind × Bool × BitVec 1 × BitVec 2 × List Reg)
  | .plMmt a b z => some (.mmt, false, z, 0, [a, b])
  | .plMmtBlk a b z => some (.mmt, true, z, 0, [a, b])
  | .plTile a b z => some (.tile, false, z, 0, [a, b])
  | .plTileBlk a b z => some (.tile, true, z, 0, [a, b])
  | .plZacc a b => some (.zacc, false, 0, 0, [a, b])
  | .plLdacc a => some (.ldacc, false, 0, 0, [a])
  | .plStacc a out => some (.stacc, false, 0, out, [a])
  | _ => none

/-- The fields of the geometry registers (R197). -/
def geoM (g : CoreRegs) : Nat := g.geo0.toNat % 2 ^ 16
def geoN (g : CoreRegs) : Nat := g.geo0.toNat / 2 ^ 16 % 2 ^ 16
def geoK (g : CoreRegs) : Nat := g.geo0.toNat / 2 ^ 32 % 2 ^ 24
def geoUnit (g : CoreRegs) : Nat := g.geo1.toNat % 2 ^ 6
/-- The tiles of an M × N result (R202). -/
def tileCount (g : CoreRegs) : Nat := (geoM g + 31) / 32 * ((geoN g + 31) / 32)
/-- The 16 × 16 tile of `pl.tile` (R216). -/
def tileRow (g : CoreRegs) (xy : Coord) : Int := (xy.hy : Int) - (g.geo2.toNat / 2 ^ 48 : Nat)
def tileCol (g : CoreRegs) (xy : Coord) : Int := (xy.hx : Int) - (g.geo2.toNat / 2 ^ 32 % 2 ^ 16 : Nat)
/-- It lies in the result, at least in part (R216). -/
def holdsTile (g : CoreRegs) (xy : Coord) : Bool :=
  decide (0 ≤ tileRow g xy ∧ 16 * tileRow g xy < (g.geo2.toNat % 2 ^ 16 : Nat) ∧
    0 ≤ tileCol g xy ∧ 16 * tileCol g xy < (g.geo2.toNat / 2 ^ 16 % 2 ^ 16 : Nat))

/-- What an operation captures at issue (R192, R215 to R217), of a task at `xy`, from its operand values. -/
def captured (g : CoreRegs) (xy : Coord) (kind : PlKind) (blk : Bool) (z : BitVec 1) (out : BitVec 2) (A B : Word) : PlOp :=
  match kind with
  | .zacc => { kind := .zacc, unit := A.toNat, tiles := B.toNat }
  | .tile =>
    { kind := .tile, blk := blk, z := z = 1, k := geoK g, unit := geoUnit g, a := .desc A, b := .desc B, mtot := g.geo2.toNat % 2 ^ 16
      ntot := g.geo2.toNat / 2 ^ 16 % 2 ^ 16, ti := tileRow g xy, tj := tileCol g xy
      tiles := if holdsTile g xy then 1 else 0 }
  | .ldacc => { kind := .ldacc, out := out, m := geoM g, n := geoN g, k := geoK g, unit := geoUnit g, a := .desc A, tiles := tileCount g }
  | .stacc => { kind := .stacc, out := out, m := geoM g, n := geoN g, k := geoK g, unit := geoUnit g, a := .desc A, tiles := tileCount g }
  | k => { kind := k, blk := blk, z := z = 1, m := geoM g, n := geoN g, k := geoK g, unit := geoUnit g, a := .desc A, b := .desc B
           tiles := tileCount g }

/-- The rows of A and of B that an operation checks and reads, and the bytes of a row (R198, R215, R216). -/
def rowsFor (g : CoreRegs) (xy : Coord) (kind : PlKind) (r : Nat) (isA : Bool) : Prop :=
  match kind, isA with
  | .tile, true => 16 * tileRow g xy ≤ r ∧ (r : Int) < 16 * tileRow g xy + 16 ∧ r < g.geo2.toNat % 2 ^ 16
  | .tile, false => 16 * tileCol g xy ≤ r ∧ (r : Int) < 16 * tileCol g xy + 16 ∧ r < g.geo2.toNat / 2 ^ 16 % 2 ^ 16
  | _, true => r < geoM g
  | _, false => r < geoN g

/-- The bytes of a row under a format record (R198, R215). -/
def rowLen (blk : Bool) (fmt : Word) (k : Nat) : Nat := rowBytes (issueCode blk (fmt.toNat % 2 ^ 5)) k

/-- A descriptor that is accepted for rows of `len` bytes (R199). -/
def descFits (p : State) (d : Word) (rows : Nat → Prop) (len : Nat) : Prop :=
  d.toNat / 2 ^ 61 = 0 ∧ d.toNat / 2 ^ 21 % 8 = 0 ∧ ∀ r, rows r → p.rowOk p.cur.core (rowAddr d r) len = true

/-- A descriptor is refused (R199): for a reserved bit, or for its first misplaced row, at `a`. -/
def descBad (p : State) (d : Word) (rows : Nat → Prop) (len : Nat) (a : Word) : Prop :=
  if d.toNat / 2 ^ 61 ≠ 0 ∨ d.toNat / 2 ^ 21 % 8 ≠ 0 then a = 0
  else ∃ r, rows r ∧ p.rowOk p.cur.core (rowAddr d r) len = false ∧ (∀ q < r, rows q → p.rowOk p.cur.core (rowAddr d q) len = true) ∧
    a = word (2 ^ 64 - 2 ^ 21 + rowAddr d r)

/-- A register group is refused (R200). -/
def groupBad (v : Reg) (len : Nat) : Prop := 8 < (len + 31) / 32 ∨ 31 < v.toNat + (len + 31) / 32 - 1

/-- The captured geometry is refused with 0x31 (R202, R215 to R217). -/
def geoRefused (g : CoreRegs) (units : Nat) (kind : PlKind) (A B : Word) : Prop :=
  match kind with
  | .zacc => units < A.toNat + B.toNat
  | .tile => geoK g = 0 ∨ units ≤ geoUnit g
  | .ldacc => geoM g = 0 ∨ geoN g = 0 ∨ units < geoUnit g + tileCount g
  | .stacc => geoM g = 0 ∨ geoN g = 0 ∨ units < geoUnit g + tileCount g
  | _ => geoM g = 0 ∨ geoN g = 0 ∨ geoK g = 0 ∨ units < geoUnit g + tileCount g

/-- The descriptor operands of a form, in the order of their checks, each with the rows that it must place and their length (R199, R215 to
R217): none for `pl.zacc`, and no rows for `pl.tile` where its tile lies outside the result. -/
def descOperands (g : CoreRegs) (xy : Coord) (kind : PlKind) (blk : Bool) (out : BitVec 2) (A B : Word) : List (Word × (Nat → Prop) × Nat) :=
  let used := fun r isA => (kind = .tile → holdsTile g xy = true) ∧ rowsFor g xy kind r isA
  match kind with
  | .zacc => []
  | .ldacc => [(A, (· < geoM g), 4 * geoN g)]
  | .stacc => [(A, (· < geoM g), (if out = 0 then 4 else 2) * geoN g)]
  | _ => [(A, (used · true), rowLen blk g.fmtA (geoK g)), (B, (used · false), rowLen blk g.fmtB (geoK g))]

/-- The operands are accepted. -/
def operandsFit (p : State) (xs : List (Word × (Nat → Prop) × Nat)) : Prop := ∀ x ∈ xs, descFits p x.1 x.2.1 x.2.2

/-- The first of the operands that is refused is so at `a`. -/
def operandsBad (p : State) (xs : List (Word × (Nat → Prop) × Nat)) (a : Word) : Prop :=
  ∃ pre x post, xs = pre ++ x :: post ∧ operandsFit p pre ∧ descBad p x.1 x.2.1 x.2.2 a

/-- What the issue of a checked operation does (R191, R208, 10 R231): it takes a queue place with its range-lock entries, or
waits for room, or is refused with 0x32 where it would need more than 16 entries. The stores of the core's slots to its locked bytes
are performed first (11 R251). That 0x32 carries no tile and no address there is the model's reading (log 74). -/
def issues (s p : State) (c : Core) (t : Task) (o : PlOp) (x : Host.Outcome State Fault Refusal) : Prop :=
  let locks := o.needs s.cur.core c.regs
  (16 < locks.length → x = .next (s.takeTrap s.cur ⟨0x32, 0, 0⟩ t.pc (t.pc + 4) false)) ∧
  (locks.length ≤ 16 → 2 ≤ c.plq.length → x = waitsOn s t (some .plough)) ∧
  (locks.length ≤ 16 → c.plq.length < 2 → 16 < c.locks.length + locks.length → x = waits s t) ∧
  (c.plq.length < 2 → c.locks.length + locks.length ≤ 16 → (∀ y ∈ c.plq, y.tiles ≠ 0) →
    let u := p.flushLocks s.cur.core locks
    x = completes s { u.setCore s.cur.core { u.core s.cur.core with
        plq := c.plq ++ [{ o with origin := t.origin s.cur.slot s.nextId, locks := locks }] } with nextId := s.nextId + 1 })

/-- What the issue of a checked operation without a tile does, at the head of a queue that may start (R192, R193, R216, R217): it starts and
completes at once with no effect but its slot's event bit, or fails its start for a record that `bad` names, with its code and which of
the two it is (04 R76). -/
def settles (s : State) (t : Task) (bad : Option (BitVec 8 × Word)) (x : Host.Outcome State Fault Refusal) : Prop :=
  ∃ u k, x = .next u ∧ u.task s.cur = some k ∧ k.pc = t.pc + 4 ∧ k.g = t.g ∧ (u.core s.cur.core).plq = [] ∧ (u.slot s.cur).event = true ∧
    u.mem = s.mem ∧ (u.core s.cur.core).pool = (s.core s.cur.core).pool ∧
    k.async.map (fun f => (f.cause, f.info)) = t.async.map (fun f => (f.cause, f.info)) ++ bad.toList

/-- The core with index `q` of a cluster. -/
def coreIn (die : DieId) (cl : Fin 60) (q : Fin 8) : CoreRef := ⟨die, clusterCore cl q.val⟩

/-- The choice of the next tile's core (R195): the present core while it has a credit and a tile, otherwise the first core with a
tile of the seven after it and itself, whose weight refreshes the credit. -/
def chosen (s : State) (die : DieId) (cl : Fin 60) (q : Fin 8) (cr : Nat) : Prop :=
  let x := s.cluster die cl
  let has := fun (q : Fin 8) => (s.ready (coreIn die cl q)).isSome
  if 0 < x.cr ∧ has x.p then q = x.p ∧ cr = x.cr - 1
  else ∃ i < 8, q.val = (x.p.val + 1 + i) % 8 ∧ has q ∧ (∀ j < i, ∀ q' : Fin 8, q'.val = (x.p.val + 1 + j) % 8 → has q' = false) ∧
    cr = (s.core (coreIn die cl q)).regs.plWt.toNat % 16 - 1

/-! ### Operand elements and sums (04 R71, R72, R81, R82) -/

/-- A value times the E8M0 scale of code `e` (R71). -/
def scaledBy (e : Nat) (x : FVal) : FVal :=
  match x with
  | .fin n m f => if e = 255 then .nan else .fin n m (f + ((e : Int) - 127))
  | y => if e = 255 then .nan else y
/-- A signed mantissa `k` of `w` bits times 2^e. -/
def mantissa (w k : Nat) (e : Int) : FVal := let v := (BitVec.ofNat w k).toInt; .fin (decide (v < 0)) v.natAbs e
/-- Element `k` of an operand row: its bytes are `bs` and the scales of its blocks `scales`; none where its Tilfopen block has the
reserved exponent 0xFF (R68, R71 to R73, R81, 09 R198). -/
def plElem (code : Nat) (bs scales : List Byte) (k : Nat) : Option FVal :=
  let scale := field scales (k / 32) 1
  match code with
  | 0 => some (Fmt.fp32.flush (field bs (4 * k) 4))
  | 1 => some (Fmt.bf16.flush (field bs (2 * k) 2))
  | 2 => some (Fmt.fp16.flush (field bs (2 * k) 2))
  | 3 => some (Fmt.e4m3.flush (field bs k 1))
  | 4 => some (Fmt.e5m2.flush (field bs k 1))
  | 5 => some (scaledBy scale (Fmt.e4m3.flush (field bs k 1)))
  | 6 => some (scaledBy scale (Fmt.e5m2.flush (field bs k 1)))
  | 7 => some (scaledBy scale (Fmt.e2m1.flush (field bs (k / 2) 1 / 16 ^ (k % 2) % 16)))
  | 8 => some (scaledBy scale (mantissa 8 (field bs k 1) (-6)))
  | c =>
    let m := c - 0x10
    let start := (4 * m + 1) * (k / 32)
    let e := field bs (start + 4 * m) 1
    if e = 255 then none else some (mantissa m (field bs start (4 * m) / 2 ^ (m * (k % 32)) % 2 ^ m) ((e : Int) - 127 - ((m : Int) - 2)))
/-- The sign of a value that is not a NaN, and whether it is a zero. -/
def negative : FVal → Bool
  | .nan => false
  | .inf n => n
  | .fin n _ _ => n
def zero : FVal → Bool
  | .fin _ m _ => m == 0
  | _ => false
/-- Prod (R82): exact, NaN for a NaN operand and for an infinity times a zero. -/
def prodOf (x y : FVal) : FVal :=
  match x, y with
  | .fin a m e, .fin b n f => .fin (a ^^ b) (m * n) (e + f)
  | x, y => if x = .nan ∨ y = .nan ∨ zero x = true ∨ zero y = true then .nan else .inf (negative x ^^ negative y)
/-- A finite value as a multiple of 2^q. -/
def timesOf (q : Int) : FVal → Int
  | .fin n m e => if n then -((m * 2 ^ (e - q).toNat : Nat) : Int) else ((m * 2 ^ (e - q).toNat : Nat) : Int)
  | _ => 0
/-- `r` is BlockSum of an accumulator and products (R82): the canonical NaN, an infinity, or the exact sum, formed as a multiple of the
least power of two among the terms and rounded once; −0 where every term is −0. -/
def isBlockSum (acc : W32) (ps : List FVal) (r : W32) : Prop :=
  let xs := fval acc :: ps
  let bad := FVal.nan ∈ xs ∨ (FVal.inf true ∈ xs ∧ FVal.inf false ∈ xs)
  (bad → r = 0x7FC00000) ∧
  (¬bad → (FVal.inf false ∈ xs → r = 0x7F800000) ∧ (FVal.inf true ∈ xs → r = 0xFF800000)) ∧
  ∀ q : Int, (∀ x ∈ xs, ∃ n m e, x = FVal.fin n m e ∧ q ≤ e) → (∃ n m, FVal.fin n m q ∈ xs) →
    let total := (xs.map (timesOf q)).sum
    (total ≠ 0 → r = round32 (.fin (decide (total < 0)) total.natAbs q)) ∧
    (total = 0 → (∀ x ∈ xs, zero x = true ∧ negative x = true) → r = 0x80000000) ∧
    (total = 0 → (∃ x ∈ xs, zero x = false ∨ negative x = false) → r = 0)
/-- `r` is BlockDot of an accumulator and K pairs of elements (R82): blocks of 32 in ascending order, each rounded once; elements
beyond K are in no sum. -/
def isBlockDot (acc : W32) (k : Nat) (a b : Nat → FVal) (r : W32) : Prop :=
  ∃ f : Nat → W32, f 0 = acc ∧ f ((k + 31) / 32) = r ∧ ∀ j < (k + 31) / 32,
    isBlockSum (f j) ((List.range (min 32 (k - 32 * j))).map fun i => prodOf (a (32 * j + i)) (b (32 * j + i))) (f (j + 1))

/-! ### Tiles (09 R198 to R203, R207) -/

/-- The first row and column of tile `t`, and its rows and columns in the result (R202, R216). -/
def tileCorner (o : PlOp) (t : Nat) : Int × Int :=
  if o.kind = .tile then (16 * o.ti, 16 * o.tj) else ((32 * (t / ((o.n + 31) / 32)) : Nat), (32 * (t % ((o.n + 31) / 32)) : Nat))
def inRows (o : PlOp) (r : Nat) : Prop :=
  let x := (tileCorner o o.next).1
  x ≤ r ∧ (r : Int) < x + (if o.kind = .tile then 16 else 32) ∧ r < if o.kind = .tile then o.mtot else o.m
def inCols (o : PlOp) (n : Nat) : Prop :=
  let x := (tileCorner o o.next).2
  x ≤ n ∧ (n : Int) < x + (if o.kind = .tile then 16 else 32) ∧ n < if o.kind = .tile then o.ntot else o.n
/-- The byte offset of element (r, n) of the result in the pool: units of 4096 bytes, rows of 32 elements (log 25). -/
def accAt (o : PlOp) (r n : Nat) : Nat :=
  4096 * (o.unit + o.next) + 4 * (32 * (r - (tileCorner o o.next).1).toNat + (n - (tileCorner o o.next).2).toNat)
def accWord (c : Core) (off : Nat) : W32 := BitVec.ofNat 32 (field (Memory.read c.pool.bytes off 4) 0 4)

/-- An operand of a started operation: where its rows stand, its sampled format and scale records, and K. -/
structure Operand where
  side : PlSide
  fmt : Word
  scl : Word
  k : Nat
deriving DecidableEq, Repr
def operandA (o : PlOp) : Operand := ⟨o.a, o.fmtA, o.sclA, o.k⟩
def operandB (o : PlOp) : Operand := ⟨o.b, o.fmtB, o.sclB, o.k⟩
def usesScales (x : Operand) : Prop := x.fmt.toNat % 2 ^ 5 ∈ [5, 6, 7, 8]
/-- The form accepts the sampled code (R204). -/
def accepted (blk : Bool) (x : Operand) : Prop :=
  x.fmt.toNat % 2 ^ 5 ∈ if blk then [7, 8, 0x12, 0x13, 0x14, 0x15, 0x16, 0x17, 0x18] else [0, 1, 2, 3, 4, 5, 6]
/-- The value of element `k` of row `r` (R198 to R201). -/
def operandElem (p : State) (core : CoreRef) (x : Operand) (r k : Nat) : Option FVal :=
  let code := x.fmt.toNat % 2 ^ 5
  let len := rowBytes code x.k
  plElem code (match x.side with
    | .desc d => p.poolBytes core (rowAddr d r) len
    | .regs bs => (bs.drop (r * len)).take len) (p.poolBytes core (scaleAddr x.scl r) ((x.k + 31) / 32)) k
/-- The first poisoned byte of a row is at `a`, in its elements or else in its scales (10 R227); `clean`: there is none. -/
def poisonedAt (p : State) (core : CoreRef) (x : Operand) (r : Nat) (a : Word) : Prop :=
  let inRow := match x.side with
    | .desc d => p.poolPoison core (rowAddr d r) (rowBytes (x.fmt.toNat % 2 ^ 5) x.k)
    | .regs _ => none
  inRow = some a ∨ (inRow = none ∧ usesScales x ∧ p.poolPoison core (scaleAddr x.scl r) ((x.k + 31) / 32) = some a)
def clean (p : State) (core : CoreRef) (x : Operand) (r : Nat) : Prop := ∀ a, ¬poisonedAt p core x r a
/-- The rows of an operand can be used, or why not: the first poisoned one, or a reserved exponent (04 R73; the order is log 39). -/
def sideGood (p : State) (core : CoreRef) (x : Operand) (rows : Nat → Prop) : Prop :=
  ∀ r, rows r → clean p core x r ∧ ∀ k < x.k, operandElem p core x r k ≠ none
def sideFails (p : State) (core : CoreRef) (x : Operand) (rows : Nat → Prop) (cause : BitVec 8) (a : Word) : Prop :=
  (cause = 0x52 ∧ ∃ r, rows r ∧ poisonedAt p core x r a ∧ ∀ q < r, rows q → clean p core x q) ∨
  (cause = 0x21 ∧ a = 0 ∧ (∀ r, rows r → clean p core x r) ∧ ∃ r k, rows r ∧ k < x.k ∧ operandElem p core x r k = none)
/-- The accumulators of the tile that row `r` reads are poisoned at `a`; none are. -/
def accPoison (p : State) (core : CoreRef) (o : PlOp) (r : Nat) (a : Word) : Prop :=
  ∃ n len, inCols o n ∧ (∀ m, inCols o m ↔ n ≤ m ∧ m < n + len) ∧ p.poolPoison core (accAt o r n) (4 * len) = some a
def accClean (p : State) (core : CoreRef) (o : PlOp) : Prop := ∀ r, inRows o r → ∀ a, ¬accPoison p core o r a
/-- Why the next tile of a multiplying operation fails: operand A is judged before operand B, and the accumulators last (log 39). -/
def tileFails (p : State) (core : CoreRef) (o : PlOp) (cause : BitVec 8) (a : Word) : Prop :=
  sideFails p core (operandA o) (inRows o) cause a ∨
  (sideGood p core (operandA o) (inRows o) ∧ sideFails p core (operandB o) (inCols o) cause a) ∨
  (sideGood p core (operandA o) (inRows o) ∧ sideGood p core (operandB o) (inCols o) ∧ o.z = false ∧ cause = 0x52 ∧
    ∃ r, inRows o r ∧ accPoison p core o r a ∧ ∀ q < r, inRows o q → ∀ b, ¬accPoison p core o q b)

/-- An element as `pl.stacc` writes it under `out` (R217, 04 R79). -/
def storedAs (out : BitVec 2) (x : W32) : Nat := if out = 0 then x.toNat else if out = 1 then Fmt.bf16.convert (fval x) else Fmt.fp16.convert (fval x)

/-- A sampled record is ill-formed for an operation (04 R76, R204): the forms that multiply take the codes that they accept, the others
every code that is not reserved (log 113). -/
def recordIll (o : PlOp) (x : Operand) : Prop :=
  if o.kind ∈ [PlKind.mma, .mmt, .tile] then ¬accepted o.blk x else ¬accepted false x ∧ ¬accepted true x
/-- A copied register group is too short for the sampled format (R200). -/
def shortGroup (x : Operand) (rows : Nat) : Prop :=
  ∃ bs, x.side = .regs bs ∧ bs.length < 32 * ((rows * rowBytes (x.fmt.toNat % 2 ^ 5) x.k + 31) / 32)
/-- The rows of an operand that a started operation reads (R215, R216). -/
def startRows (o : PlOp) (isA : Bool) (r : Nat) : Prop :=
  if o.kind = .tile then (if isA then inRows o r else inCols o r) else r < if isA then o.m else o.n
/-- The first row whose scales break the placement of R199 has them at `a` (R201). -/
def scalesBad (s : State) (core : CoreRef) (x : Operand) (rows : Nat → Prop) (a : Word) : Prop :=
  let ok := fun r => s.rowOk core (scaleAddr x.scl r) ((x.k + 31) / 32)
  usesScales x ∧ ∃ r, rows r ∧ ok r = false ∧ (∀ q < r, rows q → ok q = true) ∧ a = word (2 ^ 64 - 2 ^ 21 + scaleAddr x.scl r)
/-- Why an operation with a tile, which has sampled its records, cannot start (R195, R200, R201, R204): record A before record B, then the
groups, then the scales. -/
def startFails (s : State) (core : CoreRef) (o : PlOp) (cause : BitVec 8) (info a : Word) : Prop :=
  let x := operandA o
  let y := operandB o
  (cause = 0x20 ∧ a = 0 ∧ ((recordIll o x ∧ info = word (x.fmt.toNat % 2 ^ 5)) ∨
    (¬recordIll o x ∧ recordIll o y ∧ info = word (y.fmt.toNat % 2 ^ 5 + 32)))) ∨
  (cause = 0x32 ∧ info = word o.next ∧ o.kind ∈ [PlKind.mma, .mmt, .tile] ∧ ¬recordIll o x ∧ ¬recordIll o y ∧
    (((shortGroup x o.m ∨ shortGroup y o.n) ∧ a = 0) ∨
      (¬shortGroup x o.m ∧ ¬shortGroup y o.n ∧ (scalesBad s core x (startRows o true) a ∨
        ((∀ b, ¬scalesBad s core x (startRows o true) b) ∧ scalesBad s core y (startRows o false) a)))))

/-- A cause of an engine operation, with its information, waits for the issuing task, or is posted where that task is gone (R207, 10 R237,
12 R261). -/
def reported (s u : State) (core : CoreRef) (o : Origin) (cause : BitVec 8) (info a : Word) : Prop :=
  let r : SlotRef := ⟨core, o.slot⟩
  let hold := s.holdOf core
  (∀ t, s.task r = some t → t.is o.task = true → (s.slot r).halted = false →
    u.task r = some { t with async := t.async ++ [⟨cause, o, info, a⟩] }) ∧
  ((∀ t, s.task r = some t → t.is o.task = false) → u.task r = s.task r ∧
    (o.home = none → (s.hold hold).faultQ.length < 64 → (s.hold hold).faultDropped = 0 → ∃ f : Record,
      (u.hold hold).faultQ = (s.hold hold).faultQ ++ [f] ∧
      f[0] = causeWord o.slot ((s.coord core).getD ⟨0, 0⟩) false false true true false false cause ∧ f[1] = o.pc ∧ f[2] = a ∧ f[3] = info))

/-- What the failure of an operation leaves (R207): nothing written, the operation and its slot's later ones that had not started gone
from the queue, and the cause reported. -/
def failed (s u : State) (core : CoreRef) (o : PlOp) (rest : List PlOp) (cause : BitVec 8) (info a : Word) : Prop :=
  (u.core core).plq = rest.filter (fun x => !(decide (x.origin.slot = o.origin.slot) && !x.started)) ∧ u.mem = s.mem ∧
  (u.core core).pool = (s.core core).pool ∧ reported s u core o.origin cause info a

/-- What a start samples (R192). -/
def sampled (c : Core) (o : PlOp) : PlOp :=
  { o with started := true, fmtA := c.regs.fmtA, fmtB := c.regs.fmtB, sclA := c.regs.sclA, sclB := c.regs.sclB }

/-- The oldest operation of a core is `o`, which the plough chooses to run (R193, R195), and its later ones are `rest`. -/
def picked (s : State) (die : DieId) (cl : Fin 60) (q : Fin 8) (cr : Nat) (o : PlOp) (rest : List PlOp) : Prop :=
  chosen s die cl q cr ∧ s.ready (coreIn die cl q) = some o ∧ (s.core (coreIn die cl q)).plq = o :: rest ∧
    ∀ x ∈ rest, x.origin.seq ≠ o.origin.seq

/-- It has started, or its start does not fail. -/
def startable (s : State) (core : CoreRef) (o : PlOp) : Prop :=
  o.started = true ∨ ∀ cause info a, ¬startFails s core (sampled (s.core core) o) cause info a

/-- A grant: the plough runs a tile of the operation, which has started. -/
def granted (s u : State) (die : DieId) (cl : Fin 60) (q : Fin 8) (cr : Nat) (o : PlOp) (rest : List PlOp) : Prop :=
  let core := coreIn die cl q
  let c := s.core core
  u.cluster die cl = { s.cluster die cl with p := q, cr := cr, running := some q } ∧
    u.core core = { c with plq := (if o.started then o else sampled c o) :: rest } ∧ u.mem = s.mem

end Sys2Proof.Claims

/-- 09 R197, R214: `pl.geo` writes one geometry register, and raises 0x31 for a reserved bit. That 0x31 carries the information 0 and the
address 0 is the model's reading (log 74). -/
def Sys2Proof.Claims.PloughGeometry : Prop :=
  ∀ (a : Reg) (sel : BitVec 2) (s : State) (t : Task) (A : Word) (c : Core), Ready s [a] 0 t [A] c → sel ≠ 3 →
    let p := popped s c t
    let bad := (sel = 0 ∧ A.toNat / 2 ^ 56 ≠ 0) ∨ (sel = 1 ∧ A.toNat / 2 ^ 6 ≠ 0)
    (bad → exec (.plGeo a sel) s = .next (s.takeTrap s.cur ⟨0x31, 0, 0⟩ t.pc (t.pc + 4) false)) ∧
    (¬bad → ∃ k, exec (.plGeo a sel) s = completes s (p.setCore s.cur.core k) ∧
      k = { p.core s.cur.core with saved := k.saved, regs := { c.regs with
        geo0 := if sel = 0 then A else c.regs.geo0, geo1 := if sel = 1 then A else c.regs.geo1, geo2 := if sel = 2 then A else c.regs.geo2 } })

/-- 09 R191 to R193, R199, R200, R202, R205, R208, R215 to R217: the plough operations capture the geometry, check it (0x31) and their
operands (0x32), and issue; one without a tile, a `pl.zacc` of no unit or a `pl.tile` whose tile lies outside the result, checks no rows,
and completes at once where it heads its queue and the queue is not suspended, or fails its start with 0x20; a block form raises 0x40 on a lean die.
That 0x31 and 0x32 carry the information 0, and for an address that of the first misplaced row, or 0, is the model's reading (log 74), and so is
that an operation without a tile starts as it comes to the head (log 38), and that `pl.zacc`, `pl.ldacc` and `pl.stacc` accept every
code that is not reserved (log 113). -/
def Obligations.PloughIssues : Prop :=
  (∀ (i : Instr) (kind : PlKind) (blk : Bool) (z : BitVec 1) (out : BitVec 2) (srcs : List Reg) (s : State) (t : Task) (vs : List Word) (c : Core),
    ploughForm i = some (kind, blk, z, out, srcs) →
    let p := popped s c t
    let xy := p.taskCoord s.cur t
    let A := vs.getD 0 0
    let B := vs.getD 1 0
    (s.task s.cur = some t → blk = true → lean s.cur.core.die = true →
      exec i s = .next (s.takeTrap s.cur ⟨0x40, 1, 0⟩ t.pc (t.pc + 4) false)) ∧
    (Ready s srcs 0 t vs c → (blk = true → lean s.cur.core.die = false) →
      (geoRefused c.regs (c.part.toNat / 2 ^ 8 % 2 ^ 7) kind A B → exec i s = .next (s.takeTrap s.cur ⟨0x31, 0, 0⟩ t.pc (t.pc + 4) false)) ∧
      (¬geoRefused c.regs (c.part.toNat / 2 ^ 8 % 2 ^ 7) kind A B →
        let xs := descOperands c.regs xy kind blk out A B
        let o := captured c.regs xy kind blk z out A B
        let bad := fun w => recordIll o { operandA o with fmt := w }
        let runs := c.plq = [] ∧ p.suspended s.cur.core = false ∧ p.frozen s.cur.core.die = false
        (∀ x, operandsBad p xs x → exec i s = .next (s.takeTrap s.cur ⟨0x32, 0, x⟩ t.pc (t.pc + 4) false)) ∧
        (operandsFit p xs → (o.tiles ≠ 0 ∨ ¬runs → issues s p c t o (exec i s)) ∧
          (o.tiles = 0 → runs → c.locks.length ≤ 16 → (s.slot s.cur).halted = false →
            (¬bad c.regs.fmtA → ¬bad c.regs.fmtB → settles s t none (exec i s)) ∧
            (bad c.regs.fmtA → settles s t (some (0x20, word (c.regs.fmtA.toNat % 2 ^ 5))) (exec i s)) ∧
            (¬bad c.regs.fmtA → bad c.regs.fmtB → settles s t (some (0x20, word (c.regs.fmtB.toNat % 2 ^ 5 + 32))) (exec i s))))))) ∧
  (∀ (a b : Reg) (z : BitVec 1) (blk : Bool) (s : State) (t : Task) (c : Core) (x y : List Byte), Ready s [] 0 t [] c →
    let p := popped s c t
    let i : Instr := if blk then .plMmaBlk a b z else .plMma a b z
    let o := captured c.regs ⟨0, 0⟩ .mma blk z 0 0 0
    (blk = true → lean s.cur.core.die = true → exec i s = .next (s.takeTrap s.cur ⟨0x40, 1, 0⟩ t.pc (t.pc + 4) false)) ∧
    ((blk = true → lean s.cur.core.die = false) →
      (geoRefused c.regs (c.part.toNat / 2 ^ 8 % 2 ^ 7) .mma 0 0 → exec i s = .next (s.takeTrap s.cur ⟨0x31, 0, 0⟩ t.pc (t.pc + 4) false)) ∧
      (¬geoRefused c.regs (c.part.toNat / 2 ^ 8 % 2 ^ 7) .mma 0 0 →
        groupBad a (geoM c.regs * rowLen blk c.regs.fmtA (geoK c.regs)) ∨ groupBad b (geoN c.regs * rowLen blk c.regs.fmtB (geoK c.regs)) →
        exec i s = .next (s.takeTrap s.cur ⟨0x32, 0, 0⟩ t.pc (t.pc + 4) false)) ∧
      (¬geoRefused c.regs (c.part.toNat / 2 ^ 8 % 2 ^ 7) .mma 0 0 →
        t.group a (geoM c.regs * rowLen blk c.regs.fmtA (geoK c.regs)) = some x →
        t.group b (geoN c.regs * rowLen blk c.regs.fmtB (geoK c.regs)) = some y →
        issues s p c t { o with a := .regs x, b := .regs y } (exec i s))))

/-- 09 R193, R218: `pl.wait` waits while more operations of its slot are incomplete than its operand says; `pl.flush` cancels those that have
not started, and waits while one has. -/
def Sys2Proof.Claims.PloughWaits : Prop :=
  ∀ (a : Reg) (s : State) (t : Task) (A : Word) (c : Core),
    (Ready s [a] 0 t [A] c → exec (.plWait a) s =
      if (c.plq.filter fun o => o.origin.slot = s.cur.slot).length ≤ A.toNat then completes s (popped s c t)
      else waitsOn s t (some .plough)) ∧
    (Ready s [] 0 t [] c → (∀ o ∈ c.plq, o.tiles ≠ 0) → (c.plq.map (·.origin.seq)).Nodup →
      let kept := c.plq.filter fun o => !(decide (o.origin.slot = s.cur.slot) && !o.started)
      ∃ q, (q.core s.cur.core).plq = kept ∧ q.mem = s.mem ∧
        ((∀ o ∈ kept, o.origin.slot ≠ s.cur.slot) → exec .plFlush s = completes s q ∧ ∃ u, q.task s.cur = some u ∧ u.pc = t.pc + 4) ∧
        ((∃ o ∈ kept, o.origin.slot = s.cur.slot) → exec .plFlush s = .next q ∧ q.task s.cur = some { t with waiting := true, on := some .plough, met := false }))

/-- 09 R192, R193, R195, R200, R201, R204, R207, 04 R76: the plough of a cluster that is idle grants a tile to the core that R195 chooses, and an
operation that it starts samples the format and scale registers. A start fails with 0x20 for a record that is ill-formed, or with 0x32 for a
register group that is too short or for misplaced scales, as R207 says; it counts as no grant, and the plough chooses again. The codes that
`pl.zacc`, `pl.ldacc` and `pl.stacc` accept are log 113. -/
def Sys2Proof.Claims.PloughGrants : Prop :=
  ∀ (die : DieId) (cl : Fin 60) (s : State) (q : Fin 8) (o : PlOp) (rest : List PlOp) (cr : Nat),
    let core := coreIn die cl q
    (s.cluster die cl).running = none → s.frozen die = false → picked s die cl q cr o rest →
      (startable s core o → ∃ u, exec (.ploughGrant die cl) s = .next u ∧ granted s u die cl q cr o rest) ∧
      (∀ cause info a, o.started = false → startFails s core (sampled (s.core core) o) cause info a → (∀ x ∈ rest, x.tiles ≠ 0) →
        (rest.map (·.origin.seq)).Nodup → ∃ v, failed s v core o rest cause info a ∧ (∀ k, v.cluster die k = s.cluster die k) ∧
          ((∀ k, v.ready (coreIn die cl k) = none) → exec (.ploughGrant die cl) s = .next v) ∧
          ∀ k n x xs, picked v die cl k n x xs → startable v (coreIn die cl k) x →
            ∃ u, exec (.ploughGrant die cl) s = .next u ∧ granted v u die cl k n x xs)

/-- 09 R193, R203, R207, R216, R217, 04 R71 to R73, R81, R82: the tile in progress ends. A tile of a multiplying operation writes, for each
row and column of the result that it holds, BlockDot of the accumulator (or of +0) and the K elements of the operand rows, and no
other byte of the pool; a tile whose operands are poisoned or hold a reserved exponent, or whose accumulators are poisoned, writes
nothing and fails its operation with 0x52 or 0x21. `pl.zacc` clears the unit, `pl.ldacc` copies the rows of its pool operand
into it, and `pl.stacc` writes its elements to the rows of its pool operand, unchanged or converted to BF16 or FP16, where no two of
those rows overlap, and no other byte of pool space; either fails with 0x52 where what it reads is poisoned. In every state, a tile that
does not fail leaves the pool as the model's tile operation says. The operation then goes on to its next tile or leaves its queue.
The layout of a unit in the pool (log 25) and the order of the causes (log 39) are the model's choices. -/
def Sys2Proof.Claims.TileCommits : Prop :=
  ∀ (die : DieId) (cl : Fin 60) (s : State) (q : Fin 8) (o : PlOp) (rest : List PlOp),
    let core := coreIn die cl q
    let c := s.core core
    let p := { s with freshCount := s.freshCount + 1 }
    (s.cluster die cl).running = some q → c.plq = o :: rest → o.started = true → o.next < o.tiles →
    (c.plq.map (·.origin.seq)).Nodup → (∀ x ∈ rest, x.tiles ≠ 0) →
    let ends := fun (u : State) => exec (.tileCommit die cl) s = .next u ∧ (u.cluster die cl).running = none ∧ u.mem = s.mem
    let goesOn := fun (u : State) => ends u ∧ (u.core core).plq = if o.next + 1 < o.tiles then { o with next := o.next + 1 } :: rest else rest
    (o.kind ∈ [PlKind.mma, .mmt, .tile] → accepted o.blk (operandA o) → accepted o.blk (operandB o) →
      (sideGood p core (operandA o) (inRows o) → sideGood p core (operandB o) (inCols o) → (o.z = true ∨ accClean p core o) →
        ∃ u, goesOn u ∧
          (∀ r n, inRows o r → inCols o n → ∀ (x y : Nat → FVal),
            (∀ k < o.k, operandElem p core (operandA o) r k = some (x k) ∧ operandElem p core (operandB o) n k = some (y k)) →
            isBlockDot (if o.z then 0 else accWord c (accAt o r n)) o.k x y (accWord (u.core core) (accAt o r n))) ∧
          ∀ b, (∀ r n, inRows o r → inCols o n → ¬(accAt o r n ≤ b ∧ b < accAt o r n + 4)) →
            Memory.get (u.core core).pool.bytes b = Memory.get c.pool.bytes b) ∧
      (∀ cause a, tileFails p core o cause a → ∃ u, ends u ∧ failed s u core o rest cause (word o.next) a)) ∧
    (o.kind = .zacc → ∃ u, goesOn u ∧ ∀ b, Memory.get (u.core core).pool.bytes b =
      if 4096 * (o.unit + o.next) ≤ b ∧ b < 4096 * (o.unit + o.next) + 4096 then 0 else Memory.get c.pool.bytes b) ∧
    (∀ (d : Word) (n len : Nat), o.kind = .ldacc → o.a = .desc d → (∀ m, inCols o m ↔ n ≤ m ∧ m < n + len) → inCols o n →
      ((∀ r, inRows o r → p.poolPoison core (rowAddr d r + 4 * n) (4 * len) = none) → ∃ u, goesOn u ∧
        (∀ r, inRows o r → Memory.read (u.core core).pool.bytes (accAt o r n) (4 * len) =
          p.poolBytes core (rowAddr d r + 4 * n) (4 * len)) ∧
        ∀ b, (∀ r, inRows o r → ¬(accAt o r n ≤ b ∧ b < accAt o r n + 4 * len)) →
          Memory.get (u.core core).pool.bytes b = Memory.get c.pool.bytes b) ∧
      (∀ r a, inRows o r → p.poolPoison core (rowAddr d r + 4 * n) (4 * len) = some a →
        (∀ x < r, inRows o x → p.poolPoison core (rowAddr d x + 4 * n) (4 * len) = none) →
        ∃ u, ends u ∧ failed s u core o rest 0x52 (word o.next) a)) ∧
    (∀ (d : Word) (n len : Nat), o.kind = .stacc → o.a = .desc d → o.out ≠ 3 → (∀ m, inCols o m ↔ n ≤ m ∧ m < n + len) → inCols o n →
      let w := if o.out = 0 then 4 else 2
      let at_ := fun (r : Nat) => rowAddr d r + w * n
      (accClean p core o → (∀ r, inRows o r → p.rowOk core (at_ r) (w * len) = true) →
        (∀ r x, inRows o r → inRows o x → r ≠ x → at_ r + w * len ≤ at_ x ∨ at_ x + w * len ≤ at_ r) → ∃ u, goesOn u ∧
        (∀ r i, inRows o r → i < len → field (u.poolBytes core (at_ r) (w * len)) (w * i) w = storedAs o.out (accWord c (accAt o r (n + i)))) ∧
        ∀ b, b < 2 ^ 21 → (∀ r, inRows o r → ¬(at_ r ≤ b ∧ b < at_ r + w * len)) → u.poolBytes core b 1 = p.poolBytes core b 1) ∧
      (∀ r a, inRows o r → accPoison p core o r a → (∀ x < r, inRows o x → ∀ b, ¬accPoison p core o x b) →
        ∃ u, ends u ∧ failed s u core o rest 0x52 (word o.next) a)) ∧
    ∀ v, State.runTile { s.setCluster die cl { s.cluster die cl with running := none } with freshCount := s.freshCount + 1 } core o = .inr v →
      ∃ u, goesOn u ∧ (u.core core).pool = (v.core core).pool
namespace Sys2Proof.Claims
open Sys2Proof.Machine

/-! ## The drill (10 R231 to R239) -/

/-- The drill operations: their kind and word. -/
def drillForm : Instr → Option (DrKind × W32 × Reg × Reg)
  | .drCopyGp a b => some (.copyGp, encEC 0x39 0x00 a b 0, a, b)
  | .drCopyPg a b => some (.copyPg, encEC 0x39 0x01 a b 0, a, b)
  | .drCopyPp a b => some (.copyPp, encEC 0x39 0x02 a b 0, a, b)
  | .drCopyGg a b => some (.copyGg, encEC 0x39 0x03 a b 0, a, b)
  | .drGathG a b => some (.gathG, encEC 0x39 0x04 a b 0, a, b)
  | .drGathP a b => some (.gathP, encEC 0x39 0x05 a b 0, a, b)
  | .drScatG a b => some (.scatG, encEC 0x39 0x06 a b 0, a, b)
  | .drScatP a b => some (.scatP, encEC 0x39 0x07 a b 0, a, b)
  | .drFillG a b => some (.fillG, encEC 0x39 0x08 a b 0, a, b)
  | .drFillP a b => some (.fillP, encEC 0x39 0x09 a b 0, a, b)
  | _ => none

/-- The descriptor's fields (R233), with the values of the index list that it names. -/
def drCaptured (kind : DrKind) (pasid : BitVec 20) (n : Nat) (bs : List Byte) (list : List Nat) : DrOp :=
  { kind := kind, pasid := pasid, n := n, dst := word (field bs 0 8), src := word (field bs 8 8), len := field bs 16 4
    dpitch := (BitVec.ofNat 32 (field bs 20 4)).toInt, spitch := (BitVec.ofNat 32 (field bs 24 4)).toInt
    dring := if field bs 28 2 / 2 ^ 4 % 2 = 1 then some (BitVec.ofNat 4 (field bs 28 2)) else none
    sring := if field bs 28 2 / 2 ^ 12 % 2 = 1 then some (BitVec.ofNat 4 (field bs 28 2 / 2 ^ 8)) else none
    pat := word (field bs 40 8), list := list }

/-- Check 2 of R235: what it refuses with 0x33. -/
def drRefused (o : DrOp) (bs : List Byte) (n : Nat) : Prop :=
  field bs 28 2 / 2 ^ 5 % 8 ≠ 0 ∨ field bs 28 2 / 2 ^ 13 ≠ 0 ∨ field bs 30 2 ≠ 0 ∨ field bs 16 4 = 0 ∨ 2 ^ 20 < field bs 16 4 ∨
    2 ^ 24 - 1 < n ∨ (o.dring ≠ none ∧ o.kind.dst ≠ .pool) ∨ (o.sring ≠ none ∧ o.kind.src ≠ .pool)

/-- Check 3 of R235 passes: the destination ring takes the drill's rows, and the source ring gives them. -/
def ringsFit (c : Core) (o : DrOp) : Prop :=
  (∀ k, o.dring = some k → (c.handle k).init = true ∧ (c.handle k).prod = 2 ∧ o.len ≤ (c.handle k).size) ∧
    ∀ k, o.sring = some k → (c.handle k).init = true ∧ (c.handle k).cons = 1 ∧ o.len ≤ (c.handle k).size

/-- Check 5 of R235 passes for a row of one side. -/
def rowFits (p : State) (kind : SideKind) (a : Word) (len : Nat) : Prop :=
  match kind with
  | .fill => True
  | .global => a.toNat + len ≤ 2 ^ 64 - 2 ^ 21 ∧ canonical a = true ∧ canonical (a + word (len - 1)) = true
  | .pool => inPoolSpace a = true ∧ p.rowOk p.cur.core (poolOffset a) len = true

/-! ### Rows (R234, R236, R237, R226) -/

/-- The addresses of the source and the destination of an operation's next row, where the side is no ring (R234). -/
def srcRow (o : DrOp) : Word :=
  BitVec.ofInt 64 (o.src.toInt + ((if o.kind ∈ [DrKind.gathG, .gathP] then o.list.getD o.next 0 else o.next : Nat) : Int) * o.spitch)
def dstRow (o : DrOp) : Word :=
  BitVec.ofInt 64 (o.dst.toInt + ((if o.kind ∈ [DrKind.scatG, .scatP] then o.list.getD o.next 0 else o.next : Nat) : Int) * o.dpitch)

/-- A row of `len` bytes lies at a location: in slot `i` of a ring of the core, in the pool that its window reaches (07 R153), or in the
stack bytes of its translated addresses. -/
def rowLies (s : State) (core : CoreRef) (o : DrOp) (ring : Option (BitVec 4)) (i : Handle → Nat) (kind : SideKind) (a : Word) (n : Need)
    (l : Loc) : Prop :=
  (∃ k, ring = some k ∧ l = .pool core ((((s.core core).handle k).base.toNat + ((s.core core).handle k).size * i ((s.core core).handle k)) % 2 ^ 21) o.len) ∨
  (ring = none ∧ kind = .pool ∧ l = .pool (windowCore core (a.toNat % 2 ^ 21)) (a.toNat % 2 ^ 18) o.len) ∨
  (ring = none ∧ kind = .global ∧ ∃ ks, s.translateRange core.die (.drill core.idx) o.pasid a.toNat n o.len = .ok ks ∧
    l = .mem ks o.pasid a.toNat)

/-- Where the next row is read, none for a fill, and where it is written. -/
def rowSource (s : State) (core : CoreRef) (o : DrOp) : Option Loc → Prop
  | some l => rowLies s core o o.sring (·.head) o.kind.src (srcRow o) { read := true } l
  | none => o.sring = none ∧ o.kind.src = .fill
def rowTarget (s : State) (core : CoreRef) (o : DrOp) (l : Loc) : Prop :=
  rowLies s core o o.dring (·.tail) o.kind.dst (dstRow o) { write := true } l

/-- Byte `j` of the source row, and whether its line is poisoned. -/
def rowByte (s : State) (o : DrOp) (src : Option Loc) (j : Nat) : Byte :=
  match src with
  | some (.pool c off _) => Memory.get (s.core c).pool.bytes (off + j)
  | some (.mem ks _ _) => Memory.get s.mem (ks.getD j 0)
  | none => BitVec.ofNat 8 (o.pat.toNat / 256 ^ (j % 8))
def rowBad (s : State) (src : Option Loc) (j : Nat) : Prop :=
  match src with
  | some (.pool c off _) => (off + j) / 64 ∈ (s.core c).pool.poison
  | some (.mem ks _ _) => ks.getD j 0 / 64 ∈ s.memPoison
  | none => False

/-- The poison of lines after a write of `len` bytes, byte `j` at `key j` (R226): a line that receives a poisoned byte is poisoned, one that is
written whole otherwise is clean, and every other line is as before. -/
def poisonMoves (len : Nat) (key : Nat → Nat) (bad : Nat → Prop) (before after : NSet) : Prop :=
  ∀ l, let got := ∃ j < len, key j / 64 = l ∧ bad j
    let whole := ∀ b, b / 64 = l → ∃ j < len, key j = b
    (got → l ∈ after) ∧ (¬got → whole → l ∉ after) ∧ (¬got → ¬whole → (l ∈ after ↔ l ∈ before))

/-- The row's destination holds the bytes of its source, every other byte is as before, and poison has moved with the bytes. -/
def rowMoved (s u : State) (o : DrOp) (src : Option Loc) (dst : Loc) : Prop :=
  match dst with
  | .pool c off _ =>
    (Memory.wf (s.core c).pool.bytes = true → ∀ j < o.len, Memory.get (u.core c).pool.bytes (off + j) = rowByte s o src j) ∧
    (∀ b, b < off ∨ off + o.len ≤ b → Memory.get (u.core c).pool.bytes b = Memory.get (s.core c).pool.bytes b) ∧
    ((s.core c).pool.poison.Nodup → poisonMoves o.len (off + ·) (rowBad s src) (s.core c).pool.poison (u.core c).pool.poison) ∧
    (∀ x, x ≠ c → (u.core x).pool = (s.core x).pool) ∧ u.mem = s.mem ∧ u.memPoison = s.memPoison
  | .mem ks _ _ =>
    (Memory.wf s.mem = true → ks.Nodup → ∀ j < o.len, Memory.get u.mem (ks.getD j 0) = rowByte s o src j) ∧
    (∀ b, b ∉ ks → Memory.get u.mem b = Memory.get s.mem b) ∧
    (s.memPoison.Nodup → poisonMoves o.len (ks.getD · 0) (rowBad s src) s.memPoison u.memPoison) ∧ ∀ x, (u.core x).pool = (s.core x).pool

/-- Global bytes of a row fail their translation or their permission, first the one at `x` (R237, R222). -/
def rowTraps (s : State) (core : CoreRef) (o : DrOp) (a : Word) (n : Need) (cause : BitVec 8) (x : Word) : Prop :=
  let at_ := fun (j : Nat) => s.translate core.die (.drill core.idx) o.pasid ((a.toNat + j) % 2 ^ 64) n
  ∃ i < o.len, (∀ j < i, ∃ k, at_ j = .ok k) ∧ at_ i = .trap cause ∧ x = a + word i

/-- The next row fails: on its source, or else on its destination. -/
def rowFails (s : State) (core : CoreRef) (o : DrOp) (cause : BitVec 8) (x : Word) : Prop :=
  (o.sring = none ∧ o.kind.src = .global ∧ rowTraps s core o (srcRow o) { read := true } cause x) ∨
  ((∃ src, rowSource s core o src) ∧ o.dring = none ∧ o.kind.dst = .global ∧ rowTraps s core o (dstRow o) { write := true } cause x)

/-- The rings let the next row go on: the destination is not full, and the source not empty (R236). -/
def ringsGo (c : Core) (o : DrOp) : Prop :=
  (∀ k, o.dring = some k → (c.handle k).fill ≠ (c.handle k).slots) ∧ ∀ k, o.sring = some k → (c.handle k).fill ≠ 0

end Sys2Proof.Claims

/-- 10 R231 to R235, R239: a drill operation whose descriptor, rings, index list and rows pass its checks takes a queue place with
its range-lock entries, or waits for room; a descriptor outside the own scratchpad and a refused one raise 0x33. The slot's own stores
to the descriptor and to the list, and the stores of the core's slots to the locked bytes, are performed first (11 R246, R251), with everything
older in their slots, which is the model's choice (log 93). That
0x33 carries the address of a misplaced descriptor, and the address 0 otherwise, is the model's reading (log 74). -/
def Obligations.DrillIssues : Prop :=
  ∀ (i : Instr) (kind : DrKind) (w : W32) (a b : Reg) (s : State) (t : Task) (A N : Word) (c : Core),
    drillForm i = some (kind, w, a, b) → Ready s [a, b] 0 t [A, N] c →
    let p := (popped s c t).flushFor s.cur [ownLoc s.cur.core A 48]
    let bs := Memory.read (p.core s.cur.core).pool.bytes (A.toNat % 2 ^ 21) 48
    let at_ := word (field bs 32 8)
    let indexed : Bool := decide ((kind.gathers = true ∨ kind.scatters = true) ∧ N ≠ 0)
    let z := if indexed then p.flushFor s.cur [ownLoc s.cur.core at_ (4 * N.toNat)] else p
    let ixs := Memory.read (z.core s.cur.core).pool.bytes (at_.toNat % 2 ^ 21) (4 * N.toNat)
    let o := drCaptured kind (ownerOf t.cw) N.toNat bs []
    (ownScratch c.part A 48 8 = false → exec i s = traps s t 0x33 w A) ∧
    (imageReady p A → drRefused o bs N.toNat → exec i s = traps s t 0x33 w) ∧
    (∀ list, imageReady p A → ¬drRefused o bs N.toNat → ringsFit c o →
      (indexed = true → N.toNat ≤ 4096 ∧ ownScratch c.part at_ (4 * N.toNat) 4 = true ∧ z.ownRead s.cur.core at_ (4 * N.toNat) 4 = none ∧
        list = (List.range N.toNat).map fun j => field ixs (4 * j) 4) →
      (indexed = false → list = []) →
      let o := { o with list := list }
      (∀ j < N.toNat, (o.sring = none → rowFits z kind.src (o.srcAddr j) o.len) ∧ (o.dring = none → rowFits z kind.dst (o.dstAddr j) o.len)) →
      let locks := o.needs s.cur.core
      (16 < locks.length → exec i s = traps s t 0x33 w) ∧
      (locks.length ≤ 16 → 2 ≤ c.drq.length ∨ 16 < c.locks.length + locks.length → exec i s = waits s t) ∧
      (c.drq.length < 2 → c.locks.length + locks.length ≤ 16 →
        let u := z.flushLocks s.cur.core locks
        exec i s = completes s { u.setCore s.cur.core { u.core s.cur.core with
          drq := c.drq ++ [{ o with origin := t.origin s.cur.slot s.nextId, locks := locks }] } with nextId := s.nextId + 1 }))

/-- 10 R226, R227, R230, R232, R234, R236 to R239: the oldest operation of a core's drill, which no earlier plough operation holds back,
completes without rows, or writes its next row and advances the rings by one slot: the bytes of the destination row are those of the source
row, or of the fill pattern, every other byte is as before, and the poison of the lines goes with the bytes. After its last row it leaves
the queue; it waits at a full or empty ring. A row whose translation fails writes nothing, ends the operation with its cause and the row's
index, and cancels the later operations of its slot. `dr.wait` waits while more operations of its slot are incomplete than its
operand says. That a failing row has written none of its bytes, since a row is written after it has been read whole, is the model's reading (log 73). -/
def Obligations.DrillRows : Prop :=
  ∀ (core : CoreRef) (a : Reg) (s : State) (o : DrOp) (rest : List DrOp),
    let c := s.core core
    let free := s.drillPaused core.die = false ∧
      (o.started = true ∨ blockedBy o.locks o.origin.seq (c.plq.map fun x => (x.origin.seq, x.locks)) = false)
    (c.drq = o :: rest → (∀ x ∈ rest, x.origin.seq ≠ o.origin.seq) → free →
      (o.n ≤ o.next → ∃ u, exec (.drillRow core) s = .next u ∧ (u.core core).drq = rest ∧
        (u.slot ⟨core, o.origin.slot⟩).event = true ∧ u.mem = s.mem ∧ (u.core core).pool = c.pool) ∧
      (o.next < o.n → ¬Claims.ringsGo c o → ∃ u, exec (.drillRow core) s = .next u ∧ (u.core core).drq = { o with started := true } :: rest ∧
        u.mem = s.mem ∧ ∀ x, (u.core x).pool = (s.core x).pool) ∧
      (∀ src dst, o.next < o.n → Claims.ringsGo c o → Claims.rowSource s core o src → Claims.rowTarget s core o dst →
        ∃ u, exec (.drillRow core) s = .next u ∧ Claims.rowMoved s u o src dst ∧
          (u.core core).drq = (if o.next + 1 < o.n then { o with started := true, next := o.next + 1 } :: rest else rest) ∧
          ∀ k, (o.dring = some k → o.sring ≠ some k → (u.core core).handle k = { c.handle k with
              tail := ((c.handle k).tail + 1) % (c.handle k).slots, fill := (c.handle k).fill + 1 }) ∧
            (o.sring = some k → o.dring ≠ some k → (u.core core).handle k = { c.handle k with
              head := ((c.handle k).head + 1) % (c.handle k).slots, fill := (c.handle k).fill - 1 })) ∧
      (∀ cause x, o.next < o.n → Claims.ringsGo c o → Claims.rowFails s core o cause x → (rest.map (·.origin.seq)).Nodup →
        ∃ u, exec (.drillRow core) s = .next u ∧ u.mem = s.mem ∧ (∀ k, (u.core k).pool = (s.core k).pool) ∧
          (u.core core).drq = rest.filter (fun y => decide (y.origin.slot ≠ o.origin.slot)) ∧
          Claims.reported s u core o.origin cause (word o.next) x)) ∧
    (∀ t A k, Ready s [a] 0 t [A] k → exec (.drWait a) s =
      if (k.drq.filter fun x => x.origin.slot = s.cur.slot).length ≤ A.toNat then completes s (popped s k t) else waits s t)
namespace Sys2Proof.Claims
open Sys2Proof.Machine

/-! ## Dispatch and gleaning (05 R91, R92, R99, R103 to R105, R109, 07 R150, 12 R271) -/

/-- The choice of R92: among a core's candidates of the highest priority, the one that the round-robin pointer reaches first. -/
def picks (c : Core) (i : Nat) : Prop :=
  i ≤ 256 ∧ ∃ p, (i, p) ∈ c.candidates ∧ (∀ x ∈ c.candidates, x.2 ≤ p) ∧
    ∀ j, (j, p) ∈ c.candidates → (i + 257 - c.rr.val) % 257 ≤ (j + 257 - c.rr.val) % 257

/-- The task of a seed right after dispatch (R91): every register zero. -/
def seedTask (s : State) (h : HoldRef) (x : Seed) : Task :=
  { pc := x.pc, args := x.args, cw := x.cw, kind := .seeded x, tag := x.tag, id := s.nextId, w := (s.hold h).w }

/-- The slot holds a task that began from a seed. -/
def runsSeed (u : State) (r : SlotRef) (x : Seed) : Prop :=
  ∃ t, u.task r = some t ∧ t.pc = x.pc ∧ t.args = x.args ∧ t.cw = x.cw ∧ t.g = Vector.replicate 32 0

end Sys2Proof.Claims

/-- 05 R91, R92, R103, R105, 07 R150: DISPATCH starts the candidate that R92 picks in a free slot, a RUNNABLE entry as its RUNNING
task with the firing message, or the tail seed of the deque; without a candidate, it starts a seed of the die's scheduler.
PARTITION_CHANGE gives a quiescent core the word of the seed that it is next to start, and CONCURRENT_DISPATCH starts every seed of a
launch whose reserved slots are ready, from the ready queues in which they wait. -/
def Obligations.Dispatching : Prop :=
  (∀ (r : SlotRef) (s : State) (h : HoldRef) (k : Nat), s.holdAt r.core.die = some (h, k) → s.open h r.core = true →
    let c := s.core r.core
    (∀ i, c.slotFree r.slot = true → picks c i → i < 256 →
      let e : BitVec 8 := BitVec.ofNat 8 i
      let x := c.trigger e
      ∃ u, exec (.dispatch r) s = .next u ∧ (u.core r.core).trigger e = { x with state := .running, fire := none } ∧
        u.task r = some { pc := x.arm.handler, args := #v[word i, 0, 0, 0], cw := x.arm.cw, kind := .triggered e, tag := x.arm.tag
                          msg := x.fire, id := s.nextId, w := (s.hold h).w } ∧
        (u.slot r).event = false ∧ (u.core r.core).rr.val = i + 1 ∧ u.mem = s.mem) ∧
    (∀ pre x, c.slotFree r.slot = true → picks c 256 → c.deque = pre ++ [x] → s.steer h r.core.die 0 x = none → x.part = c.part →
      x.shipped = false →
      ∃ u, exec (.dispatch r) s = .next u ∧ u.task r = some (seedTask s h x) ∧ (u.slot r).event = false ∧
        (u.core r.core).deque = pre ∧ (u.core r.core).rr.val = 0 ∧ u.mem = s.mem) ∧
    (∀ n x, c.candidates = [] → s.serves r.core.die = some r.core → s.firstOffer r.core = some (n, x) → s.offerSeed r.core x = .start h →
      c.slotFreeUnder x.part r.slot = true → x.part = c.part → x.shipped = false →
      ∃ u, exec (.dispatch r) s = .next u ∧ u.task r = some (seedTask s h x) ∧ (u.slot r).event = false ∧
        (u.image r.core.die).ready = removeAt (s.image r.core.die).ready n ∧ u.mem = s.mem) ∧
    (∀ n x, c.quiescent = true → s.firstOffer r.core = some (n, x) → s.offerSeed r.core x = .start h → x.part ≠ c.part →
      ∃ u, exec (.partitionChange r.core) s = .next u ∧ (u.core r.core).part = x.part ∧ (∀ j : BitVec 4, (u.core r.core).handle j = {}) ∧
        (x.tag = none → (u.core r.core).pool = c.pool) ∧ u.mem = s.mem)) ∧
  (∀ (s : State) (h : HoldRef) (tag : Nat) (l : Launch), ((s.hold h).serving.launches.find? fun l => l.key = tag) = some l →
    (∀ p ∈ l.seeds, s.concReady h tag p = true) → (l.seeds.map fun p => s.coreAt h p.hx p.hy).Nodup →
    ∃ u, exec (.concurrentDispatch h tag) s = .next u ∧ u.mem = s.mem ∧
      (u.hold h).serving.launches = ((s.hold h).serving.launches.map fun x => if x.key = tag then { x with seeds := [] } else x) ∧
      ∀ p ∈ l.seeds, ∃ i n x, let c := s.coreAt h p.hx p.hy
        (s.core c).reservedSlot tag = some i ∧ s.concSeed c tag = some n ∧ (s.image c.die).ready[n]? = some x ∧ runsSeed u ⟨c, i⟩ x)

/-- 05 R99, R104, R109, 12 R271: GLEAN_CLUSTER takes one seed from a sibling's deque and starts it; GLEAN_HOLDING takes
min(64, ⌈E / 2⌉) of the E eligible seeds of a neighbour's ready queue, oldest first; RESTORE_SEED_MOVE follows the ladder of R99; a task at its
watchdog's limit is aborted with 0x43; MIGRATE places a migrating seed at the head of the ready queue of its target die, once the
slot's engine operations are complete. The model's readings: a gleaned seed starts in the lowest free slot (log 78; R104 names none),
gleaning between dies counts the seeds of the ready queue alone (log 46), and a watchdog event before the limit changes nothing
(log 23). -/
def Obligations.SeedMoves : Prop :=
  (∀ (c v : CoreRef) (s : State) (h : HoldRef) (k n : Nat) (x : Seed) (i : SlotId), s.holdAt c.die = some (h, k) → s.open h c = true →
    (s.core c).candidates = [] → s.firstOffer c = none → (s.core c).freeSlot.isSome = true → s.gleanVictim c = some (v, n) →
    (s.core v).deque[n]? = some x → ((List.finRange 4).find? ((s.core c).slotFreeUnder x.part)) = some i → s.steer h c.die 0 x = none →
    ∃ u, exec (.gleanCluster c) s = .next u ∧ (u.core v).deque = removeAt (s.core v).deque n ∧ runsSeed u ⟨c, i⟩ x ∧
      x.held = false ∧ 1 ≤ x.cw.toNat / 2 ^ 26 % 4 ∧ u.mem = s.mem) ∧
  (∀ (d : DieId) (s : State) (h : HoldRef) (k v : Nat) (up : Bool), s.holdAt d = some (h, k) → (s.image d).ready = [] →
    (∃ i, s.open h ⟨d, i⟩ = true ∧ (s.core ⟨d, i⟩).freeSlot.isSome = true) →
    ((gleanNeighbours k (s.hold h).dies (s.image d).gleanUp).find? fun y => (s.image (s.dieOf h y.1)).ready.any (farGleanable y.1)) = some (v, up) →
    let q := (s.image (s.dieOf h v)).ready.filter (farGleanable v)
    let m := min 64 ((q.length + 1) / 2)
    ∃ u, exec (.gleanHolding d) s = .next u ∧ (u.image d).ready = (q.take m).map (fun x => { x with shipped := true }) ∧ u.mem = s.mem ∧
      (s.dieOf h v ≠ d → (u.image (s.dieOf h v)).ready.length = (s.image (s.dieOf h v)).ready.length - m)) ∧
  (∀ (r : SlotRef) (s : State) (x : Seed) (xs : List Seed), (∀ h k, s.holdAt r.core.die = some (h, k) → s.frozenHold h = false) → s.retired r.core = false →
    (s.slot r).restore = x :: xs → (s.slot r).parked = false →
    ∃ u, exec (.restoreSeedMove r) s = .next u ∧ u.mem = s.mem ∧
      (x.mig = none → (s.core r.core).deque.length < 32 → (u.core r.core).deque = (s.core r.core).deque ++ [x] ∧ (u.slot r).restore = xs) ∧
      ((x.mig.isSome = true ∨ 32 ≤ (s.core r.core).deque.length) → (s.image r.core.die).ready.length < 4096 →
        (u.image r.core.die).ready = (s.image r.core.die).ready ++ [x.pinned r.core] ∧ (u.slot r).restore = xs)) ∧
  (∀ (r : SlotRef) (s : State) (t : Task), s.task r = some t → (s.slot r).halted = false →
    exec (.handlerWatchdog r) s = .next (if 2 ^ t.w ≤ t.wd then s.takeTrap r ⟨0x43, word (2 ^ t.w), 0⟩ t.pc t.pc false else s)) ∧
  (∀ (r : SlotRef) (s : State) (x : Seed) (m : Migrant), (s.slot r).migrating = some x → x.mig = some m →
    (∀ o ∈ (s.core r.core).plq, o.origin.slot ≠ r.slot) → (∀ o ∈ (s.core r.core).drq, o.origin.slot ≠ r.slot) →
    s.frozenHold m.home.hold = false →
    let target := (s.fullDie m.home.hold m.home.hdie).getD (s.dieOf m.home.hold m.home.hdie)
    (s.image target).ready.length < 4096 →
    ∃ u, exec (.migrate r) s = .next u ∧ (u.slot r).migrating = none ∧ (u.image target).ready = x :: (s.image target).ready ∧ u.mem = s.mem)
namespace Sys2Proof.Claims
open Sys2Proof.Machine

/-! ## Delivery (13 R287 to R290, 12 R267) -/

/-- Packet `n` of a running holding's network is `p`, the first of its flow, for core `c`. -/
def offered (s : State) (h : HoldRef) (n : Nat) (p : Packet) (c : CoreRef) : Prop :=
  s.networkRuns h = true ∧ (s.hold h).net[n]? = some p ∧ firstOfFlow (s.hold h).dies (s.hold h).net n p = true ∧
    c = s.coreAt h (destX p.msg.header) (destY p.msg.header)

/-! ## Memory events (10 R221 to R226, 11 R441) -/

/-- Request `n` of a die waits for a response of the host, within the die's 128 outstanding requests. -/
def asksHost (s : State) (d : DieId) (n : Nat) (q : AtsReq) : Prop :=
  (s.die d).ats[n]? = some q ∧ (q.stage = .asked ∨ q.stage = .repeated) ∧ (s.die d).outstanding n = true

end Sys2Proof.Claims

/-- 12 R267, 13 R287, R288, 05 R97, R110: DELIVER applies a message to its trigger entry, or adds it to the pending list, with the core's next
arrival serial; writes a ring message into its ring; or returns a message for a retired core as a 0x4B record. A message that first reaches
its core sets the event bits. FAULT_RECORD_OFFER fires entry 255 of the supervisor core with the oldest record. -/
def Obligations.Deliveries : Prop :=
  (∀ (h : HoldRef) (n : Nat) (p : Packet) (c : CoreRef) (s : State), offered s h n p c → s.retired c = false →
    let k := s.core c
    (p.msg.header.getLsbD 46 = false →
      let e : BitVec 8 := BitVec.ofNat 8 (p.msg.header.toNat / 2 ^ 16)
      ∀ pl, (consumed (k.trigger e) p.msg ∧ pl = .none) ∨ (¬consumed (k.trigger e) p.msg ∧ placeFor k p.msg.cls = some pl) →
      ∃ u, exec (.deliver h n) s = .next u ∧ (u.hold h).net = removeAt (s.hold h).net n ∧ u.mem = s.mem ∧
        (u.core c).trigger e = arrived (k.trigger e) { p.msg with serial := k.serial, place := pl } ∧ (u.core c).serial = k.serial + 1 ∧
        (∀ g, g ≠ e → (u.core c).trigger g = k.trigger g) ∧ (p.arrived = false → ∀ i, (u.slot ⟨c, i⟩).event = true)) ∧
    (∀ w, p.msg.header.getLsbD 46 = true → p.msg.payload = [w] →
      let i : BitVec 4 := BitVec.ofNat 4 (p.msg.header.toNat / 2 ^ 16)
      let x := k.handle i
      x.init = true → x.prod = 1 → x.size = 8 → x.fill < x.slots →
      ∃ u, exec (.deliver h n) s = .next u ∧ (u.hold h).net = removeAt (s.hold h).net n ∧ u.mem = s.mem ∧
        (u.core c).handle i = { x with tail := (x.tail + 1) % x.slots, fill := x.fill + 1 } ∧ (u.core c).serial = k.serial + 1 ∧
        (u.core c).pool = k.pool.write (poolOffset (x.base + word (8 * (x.tail % x.slots)))) (toBytes 8 w.toNat))) ∧
  (∀ (h : HoldRef) (n : Nat) (p : Packet) (c : CoreRef) (s : State), offered s h n p c → s.retired c = true → p.msg.payload.length ≤ 6 →
    (s.hold h).faultQ.length < 64 →
    ∃ u r, exec (.deliver h n) s = .next u ∧ (u.hold h).net = removeAt (s.hold h).net n ∧ u.mem = s.mem ∧
      (u.hold h).faultQ = (s.hold h).faultQ ++ [r] ∧ r[0].toNat % 2 ^ 8 = 0x4B ∧ r[1] = p.msg.header ∧ r[2] = p.msg.payload.getD 0 0) ∧
  (∀ (h : HoldRef) (c : CoreRef) (s : State) (r : Record) (rs : List Record), s.supervisor h = some c → (s.hold h).faultQ = r :: rs →
    (s.hold h).placed = true → s.frozenHold h = false → ((s.core c).trigger 255).state = .armed → ((s.core c).trigger 255).ret = false →
    ∃ u m, exec (.faultRecordOffer h) s = .next u ∧ (u.hold h).faultQ = rs ∧ m.payload = r.toList ∧ m.serial = (s.core c).serial ∧
      (u.core c).trigger 255 = { (s.core c).trigger 255 with count := 0, state := .runnable, fire := some m } ∧
      (∀ i, (u.slot ⟨c, i⟩).event = true) ∧ u.mem = s.mem)

/-- 10 R221 to R224, R226, 11 R441, 16 R342: the responses of the host fill the translation cache, ask for a page, or fail the waiting access;
the answer for an image that has moved on is discarded, but for that of a page request; an invalidation removes every entry that it touches, on every die, and is
answered once no store that used one waits any more (that a buffered store is what may have used an entry is log 93); an uncorrectable error poisons its line; a host write and a host
read act on the estate's bytes at the home slices, up to the end of the estate's stacks, which is the model's choice (log 30); a late reply changes
nothing. -/
def Obligations.MemoryEvents : Prop :=
  (∀ (d : DieId) (n victim : Nat) (q : AtsReq) (s : State), asksHost s d n q →
    (∀ t, s.answer q = .inl t → ∃ u, exec (.atsCompletion d n victim) s = .next u ∧ t ∈ (u.die d).tlb ∧ u.mem = s.mem ∧
      ∀ x ∈ (u.die d).ats, (x ∈ (s.die d).ats ∧ ¬(t.covers x.pasid x.page = true ∧ t.grants ⟨x.read, x.write, x.exec⟩ = true)) ∨
        (x.paging = true ∧ x.who = .gone)) ∧
    (∀ c, s.answer q = .inr c → q.stage = .asked → s.pageRequests (s.dieFn d) < (s.fn (s.dieFn d)).priAlloc.toNat →
      ∃ u, exec (.atsCompletion d n victim) s = .next u ∧ (u.die d).ats[n]? = some { q with stage := .paging c (s.dieFn d) } ∧
        u.outbox = s.outbox ++ [.pageRequest q.pasid q.page] ∧ u.mem = s.mem) ∧
    (∀ c, s.answer q = .inr c → q.stage = .repeated → q.who ≠ .gone →
      ∃ u, exec (.atsCompletion d n victim) s = .next u ∧ (u.die d).ats[n]? = some { q with stage := .failed c } ∧ u.mem = s.mem)) ∧
  (∀ (d : DieId) (n victim : Nat) (q : AtsReq) (s : State), (s.die d).ats[n]? = some q → q.stage = .stale →
    (s.die d).outstanding n = true → ∃ u, exec (.atsCompletion d n victim) s = .next u ∧ u.mem = s.mem ∧ (u.die d).tlb = (s.die d).tlb ∧
      (u.die d).ats = removeAt (s.die d).ats n) ∧
  (∀ (d : DieId) (n victim : Nat) (q : AtsReq) (c : BitVec 8) (f : Fin 64) (s : State) (ok : Bool), (s.die d).ats[n]? = some q →
    q.stage = .paging c f → ∃ u, exec (.pageRequestResponse d n ok victim) s = .next u ∧ u.mem = s.mem ∧
      (q.who ≠ .gone → (u.die d).ats[n]? = some { q with stage := if ok then .repeated else .failed c }) ∧
      (∀ t, q.who = .gone → ok = true → s.answer q = .inl t → t ∈ (u.die d).tlb)) ∧
  (∀ (pasid : BitVec 20) (base size : Nat) (s : State), ∃ u, exec (.atsInvalidation pasid base size) s = .next u ∧
    ((∀ (r : SlotRef), ∀ b ∈ (s.slot r).stores, ∀ ks ea, b.loc ≠ .mem ks pasid ea) → u.mem = s.mem) ∧
    (∀ r : SlotRef, ∃ pre, (s.slot r).stores = pre ++ (u.slot r).stores ∧
      ∀ b ∈ (u.slot r).stores, ∀ ks ea, b.loc = .mem ks pasid ea → ¬(ea < base + size ∧ base < ea + ks.length)) ∧
    u.outbox = s.outbox ++ [.invalidated pasid base size] ∧
    ∀ d t, t ∈ (u.die d).tlb ↔ t ∈ (s.die d).tlb ∧ ¬(t.pasid = pasid ∧ t.page < base + size ∧ base < t.page + pageBytes t.size)) ∧
  (∀ (c : CoreRef) (n : Nat) (s : State), n < 4096 → ∃ u, exec (.uncorrectableError (.pool c n)) s = .next u ∧
    (u.core c).pool = { (s.core c).pool with poison := NSet.insert (s.core c).pool.poison n } ∧ u.mem = s.mem) ∧
  (∀ (n : Nat) (s : State), 64 * n < 32 * Config.stackBytes →
    exec (.uncorrectableError (.mem n)) s = .next { s with memPoison := NSet.insert s.memPoison n }) ∧
  (∀ (e : Fin 4) (a : Nat) (bs : List Byte) (ep : Bool) (s : State), e.val < s.mode.toNat → a + bs.length ≤ capacity s.mode e →
    let ks := (List.range bs.length).map fun i => stackAddr s.mode e (a + i)
    ∃ u, exec (.hostWrite e a bs ep) s = .next u ∧ u = { s with
      mem := Memory.writeAll s.mem (ks.zip bs), rung := u.rung
      memPoison := if ep then NSet.insertAll s.memPoison (ks.map (· / 64)) else NSet.eraseAll s.memPoison (wholeMemLines ks) }) ∧
  (∀ (e : Fin 4) (a len : Nat) (s : State), e.val < s.mode.toNat → a + len ≤ capacity s.mode e →
    let ks := (List.range len).map fun i => stackAddr s.mode e (a + i)
    exec (.hostRead e a len) s = .next { s with
      outbox := s.outbox ++ [.readData (ks.map (Memory.get s.mem)) (ks.any fun k => s.memPoison.contains (k / 64))] }) ∧
  (∀ (d : DieId) (s : State), exec (.lateReply d) s = .next s)

namespace Sys2Proof.Claims
open Sys2Proof.Machine

/-! ## Headlands (16 R333 to R348, 19 R400, R401) -/

/-- Nothing waits for the end of a pause in the estate: no command, no reset, no retirement, no harvest (16 R343). -/
def nothingHeld (s : State) (e : Fin 4) : Prop :=
  (∀ i, (s.hold ⟨e, i⟩).resetHeld = false) ∧ (s.estate e).resetHeld = false ∧ s.health.todo = [] ∧ s.harvest.cut = none

/-- A die has no migrating seed of a holding, in its ready queue or in a slot of its cores (12 R271). -/
def noMigrantsOn (u : State) (h : HoldRef) (d : DieId) : Prop :=
  (∀ x ∈ (u.image d).ready, ∀ m, x.mig = some m → m.home.hold ≠ h) ∧
    ∀ k i x m, (u.slot ⟨⟨d, k⟩, i⟩).migrating = some x → x.mig = some m → m.home.hold ≠ h

/-- A holding has no guest and no migrating seed on a die that is not its own (12 R271). -/
def allAtHome (s : State) (h : HoldRef) : Prop :=
  (∀ (r : SlotRef) (t : Task), s.task r = some t → t.home.isSome = true → s.taskHold r t = h → r.core.die ∈ s.diesOf h) ∧
  ∀ d, d ∉ s.diesOf h → noMigrantsOn s h d

/-- A gang switch of estate `e` is under way, and sends index `i` out. -/
def gangOut (s : State) (e : Fin 4) (i : Fin 8) : Prop :=
  ∃ t n outs ins, (s.estate e).phase = .draining t n false outs ins ∧ i ∈ outs

/-- ESTATE-RESET of estate `e` is under way (19 R408). -/
def estateResets (s : State) (e : Fin 4) : Prop := ∃ c, (s.estate e).pending = some c ∧ c.op = 9 ∧ c.begun = true

/-- Estate `e` exists, its sequencer runs (21 R439), and its next headland is due (16 R335); a gang switch does not hold it back (16 R332). -/
def headlandDue (s : State) (e : Fin 4) : Prop :=
  6 ≤ s.bootStage.toNat ∧ e.val < s.mode.toNat ∧ ((s.estate e).phase = .running ∨ (s.estate e).phase.gang = true) ∧ (s.estate e).due ≤ s.panelNs

/-- The turn of an occupant is over (19 R401): it has stood for its slice, and a member of its group is OUT. One that a STOP is closing stays
(log 52). -/
def leaves (s : State) (e : Fin 4) (i : Fin 8) : Prop :=
  let x := s.hold ⟨e, i⟩
  x.state = .running ∧ s.stopping ⟨e, i⟩ = false ∧ max 1 x.slice.toNat ≤ x.stood + 1 ∧
    ∃ j, (s.hold ⟨e, j⟩).state = .out ∧ (s.hold ⟨e, j⟩).group = x.group

/-- No region of the estate reads a time later than the one at which its dispatch stops (14 R305). -/
def stopNoted (s u : State) (e : Fin 4) : Prop := ∀ d ∈ courseDies s.mode e, ∀ k, (s.coreTime ⟨d, k⟩).toNat ≤ (u.estate e).stopTime

/-- The event-pending bits of every slot of the dies are set (16 R335). -/
def eventsSet (u : State) (ds : List DieId) : Prop := ∀ d ∈ ds, ∀ k i, (u.slot ⟨⟨d, k⟩, i⟩).event = true

end Sys2Proof.Claims

/-- 16 R332 to R340, R348: a drain begins when its headland is due and no permitted deferral holds it back, for at most 15,604 ns; tasks that
still run after 16,384 cycles are aborted with 0x46; then the image of every die moves to the next die of the course and what is fixed to
the die stays; dispatch opens again once every region has passed the latest time at the stop of dispatch by 32 ns, with the sequencer, the counts
and the plough pointers advanced. HL.CTL takes an interval of 1,000 to 100,000 only. The
order in which the model walks a drain's tasks is its own (log 2), and so are the moment at which the new position is held (log 49), the stay of
a holding that a STOP is closing (log 52), the gang switch that becomes part of a drain (log 47), and that an event offered too early changes
nothing (log 23). -/
def Sys2Proof.Claims.Headlands : Prop :=
  (∀ (e : Fin 4) (s : State), Claims.headlandDue s e → (s.deferring e = [] ∨ (s.estate e).due + 15604 ≤ s.panelNs) →
    ∃ u outs ins, exec (.drain e) s = .next u ∧ (u.estate e).phase = .draining s.panelNs 0 true outs ins ∧
      (∀ i, i ∈ outs ↔ if (s.estate e).saving then (s.hold ⟨e, i⟩).placed = true else Claims.leaves s e i ∨ Claims.gangOut s e i) ∧
      (u.estate e).deferred = [] ∧ (∀ h, u.hold h = s.hold h) ∧ u.mem = s.mem ∧ (∀ c, u.paused ⟨e, c⟩ = true) ∧
      Claims.eventsSet u (courseDies s.mode e) ∧ Claims.stopNoted s u e ∧
      (∀ h, s.harvest.cut = some h → h.est = e → u.harvest.armed = true)) ∧
  (∀ (e : Fin 4) (s : State), s.bootStage.toNat < 6 ∨ s.panelNs < (s.estate e).due ∨ (s.deferring e ≠ [] ∧ s.panelNs < (s.estate e).due + 15604) →
    exec (.drain e) s = .next s) ∧
  (∀ (e : Fin 4) (s : State) (t n : Nat) (m : Bool) (outs ins : List (Fin 8)), (s.estate e).phase = .draining t n m outs ins →
    exec (.drainWatchdog e) s = .next (if n < 16384 then s else (s.pausedTasks e).foldl (fun (u : State) r =>
      match u.task r with | some k => u.takeTrap r { cause := 0x46 } k.pc k.pc false | none => u) s)) ∧
  (∀ (e : Fin 4) (s : State) (t n : Nat), e.val < s.mode.toNat → (s.estate e).phase = .draining t n true [] [] → s.pausedTasks e = [] →
    (s.estate e).saving = false → (s.estate e).pending = none → s.pmNext = none →
    let q := (courseDies s.mode e).foldl State.quiet s
    ∃ u, exec (.headlandMove e) s = .next u ∧ (u.estate e).phase = .moved t true [] [] ∧
      (∀ p, u.image (dieAt s.mode e (p + 1)) = q.image (dieAt s.mode e p)) ∧
      (∀ d, (∀ p, d ≠ dieAt s.mode e p) → u.image d = q.image d) ∧ (∀ d, { u.die d with ats := [] } = { s.die d with ats := [] }) ∧
      (∀ i, (u.hold ⟨e, i⟩).position =
        if (s.hold ⟨e, i⟩).state = .absent then (s.hold ⟨e, i⟩).position else ((s.hold ⟨e, i⟩).position + 1) % courseLen s.mode e) ∧
      (∀ i, (s.hold ⟨e, i⟩).placed = true →
        (u.hold ⟨e, i⟩).stood = if s.turnOver ⟨e, i⟩ then 0 else (s.hold ⟨e, i⟩).stood + 1) ∧ u.mem = q.mem) ∧
  (∀ (e : Fin 4) (s : State) (t : Nat) (outs ins : List (Fin 8)), (s.estate e).phase = .moved t true outs ins → (s.estate e).pending = none →
    Claims.nothingHeld s e → s.timePassed e = true →
    ∃ u, exec (.headlandResume e) s = .next u ∧ (u.estate e).phase = .running ∧ (u.estate e).count = (s.estate e).count + 1 ∧
      (u.estate e).due = (s.estate e).due + 1000 * (s.estate e).interval.toNat ∧
      (∀ i, (u.hold ⟨e, i⟩).hlcount = (s.hold ⟨e, i⟩).hlcount + if (s.hold ⟨e, i⟩).placed then 1 else 0) ∧
      (∀ d ∈ courseDies s.mode e, ∀ k, (u.cluster d k).p = 7 ∧ (u.cluster d k).cr = 0) ∧
      ((∀ d ∈ courseDies s.mode e, (s.image d).stood = (s.die d).retired) → u.mem = s.mem)) ∧
  (∀ (e : Fin 4) (s : State) (t : Nat) (outs ins : List (Fin 8)) (d : DieId) (k : CoreIdx), (s.estate e).phase = .moved t true outs ins →
    d ∈ courseDies s.mode e → (s.coreTime ⟨d, k⟩).toNat < (s.estate e).stopTime + 32 → exec (.headlandResume e) s = .next s) ∧
  (∀ (p : BitVec 1) (e : Fin 4) (s : State) (v : Word), s.isOpen = true → s.isSteward p = true → e.val < s.mode.toNat →
    ∃ u, exec (.hlCtlWrite p e v) s = .next u ∧ u.mem = s.mem ∧ (∀ h, u.hold h = s.hold h) ∧
      (u.estate e).deferEn = v.extractLsb' 32 8 ∧ (u.estate e).due = (s.estate e).due ∧
      (u.estate e).interval = if 1000 ≤ v.toNat % 2 ^ 17 ∧ v.toNat % 2 ^ 17 ≤ 100000 then v.extractLsb' 0 17 else (s.estate e).interval)

/-- 19 R399, R400, 14 R305: a gang switch begins at its time, outside the 15,604 ns before a headland, and drains the holding's dies alone (that
it does not begin while a change of partition mode waits is the model's choice, log 53); once its
tasks are gone, SWITCH-OUT saves the images and leaves the dies fallow, at the same position of the course, and SWITCH-IN places the holding on the
run of its group once every region has passed the stop by 32 ns. -/
def Sys2Proof.Claims.GangSwitches : Prop :=
  (∀ (e : Fin 4) (s : State) (c : Command), e.val < s.mode.toNat → (s.estate e).phase = .running → (s.estate e).pending = some c → c.begun = true →
    c.op = 5 ∨ c.op = 6 → c.time ≤ s.panelNs → s.panelNs + 15604 < (s.estate e).due → (s.estate e).saving = false → s.pmNext = none →
    ∃ u, exec (.gangSwitch e) s = .next u ∧ u.mem = s.mem ∧ (∀ h, u.hold h = s.hold h) ∧ Claims.stopNoted s u e ∧
      (c.op = 5 → Claims.eventsSet u (s.diesOf ⟨e, c.hold⟩)) ∧
      (u.estate e).phase = .draining s.panelNs 0 false (if c.op = 5 then [c.hold] else []) (if c.op = 6 then [c.hold] else [])) ∧
  (∀ (e : Fin 4) (s : State) (c : Command), (s.estate e).phase = .running → (s.estate e).pending = some c →
    s.panelNs < c.time ∨ (s.estate e).due ≤ s.panelNs + 15604 ∨ s.pmNext.isSome = true → exec (.gangSwitch e) s = .next s) ∧
  (∀ (e : Fin 4) (s : State) (c : Command) (t n : Nat), (s.estate e).phase = .draining t n false [c.hold] [] → s.pausedTasks e = [] →
    (s.estate e).pending = some c → c.op = 5 → c.begun = true → (s.hold ⟨e, c.hold⟩).state = .running → Claims.nothingHeld s e →
    Claims.allAtHome s ⟨e, c.hold⟩ →
    let q := (s.diesOf ⟨e, c.hold⟩).foldl State.quiet s
    ∃ u, exec (.gangSwitch e) s = .next u ∧ u.mem = q.mem ∧ (u.estate e).phase = .running ∧ (u.estate e).pending = none ∧
      (u.estate e).hmStat = ⟨0, false, 0⟩ ∧ (u.hold ⟨e, c.hold⟩).state = .out ∧ (u.hold ⟨e, c.hold⟩).position = (s.hold ⟨e, c.hold⟩).position ∧
      (u.hold ⟨e, c.hold⟩).hlcount = (s.hold ⟨e, c.hold⟩).hlcount ∧
      (u.hold ⟨e, c.hold⟩).images = (s.diesOf ⟨e, c.hold⟩).map q.image ∧
      ∀ d ∈ s.diesOf ⟨e, c.hold⟩, u.image d = { stood := (s.die d).retired }) ∧
  (∀ (e : Fin 4) (s : State) (c : Command) (t n : Nat), (s.estate e).phase = .draining t n false [] [c.hold] → s.pausedTasks e = [] →
    (s.estate e).pending = some c → c.op = 6 → c.begun = true → Claims.nothingHeld s e →
    (s.timePassed e = false → exec (.gangSwitch e) s = .next s) ∧
    (s.timePassed e = true → (s.hold ⟨e, c.hold⟩).state = .out → s.runFallow e (s.hold ⟨e, c.hold⟩).position (s.hold ⟨e, c.hold⟩).dies = true →
      ∃ u, exec (.gangSwitch e) s = .next u ∧ (u.estate e).phase = .running ∧ (u.estate e).pending = none ∧
        (u.estate e).hmStat.pending = false ∧ (u.estate e).hmStat.status = 0 ∧ (u.hold ⟨e, c.hold⟩).state = .running ∧
        (u.hold ⟨e, c.hold⟩).position = (s.hold ⟨e, c.hold⟩).position ∧ (u.hold ⟨e, c.hold⟩).stood = 0 ∧
        (u.hold ⟨e, c.hold⟩).hlcount = (s.hold ⟨e, c.hold⟩).hlcount))

namespace Sys2Proof.Claims
open Sys2Proof.Machine

/-! ## Holding commands (19 R392 to R410) -/

/-- The steward writes HM.CMD of estate `e` through port `p` with op value `op` for index `i`, outside a pause, while nothing excludes the
command (19 R395 to R397) and no ESTATE-RESET is held; ESTATE-RESET is taken while another command is pending. -/
def commands (s : State) (p : BitVec 1) (e : Fin 4) (op : Nat) (i : Fin 8) (v : Word) : Prop :=
  v.toNat = op + 2 ^ 8 * i.val ∧ s.isOpen = true ∧ s.isSteward p = true ∧ e.val < s.mode.toNat ∧ (s.estate e).phase = .running ∧
    ((s.estate e).pending = none ∨ op = 9) ∧ (s.estate e).resetHeld = false ∧ s.pmNext = none ∧ s.transplant.target ≠ some ⟨e, i⟩ ∧ s.harvest.stat.pending = false

/-- HM.ARG holds the fields of R396, with every reserved bit 0. -/
def argIs (s : State) (e : Fin 4) (vf dies w j share slice : Nat) : Prop :=
  (s.estate e).hmArg.toNat = vf + 2 ^ 8 * dies + 2 ^ 16 * w + 2 ^ 24 * j + 2 ^ 27 * share + 2 ^ 32 * slice ∧
    vf < 128 ∧ dies < 64 ∧ w < 32 ∧ j < 8 ∧ share < 2 ∧ slice < 256

/-- HM.ARG has no reserved bit set. -/
def argClean (s : State) (e : Fin 4) : Prop := ∃ vf dies w j share slice, argIs s e vf dies w j share slice

/-- The watchdog fields that CREATE and SET-WD take (R396, R399): 0, which means 20, or 12 to 30. -/
def goodW (w : Nat) : Prop := w = 0 ∨ (12 ≤ w ∧ w ≤ 30)

/-- CREATE for a function that is bound nowhere, on an ABSENT index. -/
def creates (s : State) (e : Fin 4) (i : Fin 8) (vf dies w : Nat) : Prop :=
  goodW w ∧ 1 ≤ dies ∧ dies ≤ courseLen s.mode e ∧ 1 ≤ vf ∧ vf ≤ 63 ∧ (s.hold ⟨e, i⟩).state = .absent ∧
    ∀ h, (s.hold h).state ≠ .absent → (s.hold h).vf.toNat ≠ vf

/-- HM.STAT of a command that has ended. -/
def endsCommand (u : State) (e : Fin 4) (status detail : Nat) : Prop :=
  (u.estate e).pending = none ∧ (u.estate e).hmStat = ⟨BitVec.ofNat 8 status, false, BitVec.ofNat 16 detail⟩

/-- A command that goes on. -/
def keepsCommand (u : State) (e : Fin 4) (op : Nat) (i : Fin 8) (time : Nat) : Prop :=
  (u.estate e).pending = some { op := op, hold := i, time := time, begun := true } ∧ (u.estate e).hmStat.pending = true

/-- No store waits on the dies (11 R245). -/
def noStores (s : State) (ds : List DieId) : Prop := ∀ d ∈ ds, ∀ k i, (s.slot ⟨⟨d, k⟩, i⟩).stores = []

/-- A die stands as at CREATE (R399), with the marks of the retired cores below it (16 R444). -/
def freshDie (s u : State) (d : DieId) : Prop := u.image d = { stood := (s.die d).retired }

/-- A die has become fallow: nothing of a holding is left on it but its cores' pools (07 R151, 16 R331). -/
def fallowDie (s u : State) (d : DieId) : Prop :=
  u.image d = { stood := (s.die d).retired, cores := (u.image d).cores } ∧ ∀ k, u.core ⟨d, k⟩ = { pool := (u.core ⟨d, k⟩).pool }

/-- The pools of a die are as before. -/
def samePools (s u : State) (d : DieId) : Prop := ∀ k, (u.core ⟨d, k⟩).pool = (s.core ⟨d, k⟩).pool

/-- No task of a holding stands as a guest (12 R272). -/
def noGuests (s : State) (h : HoldRef) : Prop := ∀ r ∈ s.slotsOf h, ∀ t, s.task r = some t → t.home = none

/-- A holding has no migrating seed on any die (12 R271). -/
def noMigrants (u : State) (h : HoldRef) : Prop := ∀ d, noMigrantsOn u h d

/-- The command that estate `e` carries on, while no ESTATE-RESET is held. -/
def carries (s : State) (e : Fin 4) (op : Nat) (i : Fin 8) : Prop :=
  (s.estate e).resetHeld = false ∧ ∃ c, (s.estate e).pending = some c ∧ c.op = op ∧ c.hold = i ∧ c.begun = true

end Sys2Proof.Claims

/-- 19 R392 to R402, R404, 16 R331: CREATE places a holding on the lowest fallow run, or makes it a member of a share group, and answers NO-RUN
where there is no run or the estate holds 8 holdings; DESTROY leaves its dies fallow, with the bytes of their pools, and nothing of it elsewhere (on the dies of others, by log 50); START, SET-WD and the switches act in the states that R393
and R399 name; a command while another is pending is refused with BUSY. The weights that stay are log 51. -/
def Sys2Proof.Claims.HoldingCommands : Prop :=
  (∀ (p : BitVec 1) (e : Fin 4) (i : Fin 8) (v : Word) (s : State) (vf dies w j slice q : Nat), Claims.commands s p e 1 i v → Claims.argIs s e vf dies w j 0 slice →
    Claims.creates s e i vf dies w → s.findRun e dies = some q → ∃ u, exec (.create p e v) s = .next u ∧ Claims.endsCommand u e 0 q ∧
      u.hold ⟨e, i⟩ = {
        weights := (s.hold ⟨e, i⟩).weights, state := .running, vf := BitVec.ofNat 7 vf, dies := dies,
        w := if w = 0 then 20 else w, slice := BitVec.ofNat 8 slice, position := q, group := i } ∧
      ((∀ k < dies, (s.image (dieAt s.mode e (q + k))).cores = [] ∧ (s.image (dieAt s.mode e (q + k))).ready = []) →
        u.mem = s.mem ∧ ∀ k < dies, Claims.freshDie s u (dieAt s.mode e (q + k)))) ∧
  (∀ (p : BitVec 1) (e : Fin 4) (i : Fin 8) (v : Word) (s : State) (vf dies w j slice : Nat), Claims.commands s p e 1 i v → Claims.argIs s e vf dies w j 0 slice →
    (Claims.creates s e i vf dies w ∧ s.findRun e dies = none) ∨
      (Claims.goodW w ∧ 1 ≤ dies ∧ dies ≤ courseLen s.mode e ∧ 1 ≤ vf ∧ vf ≤ 63 ∧ ∀ k, (s.hold ⟨e, k⟩).state ≠ .absent) →
    ∃ u, exec (.create p e v) s = .next u ∧ Claims.endsCommand u e 2 0 ∧ u.mem = s.mem ∧ ∀ h, u.hold h = s.hold h) ∧
  (∀ (p : BitVec 1) (e : Fin 4) (i : Fin 8) (v : Word) (s : State) (vf dies w slice : Nat) (j : Fin 8), Claims.commands s p e 1 i v →
    Claims.argIs s e vf dies w j.val 1 slice → Claims.creates s e i vf dies w → (s.hold ⟨e, j⟩).state ≠ .absent → (s.hold ⟨e, j⟩).dies = dies →
    ∃ u, exec (.create p e v) s = .next u ∧ Claims.endsCommand u e 0 0 ∧ u.mem = s.mem ∧ (u.hold ⟨e, i⟩).state = .out ∧
      (u.hold ⟨e, i⟩).group = (u.hold ⟨e, j⟩).group ∧ (u.hold ⟨e, i⟩).position = (s.hold ⟨e, j⟩).position ∧ (u.hold ⟨e, i⟩).dies = dies ∧
      (u.hold ⟨e, i⟩).vf.toNat = vf ∧ (u.hold ⟨e, i⟩).images = List.replicate dies {} ∧ ∀ d, u.image d = s.image d) ∧
  (∀ (p : BitVec 1) (e : Fin 4) (i : Fin 8) (v : Word) (s : State), Claims.commands s p e 2 i v → Claims.argClean s e →
    ((s.hold ⟨e, i⟩).state = .stopped ∨ (s.hold ⟨e, i⟩).state = .out) → ∃ u, exec (.destroy p e v) s = .next u ∧ Claims.endsCommand u e 0 0 ∧
      u.hold ⟨e, i⟩ = { weights := (s.hold ⟨e, i⟩).weights, lseed := (s.hold ⟨e, i⟩).lseed } ∧
      Claims.noMigrants u ⟨e, i⟩ ∧ (∀ r ∈ s.slotsOf ⟨e, i⟩, u.task r = none) ∧ ((∀ r, (s.slot r).stores = []) → u.mem = s.mem ∧
        ((s.hold ⟨e, i⟩).state = .stopped → ∀ d ∈ s.diesOf ⟨e, i⟩, Claims.fallowDie s u d ∧
          (Claims.noGuests s ⟨e, i⟩ → Claims.samePools s u d))) ∧
      ((s.hold ⟨e, i⟩).state = .out → s.slotsOf ⟨e, i⟩ = [] → Claims.noMigrants s ⟨e, i⟩ → u.mem = s.mem ∧ ∀ d, u.image d = s.image d)) ∧
  (∀ (p : BitVec 1) (e : Fin 4) (i : Fin 8) (v : Word) (s : State), Claims.commands s p e 4 i v → Claims.argClean s e → (s.hold ⟨e, i⟩).state = .stopped →
    ∃ u, exec (.start p e v) s = .next u ∧ Claims.endsCommand u e 0 0 ∧ u.mem = s.mem ∧
      u.hold ⟨e, i⟩ = { s.hold ⟨e, i⟩ with state := .running, closed := false, exported := none }) ∧
  (∀ (p : BitVec 1) (e : Fin 4) (i : Fin 8) (v : Word) (s : State), Claims.commands s p e 5 i v → Claims.argClean s e → (s.hold ⟨e, i⟩).state = .running →
    ∃ u, exec (.switchOut p e v) s = .next u ∧ Claims.keepsCommand u e 5 i (s.estate e).hmTime.toNat ∧ u.mem = s.mem ∧ ∀ h, u.hold h = s.hold h) ∧
  (∀ (p : BitVec 1) (e : Fin 4) (i : Fin 8) (v : Word) (s : State), Claims.commands s p e 6 i v → Claims.argClean s e → (s.hold ⟨e, i⟩).state = .out →
    s.runFallow e (s.hold ⟨e, i⟩).position (s.hold ⟨e, i⟩).dies = true → ∃ u, exec (.switchIn p e v) s = .next u ∧
      Claims.keepsCommand u e 6 i (s.estate e).hmTime.toNat ∧ u.mem = s.mem ∧ ∀ h, u.hold h = s.hold h) ∧
  (∀ (p : BitVec 1) (e : Fin 4) (i : Fin 8) (v : Word) (s : State) (vf dies w j share slice : Nat), Claims.commands s p e 7 i v →
    Claims.argIs s e vf dies w j share slice → Claims.goodW w → (s.hold ⟨e, i⟩).state ≠ .absent →
    ∃ u, exec (.setWd p e v) s = .next u ∧ Claims.endsCommand u e 0 0 ∧ u.mem = s.mem ∧
      u.hold ⟨e, i⟩ = { s.hold ⟨e, i⟩ with w := if w = 0 then 20 else w }) ∧
  (∀ (p : BitVec 1) (e : Fin 4) (i : Fin 8) (op : Nat) (v : Word) (s : State) (c : Command), v.toNat = op + 2 ^ 8 * i.val → op < 9 → s.isOpen = true →
    s.isSteward p = true → e.val < s.mode.toNat → (s.estate e).pending = some c → ∀ x, (x, op) ∈ [(Instr.create p e v, 1), (.destroy p e v, 2),
      (.stop p e v ⟨true, false⟩, 3), (.stop p e v ⟨false, false⟩, 3), (.start p e v, 4), (.switchOut p e v, 5), (.switchIn p e v, 6), (.setWd p e v, 7), (.resetHolding p e v false, 8)] →
    ∃ u, exec x s = .next u ∧ (u.estate e).hmStat.status = 1 ∧ (u.estate e).pending = some c ∧ ∀ h, u.hold h = s.hold h)

/-- 19 R405 to R408, 16 R343: STOP closes dispatch and ends once the holding is idle, with its dirty-page report in the host's memory; RESET and a
function-level reset withdraw a holding, its tasks and seeds at once, and leave it as at CREATE; ESTATE-RESET leaves an estate empty, and one that
is written in a pause is held till its end with no effect on a command that is pending. That STOP stays pending while the host does not
translate the report's place is log 92. What a reset keeps is log 51 (the weights
and the group) and log 71 (the count of headlands starts at 0, and the period of its position reports stays); which lines ESTATE-RESET discards,
of those that the estate's slices hold, is log 28. -/
def Obligations.HoldingResets : Prop :=
  (∀ (p : BitVec 1) (e : Fin 4) (i : Fin 8) (v : Word) (reach : Bool) (s : State), Claims.commands s p e 3 i v → Claims.argClean s e →
    (s.hold ⟨e, i⟩).state = .running → ∃ u, exec (.stop p e v ⟨reach, false⟩) s = .next u ∧ Claims.keepsCommand u e 3 i 0 ∧ u.mem = s.mem ∧
      u.hold ⟨e, i⟩ = { s.hold ⟨e, i⟩ with closed := true }) ∧
  (∀ (p : BitVec 1) (e : Fin 4) (i : Fin 8) (v : Word) (s : State), Claims.carries s e 3 i → (s.hold ⟨e, i⟩).state = .running → s.busy ⟨e, i⟩ = false →
    s.enginesBusy ⟨e, i⟩ = false → (s.serving ⟨e, i⟩).walker = [] →
    let q := (s.diesOf ⟨e, i⟩).foldl State.flushDie s
    let ps := (q.hold ⟨e, i⟩).written
    let room := (s.estate e).hmDprLen.toNat % 2 ^ 24
    exec (.stop p e v ⟨false, true⟩) s = .next s ∧ ∃ u, exec (.stop p e v ⟨true, true⟩) s = .next u ∧ Claims.endsCommand u e 0 (min (min ps.length room) 65535) ∧ u.mem = q.mem ∧
      u.hold ⟨e, i⟩ = { q.hold ⟨e, i⟩ with state := .stopped, written := [] } ∧
      u.hostMem = Memory.write s.hostMem (s.estate e).hmDpr.toNat (bytesOf (word (min ps.length room) :: (if room < ps.length then 1 else 0) ::
        (ps.take (min ps.length room)).flatMap fun x => [word x.1, word x.2]))) ∧
  (∀ (p : BitVec 1) (e : Fin 4) (i : Fin 8) (v : Word) (s : State), Claims.commands s p e 8 i v → Claims.argClean s e → (s.hold ⟨e, i⟩).state ≠ .absent →
    (s.hold ⟨e, i⟩).state ≠ .resetting → ∃ u, exec (.resetHolding p e v false) s = .next u ∧ Claims.keepsCommand u e 8 i 0 ∧
      ((∀ r, (s.slot r).stores = []) → u.mem = s.mem) ∧ (u.hold ⟨e, i⟩).state = .resetting ∧ (u.hold ⟨e, i⟩).resetFrom = (s.hold ⟨e, i⟩).state ∧ (u.serving ⟨e, i⟩).launches = [] ∧
      Claims.noMigrants u ⟨e, i⟩ ∧ (∀ r ∈ s.slotsOf ⟨e, i⟩, u.task r = none) ∧ ((s.hold ⟨e, i⟩).placed = true → ∀ d ∈ s.diesOf ⟨e, i⟩,
        (u.image d).ready = [] ∧ ∀ k, (u.core ⟨d, k⟩).deque = [] ∧ ∀ j, (u.slot ⟨⟨d, k⟩, j⟩).restore = [] ∧ (u.slot ⟨⟨d, k⟩, j⟩).migrating = none)) ∧
  (∀ (p : BitVec 1) (e : Fin 4) (i : Fin 8) (v : Word) (s : State), Claims.carries s e 8 i → (s.hold ⟨e, i⟩).state = .resetting →
    s.enginesBusy ⟨e, i⟩ = false → (∀ x ∈ (s.hold ⟨e, i⟩).net, x.arrived = false) →
    let x := s.hold ⟨e, i⟩
    ∃ u, exec (.resetHolding p e v true) s = .next u ∧ Claims.endsCommand u e 0 (min x.cancelled 65535) ∧
      u.hold ⟨e, i⟩ = {
        state := x.resetFrom, vf := x.vf, dies := x.dies, position := x.position, w := x.w, slice := x.slice, group := x.group,
        posNs := x.posNs, weights := x.weights, closed := x.closed, lastDies := x.lastDies, written := x.written,
        images := if x.resetFrom = .out then List.replicate x.dies {} else [] } ∧
      (x.resetFrom = .out → u.mem = s.mem ∧ ∀ d, u.image d = s.image d) ∧
      (x.resetFrom ≠ .out → Claims.noStores s (s.diesOf ⟨e, i⟩) → u.mem = s.mem ∧ ∀ d ∈ s.diesOf ⟨e, i⟩, Claims.freshDie s u d)) ∧
  (∀ (p : BitVec 1) (e : Fin 4) (i : Fin 8) (v : Word) (lost : List (Nat × Byte)) (s : State), Claims.commands s p e 9 i v → Claims.argClean s e →
    ∃ u, exec (.estateReset p e v lost false) s = .next u ∧ Claims.keepsCommand u e 9 0 0 ∧
      ((∀ r, (s.slot r).stores = []) → u.mem = s.mem) ∧ (u.estate e).phase = .running ∧
      (u.estate e).hmStat.status = (if (s.estate e).pending = none then (s.estate e).hmStat.status else 7) ∧
      ∀ k, (u.hold ⟨e, k⟩).state = if (s.hold ⟨e, k⟩).state = .absent then .absent else .resetting) ∧
  (∀ (p : BitVec 1) (e : Fin 4) (i : Fin 8) (v : Word) (lost : List (Nat × Byte)) (s : State) (t n : Nat) (outs ins : List (Fin 8)),
    v.toNat = 9 + 2 ^ 8 * i.val → s.isOpen = true → s.isSteward p = true → e.val < s.mode.toNat → s.pmNext = none → s.harvest.stat.pending = false →
    Claims.argClean s e → (s.estate e).phase = .draining t n true outs ins ∨ (s.estate e).phase = .moved t true outs ins →
    ∃ u, exec (.estateReset p e v lost false) s = .next u ∧ (u.estate e).resetHeld = true ∧ (u.estate e).pending = (s.estate e).pending ∧
      (u.estate e).hmStat = { (s.estate e).hmStat with pending := true } ∧ u.mem = s.mem ∧ ∀ h, u.hold h = s.hold h) ∧
  (∀ (p : BitVec 1) (e : Fin 4) (i : Fin 8) (v : Word) (lost : List (Nat × Byte)) (s : State), Claims.carries s e 9 i →
    (∀ k, (s.hold ⟨e, k⟩).state = .absent ∨ ((s.hold ⟨e, k⟩).state = .resetting ∧ s.enginesBusy ⟨e, k⟩ = false)) →
    s.fitSlices e lost = true → ∃ u, exec (.estateReset p e v lost true) s = .next u ∧ Claims.endsCommand u e 0 0 ∧ (u.estate e).count = 0 ∧
      (u.estate e).phase = .running ∧
      (u.estate e).due = s.panelNs + 1000 * (s.estate e).interval.toNat ∧ (∀ k, (u.hold ⟨e, k⟩).state = .absent) ∧
      (∀ d ∈ courseDies s.mode e, (u.die d).tlb = []) ∧ (Claims.noStores s (courseDies s.mode e) →
        (∀ a, (∀ x ∈ lost, x.1 ≠ a) ∨ a / Config.stackBytes ∉ sites s.mode e → Memory.get u.mem a = Memory.get s.mem a) ∧
        ∀ d ∈ courseDies s.mode e, Claims.fallowDie s u d ∧ Claims.samePools s u d)) ∧
  (∀ (fn : Fin 64) (h : HoldRef) (s : State), s.holdOfFn fn = some h → (s.hold h).state ≠ .resetting →
    ∃ u, exec (.functionLevelReset fn false) s = .next u ∧ (u.estate h.est).hmStat = (s.estate h.est).hmStat ∧
      ((∀ r, (s.slot r).stores = []) → u.mem = s.mem) ∧
      (if s.paused h then u.hold h = { s.hold h with resetHeld := true }
        else (u.hold h).state = .resetting ∧ (u.hold h).resetFrom = (s.hold h).state ∧ ∀ r ∈ s.slotsOf h, u.task r = none)) ∧
  (∀ (fn : Fin 64) (h : HoldRef) (s : State), s.holdOfFn fn = some h → (s.hold h).state = .resetting → s.enginesBusy h = false →
    (s.estate h.est).pending = none → ∃ u, exec (.functionLevelReset fn true) s = .next u ∧
      (Claims.noStores s (s.diesOf h) → u.mem = s.mem) ∧ (u.hold h).state = (s.hold h).resetFrom ∧
      (u.hold h).vf = (s.hold h).vf ∧ (u.hold h).position = (s.hold h).position ∧ (u.hold h).hlcount = 0 ∧ (u.estate h.est).hmStat = (s.estate h.est).hmStat)

/-- 19 R409, R410: a write of PM.CTL changes the partition mode of a panel on which no holding stands, and is refused with BUSY where one does and
the drain bit is clear; with the drain bit set the change waits until every estate has saved its holdings. That the count of every estate starts at
0, that its sequencer begins anew and that a pending command ends are log 53, what an index keeps is log 51, and that an index which receives a
holding takes its weights HM.PW, while those of every other index read 0 again, is the model's choice (log 121). -/
def Sys2Proof.Claims.PartitionModes : Prop :=
  (∀ (p : BitVec 1) (v : Word) (m : BitVec 3) (s : State), s.isOpen = true → s.isSteward p = true → v.toNat % 2 ^ 3 = m.toNat → (m = 1 ∨ m = 2 ∨ m = 4) →
    m ≠ s.mode → s.pmNext = none →
    ((∀ h, (s.hold h).state = .absent) → ∃ u, exec (.partitionModeWrite p v) s = .next u ∧ u.mode = m ∧ u.pmStatus = 0 ∧ u.mem = s.mem ∧
      (∀ h, u.hold h = { lseed := (s.hold h).lseed }) ∧ (∀ d, (u.die d).tlb = []) ∧
      ∀ e, (u.estate e).phase = .running ∧ (u.estate e).pending = none ∧ (u.estate e).count = 0 ∧
        (u.estate e).due = s.panelNs + 1000 * (s.estate e).interval.toNat) ∧
    ((∃ h, (s.hold h).state = .running) → v.getLsbD 8 = false → ∃ u, exec (.partitionModeWrite p v) s = .next u ∧ u.mode = s.mode ∧ u.pmStatus = 1 ∧
      ∀ h, u.hold h = s.hold h) ∧
    (∀ e, (s.hold ⟨e, 0⟩).state = .running → (∀ h, h ≠ ⟨e, 0⟩ → (s.hold h).state = .absent) → (s.hold ⟨e, 0⟩).dies ≤ 8 → v.getLsbD 8 = true →
      (s.estate e).phase = .running ∨ (s.estate e).phase.gang = true →
      ∃ u, exec (.partitionModeWrite p v) s = .next u ∧ u.mode = s.mode ∧ u.pmStatus = 2 ∧ u.pmNext = some m ∧ (u.estate e).saving = true ∧
        ∀ h, u.hold h = s.hold h))

namespace Sys2Proof.Claims
open Sys2Proof.Machine

/-! ## Launches and rings (18 R367 to R380, 19 R404) -/

/-- A write of a register of the holding that function `fn` is bound to reaches it (19 R392, 20 R411, 21 R439). -/
def ownsRegister (s : State) (fn : Fin 64) (h : HoldRef) : Prop :=
  s.holdOfFn fn = some h ∧ 7 ≤ s.bootStage.toNat ∧ fn.val ≤ s.numVfs.toNat

/-- The ring that a control write enables (18 R368): head and tail 0, and every field of the write that the rule admits. -/
def enabled (x : Ring) (v : Word) (launch : Bool) : Ring :=
  { x with
    head := 0, tail := 0, en := true, fault := x.fault && !v.getLsbD 21, pasid := v.extractLsb' 32 20
    lsize := if v.toNat % 32 < 4 ∨ 16 < v.toNat % 32 then x.lsize else v.extractLsb' 0 5
    tickets := if launch then (if v.extractLsb' 24 8 = 0 then 1 else v.extractLsb' 24 8) else x.tickets
    prio := if launch then v.extractLsb' 22 2 else x.prio }

/-- What the collective engine finds when it reads the tail of a ring of the holding (20 R421). -/
def tailRead (s : State) (h : HoldRef) (x : Ring) : Ring :=
  match s.sysRead h.est x.pasid (s.serving h).crTaddr.toNat 8 with
  | none => { x with fault := true, tail := x.head }
  | some bs => { x with tail := BitVec.ofNat 16 (ofBytes bs % 2 ^ 64 % 2 ^ 16 % 2 ^ x.lsize.toNat) }

/-- A holding takes launch entries (18 R371). -/
def takes (s : State) (h : HoldRef) : Prop :=
  (s.hold h).state = .running ∧ (s.hold h).closed = false ∧ s.paused h = false ∧ (s.serving h).outstanding < 64 ∧ (s.serving h).waitingCq.length < 64

/-- The entry that LAUNCH_TAKE works on, and the state once its queue's HEAD has advanced: the entry that is being loaded, or else the
one at the head of the queue that is chosen (18 R371). -/
def takesEntry (s : State) (h : HoldRef) (l : Loading) (s1 : State) : Prop :=
  takes s h ∧ (((s.serving h).loading = some l ∧ s1 = s) ∨
    ((s.serving h).loading = none ∧ ∃ q x, (s.hold h).chooseQueue = some (q, x) ∧
      let k := x.serving.lq[q]
      l = ⟨q, k.base.toNat + 64 * k.head.toNat, k.pasid⟩ ∧
      s1 = s.setHold h { x with serving := { x.serving with lq := vset x.serving.lq q { k with head := ringNext k k.head }, loading := some l } }))
/-- State `p` is `m` with the entry done with: nothing is being loaded, and where the launch met ENTRY-FAULT its queue says so. -/
def doneWith (m p : State) (h : HoldRef) (q : Fin 16) (fault : Bool) : Prop :=
  p.mem = m.mem ∧ p.images = m.images ∧ p.outbox = m.outbox ∧ (p.serving h) = { m.serving h with
    loading := none
    lq := if fault then vset (m.serving h).lq q { (m.serving h).lq[q] with fault := true } else (m.serving h).lq }
/-- A launch of entry `l` ends with a completion of this tag and status, no seed placed (18 R374). -/
def endsLaunch (m u : State) (h : HoldRef) (l : Loading) (tag : Word) (status : BitVec 8) : Prop :=
  ∃ p, doneWith m p h l.queue (decide (status = 3)) ∧ completed p u h ⟨1, status, BitVec.ofNat 16 l.queue.val, tag, 0, m.time⟩

/-- The fields of an entry (18 R370). -/
def entryBad (bs : List Byte) : Prop := 2 ≤ field bs 24 4 ∨ field bs 28 4 ≠ 0 ∨ field bs 0 8 % 8 ≠ 0 ∨ field bs 8 8 % 4096 ≠ 0
def entryTag (bs : List Byte) : Word := word (field bs 16 8)
/-- The entry, its record's header and the record's relocations are read and accepted (18 R371, 02 R443). -/
def entryRead (s : State) (h : HoldRef) (l : Loading) (bs : List Byte) : Prop :=
  s.sysRead h.est l.pasid l.entry 64 = some bs ∧ ¬entryBad bs
def headerRead (s : State) (h : HoldRef) (l : Loading) (bs hd : List Byte) : Prop :=
  entryRead s h l bs ∧ s.sysRead h.est l.pasid (field bs 0 8) 240 = some hd ∧ recordBad hd (s.hold h).dies = false
def recordRead (s : State) (h : HoldRef) (l : Loading) (bs hd rel : List Byte) : Prop :=
  let r := parseRecord hd
  headerRead s h l bs hd ∧ s.sysRead h.est l.pasid (field bs 0 8 + 240) (8 * r.relocs) = some rel ∧
    ∀ w ∈ wordsOf r.relocs rel, r.relocBad w.toNat = false
/-- The bytes of a record after its relocations: the pool data, padded to a multiple of 8, and the image (02 R47). -/
def restOf (bs hd : List Byte) : Nat × Nat :=
  (field bs 0 8 + 240 + 8 * (parseRecord hd).relocs, (parseRecord hd).poolPadded + (parseRecord hd).imageSize)

/-- The loader's copy of bytes to rising addresses, and its relocations in place (02 R48): `q` is what they leave of `p`. -/
def copied (e : Fin 4) (pasid : BitVec 20) : Nat → List Byte → State → State → Prop
  | _, [], p, q => q = p
  | dst, b :: bs, p, q => ∃ m, p.sysWrite e pasid (dst % 2 ^ 64) [b] = some m ∧ copied e pasid (dst + 1) bs m q
def relocated (e : Fin 4) (pasid : BitVec 20) (base : Nat) : List Word → State → State → Prop
  | [], p, q => q = p
  | w :: ws, p, q => ∃ old m, p.sysRead e pasid ((base + w.toNat) % 2 ^ 64) 8 = some old ∧
      p.sysWrite e pasid ((base + w.toNat) % 2 ^ 64) (bytesOf [word (ofBytes old + base)]) = some m ∧ relocated e pasid base ws m q
/-- The loader has done its work (02 R48): nothing for a resident entry, and otherwise the image is copied and relocated. -/
def imageLoaded (s1 m : State) (h : HoldRef) (l : Loading) (bs hd rel rest : List Byte) : Prop :=
  let r := parseRecord hd
  (field bs 24 4 = 1 → m = s1) ∧
  (field bs 24 4 = 0 → s1.sysRead h.est l.pasid (restOf bs hd).1 (restOf bs hd).2 = some rest ∧
    ∃ n, copied h.est l.pasid (field bs 8 8) (rest.drop r.poolPadded) s1 n ∧
      relocated h.est l.pasid (field bs 8 8) (wordsOf r.relocs rel) n m)

/-- The first address of a range at which a system engine's access finds no translation or lacks the permission. -/
def firstMiss (m : State) (e : Fin 4) (pasid : BitVec 20) (write : Bool) (ea len x : Nat) : Prop :=
  ∃ i < len, x = (ea + i) % 2 ^ 64 ∧ m.sysByte e pasid write x = none ∧ ∀ j < i, m.sysByte e pasid write ((ea + j) % 2 ^ 64) ≠ none
/-- The access of the loader at `x` can never be made: its translation request on holding die 0 has failed, or there is none and the host
grants a page outside the estate's memory (log 104). -/
def neverMapped (m : State) (h : HoldRef) (l : Loading) (x : Nat) (write : Bool) : Prop :=
  let mine := fun (r : AtsReq) => r.who = Waiter.loader h ∧ r.pasid = l.pasid ∧ r.page = page4k x
  (∃ pre r post c, (m.die (m.dieOf h 0)).ats = pre ++ r :: post ∧ (∀ y ∈ pre, ¬mine y) ∧ mine r ∧ r.stage = .failed c) ∨
  ((∀ y ∈ (m.die (m.dieOf h 0)).ats, ¬mine y) ∧ ∃ k, m.iommuMap l.pasid x = some k ∧ (if write then k.write else k.read) = true)
/-- A range that the loader has come to read, with the tag that it then knows (18 R371). -/
def comesToRead (s : State) (h : HoldRef) (l : Loading) (tag : Word) (ea len : Nat) : Prop :=
  (ea = l.entry ∧ len = 64 ∧ tag = 0) ∨
  (∃ bs, entryRead s h l bs ∧ tag = entryTag bs ∧ ea = field bs 0 8 ∧ len = 240) ∨
  (∃ bs hd, headerRead s h l bs hd ∧ tag = entryTag bs ∧ ea = field bs 0 8 + 240 ∧ len = 8 * (parseRecord hd).relocs) ∨
  (∃ bs hd rel, recordRead s h l bs hd rel ∧ (s.classOk h (parseRecord hd) = true → s.launchRoom h (parseRecord hd) = true) ∧
    field bs 24 4 = 0 ∧ tag = entryTag bs ∧ (ea, len) = restOf bs hd)
/-- The image is being copied or relocated and has come to an access at `x` that cannot be made; `m` is what stands then. -/
def comesToWrite (s1 m : State) (h : HoldRef) (l : Loading) (tag : Word) (x : Nat) (write : Bool) : Prop :=
  ∃ bs hd rel rest, recordRead s1 h l bs hd rel ∧ (s1.classOk h (parseRecord hd) = true → s1.launchRoom h (parseRecord hd) = true) ∧
    field bs 24 4 = 0 ∧ tag = entryTag bs ∧ s1.sysRead h.est l.pasid (restOf bs hd).1 (restOf bs hd).2 = some rest ∧
    let image := rest.drop (parseRecord hd).poolPadded
    let base := field bs 8 8
    ((∃ pre b post, image = pre ++ b :: post ∧ copied h.est l.pasid base pre s1 m ∧ x = (base + pre.length) % 2 ^ 64 ∧ write = true ∧
        m.sysByte h.est l.pasid true x = none) ∨
      ∃ n pre w post, wordsOf (parseRecord hd).relocs rel = pre ++ w :: post ∧ copied h.est l.pasid base image s1 n ∧
        relocated h.est l.pasid base pre n m ∧ firstMiss m h.est l.pasid write ((base + w.toNat) % 2 ^ 64) 8 x ∧
        (write = true → ∀ j < 8, m.sysByte h.est l.pasid false ((base + w.toNat + j) % 2 ^ 64) ≠ none))

/-- The seed of a launch for the core at a coordinate (02 R42, R48; 05 R105). -/
def launchSeed (s : State) (h : HoldRef) (l : Loading) (bs hd : List Byte) (c : Coord) : Seed :=
  let r := parseRecord hd
  let core := s.coreAt h c.hx c.hy
  { r.seed l.pasid (word (field bs 8 8)) s.nextId core.idx with
    shipped := decide ((s.core core).part ≠ r.part ∨ (s.core core).saved.isSome = true), waits := decide (r.cls = 2) }
/-- The dispatcher accepts a concurrent launch (05 R105): every core of the region that is not retired has a slot, enabled under the launch's word,
that no concurrent launch has reserved. -/
def concurrentFits (s : State) (h : HoldRef) (r : LaunchRec) : Prop :=
  ∀ c ∈ s.regionCores h r, ∃ i : SlotId, i.val < r.part.toNat % 4 + 1 ∧ (s.slot ⟨s.coreAt h c.hx c.hy, i⟩).reserved = none

/-- One draw of the lottery (19 R404). -/
def lottery (x : W32) : W32 :=
  let a := x ^^^ (x <<< 13)
  let b := a ^^^ (a >>> 17)
  b ^^^ (b <<< 5)

end Sys2Proof.Claims

/-- 18 R370 to R372, 02 R42, R43, R48, R443, 05 R105: a launch whose record is accepted has its image copied to the image base and relocated,
unless it is resident, places one seed on each live core of its region, in the ready queues and in row-major order, and records its
shape; what the loader copies is the record as it stood before the first byte of the image was written; a core under the launch's
word receives the pool data at once, and a seed whose core works under another word, or holds a guest, is marked `shipped`, so that the core
receives it later (a guest's core: log 16).
The seeds of a concurrent launch wait, each with a slot reserved. -/
def Sys2Proof.Claims.LaunchPlaces : Prop :=
  ∀ (h : HoldRef) (s s1 m : State) (l : Loading) (bs hd rel rest : List Byte), Claims.takesEntry s h l s1 → Claims.recordRead s1 h l bs hd rel →
    let r := parseRecord hd
    let cs := s.regionCores h r
    let at_ := fun (c : Coord) => s.coreAt h c.hx c.hy
    s.launchRoom h r = true → (∀ c ∈ cs, illFormed (Claims.launchSeed s h l bs hd c) (s.hold h).dies = false) →
    (r.cls = 2 → Claims.concurrentFits s h r ∧ (cs.map at_).Nodup) →
    Claims.imageLoaded s1 m h l bs hd rel rest → (∀ x ∈ (s.serving h).launches, x.key ≠ s.nextId) →
    ∃ u, exec (.launchTake h) s = .next u ∧ u.mem = m.mem ∧ (u.serving h).loading = none ∧ (u.serving h).lq = (m.serving h).lq ∧
      (∃ x, (u.serving h).launches.map (·.key) = (s.serving h).launches.map (·.key) ++ [x.key] ∧ x ∈ (u.serving h).launches ∧ x.key = s.nextId ∧
        x.etag = Claims.entryTag bs ∧ x.queue = l.queue ∧ x.placed = cs.length ∧ x.cls = r.cls ∧ x.part = r.part ∧
        (∀ i : Fin 4, x.shape[i] = word (field bs (32 + 8 * i.val) 8)) ∧ (r.cls = 2 → x.seeds = cs)) ∧
      (∀ d, (u.image d).ready = (s.image d).ready ++ (cs.filter fun c => (at_ c).die = d).map (Claims.launchSeed s h l bs hd)) ∧
      (r.cls = 2 → ∀ c ∈ cs, ∃ i : SlotId, i.val < r.part.toNat % 4 + 1 ∧ (s.slot ⟨at_ c, i⟩).reserved = none ∧
        (u.slot ⟨at_ c, i⟩).reserved = some s.nextId) ∧
      (field bs 24 4 = 0 → ∀ c ∈ cs, (s.core (at_ c)).part = r.part → (s.core (at_ c)).poolOf ≠ some s.nextId →
        ∀ i < r.poolSize, Memory.get (u.core (at_ c)).pool.bytes (scratchBase r.part + i) = rest.getD i 0)

/-- 18 R371, R374, 02 R48, R443, 05 R105: the refusals of a launch, each of which completes at once and places no seed: RECORD-REFUSED for an
ill-formed entry or record, CLASS-REFUSED for a concurrent launch that does not fit, and ENTRY-FAULT, with fault set in the queue's
control, where an access of the loader can never be made; image bytes written before stand. A launch that is refused for its class leaves every
pool as it was. -/
def Sys2Proof.Claims.LaunchRefusals : Prop :=
  ∀ (h : HoldRef) (s s1 : State) (l : Loading), Claims.takesEntry s h l s1 →
    let ends := fun (m : State) (tag : Word) (status : BitVec 8) => ∃ u, exec (.launchTake h) s = .next u ∧ Claims.endsLaunch m u h l tag status
    (∀ bs, s1.sysRead h.est l.pasid l.entry 64 = some bs →
      (Claims.entryBad bs ∨
        (∃ hd, s1.sysRead h.est l.pasid (field bs 0 8) 240 = some hd ∧ recordBad hd (s.hold h).dies = true) ∨
        (∃ hd rel, Claims.headerRead s1 h l bs hd ∧ s1.sysRead h.est l.pasid (field bs 0 8 + 240) (8 * (parseRecord hd).relocs) = some rel ∧
          ∃ w ∈ wordsOf (parseRecord hd).relocs rel, (parseRecord hd).relocBad w.toNat = true)) →
      ends s1 (Claims.entryTag bs) 2) ∧
    (∀ (m : State) (bs hd rel rest : List Byte), Claims.recordRead s1 h l bs hd rel → (parseRecord hd).cls = 2 → ¬Claims.concurrentFits s h (parseRecord hd) →
      Claims.imageLoaded s1 m h l bs hd rel rest → ends m (Claims.entryTag bs) 1) ∧
    (∀ tag ea len x, Claims.comesToRead s1 h l tag ea len → Claims.firstMiss s1 h.est l.pasid false ea len x → Claims.neverMapped s1 h l x false →
      ends s1 tag 3) ∧
    (∀ m tag x write, Claims.comesToWrite s1 m h l tag x write → Claims.neverMapped m h l x write → ends m tag 3)

/-- 18 R373 to R375, 19 R404: a launch that nothing bears any more completes, after a fence over its holding's stores, with status OK and the
seeds that it placed, and its tag is freed; two queues of one owner and priority share by the lottery. -/
def Sys2Proof.Claims.LaunchEnds : Prop :=
  (∀ (h : HoldRef) (s : State) (l : Launch), ((s.serving h).launches.find? fun x => x.key = l.key) = some l → s.work h l = false →
    (s.serving h).waitingCq.length < 64 → ∃ p u, exec (.launchComplete h l.key) s = .next u ∧ p.mem = (s.fenceHold h).mem ∧
      p.outbox = (s.fenceHold h).outbox ∧
      (p.serving h) = { (s.fenceHold h).serving h with launches := (s.serving h).launches.filter fun x => x.key ≠ l.key } ∧
      Claims.completed p u h ⟨1, 0, BitVec.ofNat 16 l.queue.val, l.etag, word l.placed, s.time⟩) ∧
  (∀ (x : Holding) (a b : Fin 16), x.serving.contenders = [a, b] → x.serving.lq[a].pasid = x.serving.lq[b].pasid →
    x.serving.lq[a].prio = x.serving.lq[b].prio → 0 < x.serving.lq[a].tickets.toNat → 0 < x.serving.lq[b].tickets.toNat →
    ∃ y, x.chooseQueue = some (if (Claims.lottery x.lseed).toNat % (x.serving.lq[a].tickets.toNat + x.serving.lq[b].tickets.toNat) <
      x.serving.lq[a].tickets.toNat then a else b, y) ∧ y.lseed = Claims.lottery x.lseed)

/-- 18 R368, R369, R374, R375, R379, R380, 20 R421: enabling a ring sets its head and tail to 0, and the collective engine reads its tail at once; a write of SV.CQ.HEAD frees room, and the completions that wait
are written as far as the ring takes them; KV.COUNT makes the free
list only while no sequence is active; the walker pushes the oldest retirement's pages one by one and then writes its completion at the
tail of the completion ring, whose phase flips where the tail returns to 0. -/
def Sys2Proof.Claims.RingServices : Prop :=
  (∀ (fn : Fin 64) (h : HoldRef) (ring : RingId) (v : Word) (s : State), Claims.ownsRegister s fn h → v.getLsbD 16 = true →
    ((s.serving h).ring ring).en = false → (s.serving h).waitingCq = [] → ∃ u, exec (.ringEnable fn ring v) s = .next u ∧ u.mem = s.mem ∧
      (u.serving h).ring ring = (if ring = .collective then Claims.tailRead s h (Claims.enabled ((s.serving h).ring ring) v false)
        else Claims.enabled ((s.serving h).ring ring) v (isLaunch ring)) ∧ (ring = .completion → (u.serving h).cqPhase = true)) ∧
  (∀ (fn : Fin 64) (h : HoldRef) (v : Word) (s : State), Claims.ownsRegister s fn h →
    ∃ u, exec (.svCqHeadWrite fn v) s = .next u ∧ Claims.drains h (s.serving h).waitingCq (Claims.withServing s h { s.serving h with
      cqStuck := false, cq := { (s.serving h).cq with head := BitVec.ofNat 16 (v.toNat % 2 ^ 16 % 2 ^ (s.serving h).cq.lsize.toNat) } }) u) ∧
  (∀ (fn : Fin 64) (h : HoldRef) (v : Word) (s : State), Claims.ownsRegister s fn h →
    let x := s.serving h
    let idle := x.walker = [] ∧ ∀ p ∈ x.seqs, p.2.active = false
    (idle → exec (.kvCountWrite fn v) s = .next (Claims.withServing s h { x with
      kvBusy := false, kvCount := v.extractLsb' 0 20, kvFree := List.range (v.toNat % 2 ^ 20), kvBaseTaken := x.kvBase, kvPasidTaken := x.rq.pasid })) ∧
    (¬idle → exec (.kvCountWrite fn v) s = .next (Claims.withServing s h { x with kvBusy := true }))) ∧
  (∀ (h : HoldRef) (s : State) (x : Retirement) (xs : List Retirement) (p : Nat) (ps : List Nat), (s.serving h).walker = x :: xs → x.left = p :: ps →
    exec (.walkerPush h) s = .next (Claims.withServing s h { s.serving h with
      kvFree := p :: (s.serving h).kvFree, walker := { x with left := ps } :: xs })) ∧
  (∀ (h : HoldRef) (s s1 : State) (x : Retirement) (xs : List Retirement),
    let v := s.serving h
    let tail := Claims.ringNext v.cq v.cq.tail
    v.walker = x :: xs → x.left = [] → v.cq.en = true → v.cqStuck = false → tail ≠ v.cq.head →
    s.sysWrite h.est v.cq.pasid (v.cq.base.toNat + 32 * v.cq.tail.toNat) (bytesOf [
      word ((if v.cqPhase then 2 ^ 63 else 0) + x.slot % 2 ^ 16 * 2 ^ 16 + x.status.toNat * 2 ^ 8 + 2), x.id,
      word (x.tokens.toNat + x.pages * 2 ^ 32 + x.index.toNat * 2 ^ 48), x.time]) = some s1 →
    ∃ u, exec (.walkerCompletion h) s = .next u ∧ u.mem = s1.mem ∧ (u.serving h).walker = xs ∧ (u.serving h).cq = { v.cq with tail := tail } ∧
      (u.serving h).cqPhase = if tail = 0 then !v.cqPhase else v.cqPhase)

namespace Sys2Proof.Claims
open Sys2Proof.Machine

/-! ## The steward (20 R412 to R415) -/

/-- HOST.EVT after an event sets one of its bits. -/
def hostEventSet (u s : State) (b : Nat) : Prop := u.hostEvt = s.hostEvt ||| BitVec.ofNat 7 (2 ^ b)

/-- The count of denied writes after one more, saturating. -/
def deniedMore (s : State) : State :=
  { s with steward := { s.steward with denied := BitVec.ofNat 16 (min (s.steward.denied.toNat + 1) 65535) } }

end Sys2Proof.Claims

/-- 20 R412 to R415: a port becomes steward by a claim while there is none, port 0 before port 1 where both claim in one cycle; the steward renews
its lease, hands stewardship over with its key, or resigns with its own key; it is steward no longer when its lease has expired or its link goes
down; a write by another port changes nothing but the count of denied writes, which a read of STW.STAT clears. That a handover begins the lease again
is the model's (log 80). -/
def Sys2Proof.Claims.Stewardship : Prop :=
  ∀ (p : BitVec 1) (v : Word) (s : State),
    let x := s.steward
    let lease := s.panelNs + 1000000 * x.lease.toNat
    (v.getLsbD 16 = true → s.led = false → ∃ u, exec (.stewardClaim p ⟨v, none⟩) s = .next u ∧
      u.steward = { x with valid := true, port := p, key := v.extractLsb' 0 16, deadline := lease } ∧
      (if x.valid then Claims.hostEventSet u s 2 else u.hostEvt = s.hostEvt) ∧ u.estates = s.estates ∧ u.mem = s.mem) ∧
    (∀ w : Word, w.getLsbD 16 = true → s.led = false → ∃ u, exec (.stewardClaim p ⟨v, some w⟩) s = .next u ∧
      u.steward = (if v.getLsbD 16 = true ∧ p = 0 then { x with valid := true, port := p, key := v.extractLsb' 0 16, deadline := lease }
        else { x with valid := true, port := ~~~p, key := w.extractLsb' 0 16, deadline := lease })) ∧
    (∀ other, s.led = true → exec (.stewardClaim p ⟨v, other⟩) s = .next s) ∧
    (v.getLsbD 16 = false → x.valid = false ∨ s.led = true → exec (.stewardClaim p ⟨v, none⟩) s = .next s) ∧
    (v.getLsbD 16 = false → s.isSteward p = true → v.extractLsb' 0 16 = x.key → ∃ u, exec (.stewardResign p v) s = .next u ∧
      u.steward = { x with valid := false } ∧ Claims.hostEventSet u s 2 ∧ u.estates = s.estates ∧ u.mem = s.mem) ∧
    (v.getLsbD 16 = true ∨ s.isSteward p = false ∨ v.extractLsb' 0 16 ≠ x.key → exec (.stewardResign p v) s = .next s) ∧
    (s.isSteward p = true → v.getLsbD 8 = true → ∃ u, exec (.stewardHandover p v) s = .next u ∧
      u.steward = { x with port := v.extractLsb' 0 1, deadline := lease } ∧ Claims.hostEventSet u s 3 ∧ u.estates = s.estates ∧ u.mem = s.mem) ∧
    (s.isSteward p = true → exec (.stwBeat p) s = .next { s with steward := { x with deadline := lease } }) ∧
    (s.isSteward p = false → exec (.stewardHandover p v) s = .next (Claims.deniedMore s) ∧ exec (.stwBeat p) s = .next (Claims.deniedMore s)) ∧
    (∀ down : Bool, if x.valid = true ∧ (down = true ∨ x.deadline ≤ s.panelNs) then
        ∃ u, exec (.stewardLapse down) s = .next u ∧ u.steward = { x with valid := false } ∧ Claims.hostEventSet u s 2 ∧ u.estates = s.estates ∧ u.mem = s.mem
      else exec (.stewardLapse down) s = .next s) ∧
    exec (.stwStatRead p) s = .next { s with outbox := s.outbox ++ [.register (x.denied.setWidth 64)], steward := { x with denied := 0 } }

namespace Sys2Proof.Claims
open Sys2Proof.Machine

/-! ## Host commands, registers and bring-up (20 R411 to R418, R428, 21 R439) -/

/-- A write through port `p` reaches the block of virtual function `fn`, bound to holding `h` (20 R411, R416, 21 R439). -/
def hcReaches (s : State) (fn : Fin 64) (p : BitVec 1) (h : HoldRef) : Prop := p = 0 ∧ ownsRegister s fn h

/-- A write of HC.CMD that reaches its block while no command is pending. -/
def hcReady (s : State) (fn : Fin 64) (p : BitVec 1) (h : HoldRef) : Prop := hcReaches s fn p h ∧ (s.fn fn).hcPending = false

/-- HC.ARG names a core of the holding and what `low` holds at bit 32, with every reserved bit 0 (20 R416). -/
def hcNames (s : State) (fn : Fin 64) (h : HoldRef) (x y low : Nat) : Prop :=
  (∃ i e, i < 8 ∧ e < 4 ∧ (s.fn fn).hcArg.toNat = x + 2 ^ 16 * y + 2 ^ 32 * low + 2 ^ 40 * i + 2 ^ 44 * e) ∧ x < 2 ^ 16 ∧ y < 2 ^ 16 ∧
    (s.hold h).placed = true ∧ s.inGrid h x y = true ∧ s.retired (s.coreAt h x y) = false

/-- What the release of SV-RESUME leaves: every store that waits in a slot of the holding's supervisor core is performed (12 R274, 20 R417). -/
def released (s : State) (h : HoldRef) : State :=
  match s.supervisor h with
  | some c => (List.finRange 4).foldl (fun (q : State) i => q.flush ⟨c, i⟩) s
  | none => s

/-- HC.STAT. -/
def hcAnswers (u : State) (fn : Fin 64) (status : Nat) : Prop := (u.fn fn).hcPending = false ∧ (u.fn fn).hcStatus = BitVec.ofNat 8 status

end Sys2Proof.Claims

/-- 20 R411, R416 to R418: through a virtual function that port 0 presents, SV-RESUME performs the stores that wait in the slots of the supervisor core (those of all four: log 93) and
releases a parked slot of the function's own holding as `resume` does, or answers NOT-PARKED; SET-DBG writes the core's `dbg` and releases its held seeds where release is 1; SURVEY writes its report at
HC.ADDR in the function's own context (log 92), after the pause if one goes on; a command while another is pending is answered BUSY; a function that
the port does not present takes no write. -/
def Obligations.HostCommands : Prop :=
  (∀ (fn : Fin 64) (p : BitVec 1) (h : HoldRef) (s : State) (x y k : Nat), Claims.hcReady s fn p h → k < 8 → Claims.hcNames s fn h x y k →
    let r : SlotRef := ⟨s.coreAt h x y, ⟨k % 4, Nat.mod_lt _ (by decide)⟩⟩
    let m := Claims.released s h
    ((s.slot r).parked = false → s.haltedGuest ⟨h, x / 20, r.core.idx, r.slot⟩ = none →
      ∃ u, exec (.svResume fn p) s = .next u ∧ Claims.hcAnswers u fn 5 ∧ u.images = s.images ∧ u.mem = s.mem) ∧
    (∀ t, (s.slot r).parked = true → (s.slot r).halted = true → s.task r = some t → k < 4 →
      ∃ u, exec (.svResume fn p) s = .next u ∧ Claims.hcAnswers u fn 0 ∧ u.task r = some { t.load (m.imageBytes r) with kept := [], parts := [] } ∧
        (u.slot r).parked = false ∧ u.mem = m.mem ∧ ∀ c i, s.supervisor h = some c → (u.slot ⟨c, i⟩).stores = []) ∧
    ((s.slot r).parked = true → s.task r = none →
      ∃ u, exec (.svResume fn p) s = .next u ∧ Claims.hcAnswers u fn 0 ∧ u.task r = none ∧ (u.slot r).parked = false ∧ u.mem = m.mem)) ∧
  (∀ (fn : Fin 64) (p : BitVec 1) (h : HoldRef) (s : State) (x y d : Nat), Claims.hcReady s fn p h → d < 32 → Claims.hcNames s fn h x y d →
    let c := s.coreAt h x y
    ∃ u, exec (.setDbg fn p) s = .next u ∧ Claims.hcAnswers u fn 0 ∧ u.mem = s.mem ∧ (u.core c).regs = { (s.core c).regs with dbg := word (d % 16) } ∧
      (u.core c).deque = (if d < 16 then (s.core c).deque else (s.core c).deque.map fun q => { q with held := false })) ∧
  (∀ (fn : Fin 64) (p : BitVec 1) (h : HoldRef) (s : State), Claims.hcReady s fn p h → (s.fn fn).hcArg = 0 →
    ((s.estate h.est).inPause = false → (s.hold h).placed = true → s.parkedOf h = [] → 512 + 32 * (s.hold h).dies ≤ (s.fn fn).hcLen.toNat →
      ∃ u bs, exec (.survey fn p true false) s = .next u ∧ Claims.hcAnswers u fn 0 ∧ u.mem = s.mem ∧ u.images = s.images ∧
        (u.fn fn).hostMem = Memory.write (s.fn fn).hostMem (s.fn fn).hcAddr.toNat bs ∧ u.hostMem = s.hostMem ∧ bs.length = 512 + 32 * (s.hold h).dies ∧
        field bs 0 4 = 0x53565259 ∧ field bs 4 2 = 1 ∧ field bs 6 1 = s.mode.toNat) ∧
    ((s.estate h.est).inPause = true → ∃ u, exec (.survey fn p true false) s = .next u ∧ (u.fn fn).hcPending = true ∧
      (u.fn fn).hostMem = (s.fn fn).hostMem ∧ u.hostMem = s.hostMem ∧ u.mem = s.mem)) ∧
  (∀ (fn : Fin 64) (p : BitVec 1) (s : State), fn ≠ 0 → p = 1 ∨ s.numVfs.toNat < fn.val →
    ∀ x ∈ [Instr.survey fn p true false, .svResume fn p, .setDbg fn p], exec x s = .next s) ∧
  (∀ (fn : Fin 64) (p : BitVec 1) (h : HoldRef) (s : State), Claims.hcReaches s fn p h → (s.fn fn).hcPending = true →
    ∀ x ∈ [Instr.survey fn p true false, .svResume fn p, .setDbg fn p], ∃ u, exec x s = .next u ∧ (u.fn fn).hcPending = true ∧ (u.fn fn).hcStatus = 1 ∧
      u.images = s.images ∧ u.hostMem = s.hostMem ∧ (u.fn fn).hostMem = (s.fn fn).hostMem)

/-- 00 R3, 18 R367, R368, R374, 19 R395, R402, 20 R411 to R416, R422, R428, 21 R430, R434, R439: registers stand at the offsets of their tables, and take
what the steward writes, within the ranges of their rules (NumVFs: log 107; HM.ARG, which keeps all 64 bits: log 122); a port that is not steward changes nothing but the count of denied writes, and before stage 7 the blocks that are not served
take no write at all; a power-on that passes ends at stage 7 in
mode 4 with the failing cores retired, its failed units recorded, every region at panel time (log 12) and the sequencers begun, and one that fails
stops at its stage; ATTEST writes its report at SEC.ADDR; an unmasked vector sends
the message that was pending; NumVFs reads 0 on port 1, where no virtual function is presented, and the registers of a function that a port does not
present read 0; the host's memory, as the physical function and each virtual one reach it, outlasts a power-on. What a power-on clears where no rule says so is log 9 and log 87; the report's layout is log 65. -/
def Sys2Proof.Claims.HostRegisters : Prop :=
  (∀ (fn : Fin 64) (p : BitVec 1) (v : Word) (s : State), s.isOpen = true → s.isSteward p = true →
    let n17 := v.toNat % 2 ^ 17
    let n14 := v.toNat % 2 ^ 14
    let n15 := v.toNat % 2 ^ 15
    exec (.registerWrite fn p .stwLease v) s = .next { s with
      steward := { s.steward with lease := if 100 ≤ n17 ∧ n17 ≤ 60000 then v.extractLsb' 0 17 else s.steward.lease } } ∧
    exec (.registerWrite fn p .collTmo v) s = .next { s with collTmo := if 1 ≤ n14 ∧ n14 ≤ 10000 then v.extractLsb' 0 14 else s.collTmo } ∧
    exec (.registerWrite fn p .pwrEnv v) s = .next { s with
      power := { s.power with env := if 6000 ≤ n15 ∧ n15 ≤ 14000 then v.extractLsb' 0 15 else s.power.env } } ∧
    exec (.registerWrite fn p .hostEvt v) s = .next { s with hostEvt := s.hostEvt &&& ~~~(v.extractLsb' 0 7) } ∧
    exec (.registerWrite fn p .hostMask v) s = .next { s with hostMask := v.extractLsb' 0 7 } ∧
    exec (.registerWrite fn p .wearWarn v) s = .next { s with health := { s.health with warn := v.extractLsb' 0 16 } } ∧
    exec (.registerWrite fn p .secAddr v) s = .next { s with security := { s.security with addr := v } } ∧
    exec (.registerWrite fn p .hvStep v) s = .next { s with harvest := { s.harvest with step := v } } ∧
    (∀ k : Fin 16, ∃ u, exec (.registerWrite fn p (.slCtl k) v) s = .next u ∧
      u.links[k] = { s.links[k] with en := v.getLsbD 0, expected := v.extractLsb' 16 48 }) ∧
    (∀ e : Fin 4, e.val < s.mode.toNat → ∃ u, exec (.registerWrite fn p (.hmArg e) v) s = .next u ∧ u.estate e = { s.estate e with hmArg := v }) ∧
    (∀ (e : Fin 4) (i : Fin 8), e.val < s.mode.toNat → ∃ u, exec (.registerWrite fn p (.lseed e i) v) s = .next u ∧
      u.hold ⟨e, i⟩ = { s.hold ⟨e, i⟩ with lseed := if v.extractLsb' 0 32 = 0 then 1 else v.extractLsb' 0 32 })) ∧
  (∀ (fn : Fin 64) (p : BitVec 1) (v : Word) (s : State), s.isOpen = true → s.isSteward p = false →
    ∀ r ∈ [HostReg.stwLease, .collTmo, .pwrEnv, .hostEvt, .hostMask, .wearWarn, .secAddr, .hvTab, .hvN, .hvStep, .slCtl 3, .hmArg 0, .hmTime 0, .trTicket 0, .secNonce 1],
      exec (.registerWrite fn p r v) s = .next (Claims.deniedMore s)) ∧
  (∀ (fn : Fin 64) (p : BitVec 1) (v : Word) (s : State), s.isOpen = false → s.isSteward p = false →
    (∀ r ∈ [HostReg.stwLease, .secAddr, .secNonce 1], exec (.registerWrite fn p r v) s = .next (Claims.deniedMore s)) ∧
    (∀ r ∈ [HostReg.collTmo, .pwrEnv, .hostEvt, .hvTab, .slCtl 3, .hmArg 0, .trTicket 0, .numVfs], exec (.registerWrite fn p r v) s = .next s)) ∧
  (∀ (p : BitVec 1) (v : Word) (ok : Bool) (s : State),
    (∀ x ∈ [(0x00010, HostReg.stwLease), (0x01008, .hcArg), (0x01028, .hostEvt), (0x10808, .hmArg 0), (0x12810, .hmTime 2), (0x11888, .lseed 1 1),
      (0x20300, .slCtl 3), (0x21000, .collTmo), (0x30010, .trTicket 1), (0x40018, .hvStep), (0x50028, .secAddr), (0x60000, .pwrEnv),
      (0x70010, .wearWarn)], s.mmioInstr p 0 x.1 v ok = some (.registerWrite 0 p x.2 v)) ∧
    ∀ fn, s.vfOpen fn p = true → (∀ q : Fin 16, s.mmioInstr p fn (0x100 + 0x20 * q.val) v ok = some (.registerWrite fn p (.ringBase (.launch q)) v) ∧
        s.mmioInstr p fn (0x110 + 0x20 * q.val) v ok = some (.registerWrite fn p (.lqTail q) v) ∧
        s.mmioInstr p fn (0x118 + 0x20 * q.val) v ok = some (.registerWrite fn p (.readOnly false) v)) ∧
      s.mmioInstr p fn 0x30 v ok = some (.svCqHeadWrite fn v) ∧ s.mmioInstr p fn 0x48 v ok = some (.kvCountWrite fn v) ∧
      s.mmioInstr p fn 0x2010 v ok = some (.registerWrite fn p .crTaddr v)) ∧
  (∀ (fn : Fin 64) (v : Word) (s : State), s.isOpen = true → s.isSteward 0 = true → v.toNat % 2 ^ 16 ≤ 63 →
    exec (.registerWrite fn 0 .numVfs v) s = .next { s with numVfs := v.extractLsb' 0 16 }) ∧
  (∀ (p : BitVec 1) (s : State) (ts : List Turn), s.sched = .numVfsRead p :: ts → step s = .next { s with
    sched := ts, outbox := s.outbox ++ [.register (if p = 0 then s.numVfs.setWidth 64 else 0)] }) ∧
  (∀ (p : BitVec 1) (fn : Fin 64) (off : Nat) (s : State) (ts : List Turn), s.sched = .mmioRead p fn off :: ts → fn ≠ 0 → s.vfOpen fn p = false →
    step s = .next { s with sched := ts, outbox := s.outbox ++ [.register 0] }) ∧
  (∀ (fn : Fin 64) (h : HoldRef) (v : Word) (s : State), Claims.ownsRegister s fn h →
    (∀ ring, ∃ u, exec (.registerWrite fn 0 (.ringBase ring) v) s = .next u ∧ u.mem = s.mem ∧ (u.serving h).ring ring =
      if ((s.serving h).ring ring).en then (s.serving h).ring ring else { (s.serving h).ring ring with base := v }) ∧
    exec (.registerWrite fn 0 .kvBase v) s = .next (Claims.withServing s h { s.serving h with kvBase := v })) ∧
  (∀ (fn : Fin 64) (p : BitVec 1) (vec : Fin 3) (s : State), (fn = 0 ∧ s.isOpen = true ∧ s.isSteward p = true) ∨ s.vfOpen fn p = true → (s.fn fn).fnMask = false → (s.fn fn).vecPend = vset (Vector.replicate 3 false) vec true →
    ∃ u, exec (.msiXUnmask fn ⟨p, some vec⟩) s = .next u ∧ u.outbox = s.outbox ++ [.msi fn vec] ∧ (u.fn fn).vecMask[vec] = false ∧
      (u.fn fn).vecPend = Vector.replicate 3 false ∧ u.mem = s.mem) ∧
  (∀ (p : BitVec 1) (v : Word) (s : State), s.isOpen = true → s.isSteward p = true → v.getLsbD 0 = true →
    (∃ u bs, exec (.attest p v true) s = .next u ∧ u.security.stat = ⟨false, 0⟩ ∧ u.hostMem = Memory.write s.hostMem s.security.addr.toNat bs ∧ bs.length = 256 ∧
      u.mem = s.mem) ∧
    ∃ u, exec (.attest p v false) s = .next u ∧ u.security.stat = ⟨false, 4⟩ ∧ u.hostMem = s.hostMem ∧ u.mem = s.mem) ∧
  (∀ (r : BootReport) (s : State), ∃ u, exec (.powerOn r) s = .next u ∧ u.mem = [] ∧
    u.hostMem = s.hostMem ∧ (∀ f, (u.fn f).hostMem = (s.fn f).hostMem) ∧ u.images = State.reset.images ∧ u.steward = State.reset.steward ∧
    (r.firmwareOk = false → u.bootStage = 1 ∧ u.bootResult = 1) ∧
    (r.firmwareOk = true → r.stopAt = 2 ∨ r.stopAt = 4 → u.bootStage.toNat = r.stopAt ∧ u.bootResult = 1) ∧
    (r.firmwareOk = true → r.stopAt = 0 → u.bootStage = 7 ∧ u.bootResult = 0 ∧ u.mode = 4 ∧ u.transplant.secret = r.secret ∧
      u.panelNs = r.panelNs ∧ (∀ c, u.coreTime c = word r.panelNs) ∧ (∀ e, (u.estate e).due = r.panelNs + 1000 * (u.estate e).interval.toNat) ∧
      (∀ j : Fin 80, ∀ n, (j.val, n) ∈ r.failed → (r.failed.map (·.1)).Nodup → 32 ≤ j.val → (u.health.wear[j]).retired = n) ∧
      ∀ c, u.retired c = true ↔ s.retired c = true ∨ c ∈ r.failing))

namespace Sys2Proof.Claims
open Sys2Proof.Machine

/-! ## Time, power and health services (14 R303, 20 R419, 21 R430 to R438) -/

/-- The core that a write of HLTH.CMD names (21 R436): die, cluster and index in the cluster. -/
def hlthNames (v : Word) (c : CoreRef) : Prop :=
  ∃ d k i, v.toNat = d + 2 ^ 5 * k + 2 ^ 11 * i ∧ d < 32 ∧ k < 60 ∧ i < 8 ∧ c = hlthCore v

/-- A core is retired and nothing else is: no task stays in its slots, and the memory stands but for the stores that waited. -/
def retires (u s : State) (c : CoreRef) : Prop :=
  (∀ x, u.retired x = true ↔ s.retired x = true ∨ x = c) ∧ (∀ i, u.task ⟨c, i⟩ = none) ∧ ((∀ r, (s.slot r).stores = []) → u.mem = s.mem)

end Sys2Proof.Claims

/-- 14 R303, 20 R419, 21 R430 to R438, 16 R343: a beacon, once in 4,096 ns of a region's time, moves the offset toward which the region slews by what the
two clocks have drifted apart since the last one, but for what it does not see of that drift while it stays within 14 ns of the exact offset (the
measure and the 14 ns: log 12); an epoch of the arbiter, once in 2,000 ns, gives every die its duty, 16 where the demands fit in the budget and 1 at least; a wear update, once in a second
of panel time, sets the event of an entry that falls below the threshold; a core that fails, or that the steward retires, is retired now or after the pause; a change of a link's state sets
HOST.EVT. Powers in mW, `over` and the count of 500 are log 55; that the event of a wear entry is set on the fall below and not while the entry stays
below is log 85; that a beacon, an epoch or an update offered too early changes nothing is log 23. -/
def Obligations.Services : Prop :=
  (∀ (d : DieId) (south : Bool) (miss : BitVec 5) (s : State),
    let half := fun (x : DieHw) => if south then x.south else x.north
    let other := fun (x : DieHw) => if south then x.north else x.south
    let g := half (s.die d)
    let off := word s.panelNs - g.count
    let drift := (off - g.base).toInt
    (g.beacon < 4096 → exec (.timeBeacon d south miss) s = .next s) ∧
    (4096 ≤ g.beacon → ∃ (u : State) (n : Int), exec (.timeBeacon d south miss) s = .next u ∧ u.mem = s.mem ∧ other (u.die d) = other (s.die d) ∧
      (∀ x, x ≠ d → u.die x = s.die x) ∧ half (u.die d) = { g with target := g.target + BitVec.ofInt 64 n, base := off, beacon := g.beacon - 4096 } ∧
      n.natAbs ≤ drift.natAbs ∧ 0 ≤ n * drift ∧ drift.natAbs ≤ n.natAbs + miss.toNat ∧
      (n = drift ∨ ((g.target + BitVec.ofInt 64 n) - off).toInt.natAbs ≤ 14))) ∧
  (∀ (nonPlough draw : Nat) (demand : List Nat) (s : State), s.power.since < 2000 → exec (.arbiterEpoch nonPlough draw demand) s = .next s) ∧
  (∀ (nonPlough draw : Nat) (demand : List Nat) (s : State), 2000 ≤ s.power.since → demand.length = 32 → ∃ u, exec (.arbiterEpoch nonPlough draw demand) s = .next u ∧ u.mem = s.mem ∧
    u.power.draw.toNat = min (draw / 1000) 32767 ∧ u.power.since = s.power.since - 2000 ∧
    (draw ≤ 1000 * s.power.env.toNat → u.power.saturated = 0 ∧ u.power.overLimit = s.power.overLimit) ∧
    (1000 * s.power.env.toNat < draw → (∀ i : Fin 32, (u.die i).duty.toNat ≤ 1) →
      u.power.saturated = min 500 (s.power.saturated + 1) ∧ (499 ≤ s.power.saturated → u.power.overLimit = true)) ∧
    (demand.foldl (· + ·) 0 ≤ 1000 * s.power.env.toNat - nonPlough → ∀ i : Fin 32, (u.die i).duty = if demand.getD i.val 0 = 0 then 0 else 16) ∧
    (∀ d, 0 < d → demand = List.replicate 32 d → 1000 * s.power.env.toNat - nonPlough < 32 * d →
      ∀ i : Fin 32, (u.die i).duty.toNat = min 16 (max 1 (16 * (1000 * s.power.env.toNat - nonPlough) / (32 * d)))) ∧
    ∀ i : Fin 32, 0 < demand.getD i.val 0 → 1 ≤ (u.die i).duty.toNat ∧ (u.die i).duty.toNat ≤ 16) ∧
  (∀ (j : Fin 80) (ageing retired : BitVec 8) (eol : BitVec 16) (s : State), (s.health.wear[j]).since < 1000000000 →
    exec (.wearUpdate j ageing retired eol) s = .next s) ∧
  (∀ (j : Fin 80) (ageing retired : BitVec 8) (eol : BitVec 16) (s : State), 1000000000 ≤ (s.health.wear[j]).since →
    ∃ u, exec (.wearUpdate j ageing retired eol) s = .next u ∧ u.mem = s.mem ∧ (u.health.wear[j]).since = (s.health.wear[j]).since - 1000000000 ∧
    (u.health.wear[j]).eol = eol ∧ (∀ k : Fin 80, k ≠ j → u.health.wear[k] = s.health.wear[k]) ∧
    (j.val < 32 → (u.health.wear[j]).retired.toNat = min (s.die ⟨j.val % 32, Nat.mod_lt _ (by decide)⟩).retired.length 255) ∧ (u.health.wear[j]).ageing = ageing ∧ (32 ≤ j.val → (u.health.wear[j]).retired = retired) ∧
    u.health.evt = if s.health.warn.toNat ≤ (s.health.wear[j]).eol.toNat ∧ eol.toNat < s.health.warn.toNat then s.health.evt ||| BitVec.ofNat 80 (2 ^ j.val)
      else s.health.evt) ∧
  (∀ (c : CoreRef) (s : State), s.retired c = false → (s.estate (estOf s.mode c.die.val)).inPause = false →
    ∃ u, exec (.coreFailure c) s = .next u ∧ Claims.retires u s c ∧ u.health.stat = ⟨s.health.stat.pending, 0⟩) ∧
  (∀ (c : CoreRef) (s : State), (s.estate (estOf s.mode c.die.val)).inPause = true →
    ∃ u, exec (.coreFailure c) s = .next u ∧ c ∈ u.health.todo ∧ u.dies = s.dies ∧ u.images = s.images ∧ u.mem = s.mem) ∧
  (∀ (p : BitVec 1) (v : Word) (c : CoreRef) (s : State), s.isOpen = true → s.isSteward p = true → s.health.stat.pending = false → Claims.hlthNames v c →
    (s.retired c = true → ∃ u, exec (.retireCore p v) s = .next u ∧ u.health.stat = ⟨false, 3⟩ ∧ u.dies = s.dies ∧ u.images = s.images) ∧
    (s.retired c = false → (s.estate (estOf s.mode c.die.val)).inPause = false →
      ∃ u, exec (.retireCore p v) s = .next u ∧ u.health.stat = ⟨false, 0⟩ ∧ Claims.retires u s c) ∧
    (s.retired c = false → (s.estate (estOf s.mode c.die.val)).inPause = true →
      ∃ u, exec (.retireCore p v) s = .next u ∧ u.health.stat = ⟨true, 0⟩ ∧ c ∈ u.health.todo ∧ u.dies = s.dies)) ∧
  (∀ (p : BitVec 1) (v : Word) (s : State), s.isOpen = true → s.isSteward p = true → s.health.stat.pending = false →
    2 ^ 14 ≤ v.toNat ∨ 60 ≤ v.toNat / 2 ^ 5 % 2 ^ 6 → ∃ u, exec (.retireCore p v) s = .next u ∧ u.health.stat = ⟨false, 2⟩ ∧ u.dies = s.dies) ∧
  (∀ (k : Fin 16) (up : LinkReport) (s : State), up.state ≠ 3 →
    let x := s.links[k]
    let st : BitVec 2 := if x.en = false then 0 else if up.state = 2 ∧ x.expected ≠ 0 ∧ x.expected ≠ up.peer then 1 else up.state
    ∃ u, exec (.linkStateChange k up) s = .next u ∧ u.mem = s.mem ∧
      u.links[k] = { x with state := st, lanes := up.lanes, retries := up.retries, peer := up.peer, peerLink := up.peerLink } ∧
      (if st = x.state then u.hostEvt = s.hostEvt else Claims.hostEventSet u s 4))

namespace Sys2Proof.Claims
open Sys2Proof.Machine

/-! ## Collectives (20 R420 to R422) -/

/-- The message that ends a collective goes to the entry that its completion word names, if that core lies in the grid: of class 3, with one
doubleword (20 R420). The sender of that message is log 81. -/
def tellsEnd (u s : State) (h : HoldRef) (w : Word) (status : BitVec 8) : Prop :=
  let hx := w.toNat % 2 ^ 16
  let hy := w.toNat / 2 ^ 16 % 2 ^ 16
  s.inGrid h hx hy = true → hx < 1024 → ∃ x, (u.hold h).net = (s.hold h).net ++ [x] ∧ x.msg.payload = [status.setWidth 64] ∧
    destX x.msg.header = hx ∧ destY x.msg.header = hy ∧ x.msg.header.toNat / 2 ^ 16 % 2 ^ 8 = w.toNat / 2 ^ 32 % 2 ^ 8 ∧
    x.msg.header.toNat / 2 ^ 40 % 2 ^ 2 = 3 ∧ x.msg.header.toNat / 2 ^ 42 % 2 ^ 4 = 1

/-- Collective `n` of a holding ends with a status. -/
def endsCollective (u s : State) (h : HoldRef) (n : Nat) (c : Collective) (status : BitVec 8) : Prop :=
  (u.serving h).collectives = removeAt (s.serving h).collectives n ∧ tellsEnd u s h c.completion status

/-- A descriptor is refused (20 R420): a reserved byte is set, op is above 3, or its peer count is not 1 to 15; or its peer list has no
translation, or holds a zero or a repeated id, or one with [63:48] set. -/
def descRefused (s : State) (h : HoldRef) (ds : List Byte) : Prop :=
  (∃ b ∈ ds.drop 32, b ≠ 0) ∨ 3 < field ds 0 1 ∨ field ds 1 1 = 0 ∨ 15 < field ds 1 1 ∨
    match s.sysRead h.est (s.serving h).cr.pasid (field ds 24 8) (8 * field ds 1 1) with
    | none => True
    | some ps => ¬(wordsOf (field ds 1 1) ps).Nodup ∨ ∃ w ∈ wordsOf (field ds 1 1) ps, w.toNat % 2 ^ 48 = 0 ∨ w.toNat / 2 ^ 48 ≠ 0

/-- A collective that has just been taken is what its descriptor and its peer list say. -/
def describes (s : State) (h : HoldRef) (ds : List Byte) (c : Collective) : Prop :=
  c.since = s.panelNs ∧ c.op.toNat = field ds 0 1 ∧ c.mask.toNat = field ds 2 2 ∧ c.count = field ds 4 4 ∧ c.buffer.toNat = field ds 8 8 ∧
    c.completion.toNat = field ds 16 8 ∧ c.pasid = (s.serving h).cr.pasid ∧
    ∀ ps, s.sysRead h.est (s.serving h).cr.pasid (field ds 24 8) (8 * field ds 1 1) = some ps →
      c.peers.map BitVec.toNat = (wordsOf (field ds 1 1) ps).map BitVec.toNat

/-- There is a descriptor to take, and room for its collective (20 R421). -/
def mayTake (s : State) (h : HoldRef) : Prop :=
  (s.serving h).cr.head ≠ (s.serving h).cr.tail ∧ (s.serving h).collectives.length < 8

/-- The engine takes the descriptor at CR.HEAD, whose bytes are `ds`. -/
def takesOne (h : HoldRef) (ds : List Byte) (s m : State) : Prop :=
  let v := s.serving h
  mayTake s h ∧ s.sysRead h.est v.cr.pasid (v.cr.base.toNat + 64 * v.cr.head.toNat) 64 = some ds ∧ m.mem = s.mem ∧ m.hostMem = s.hostMem ∧
    (m.serving h).cr = { v.cr with head := ringNext v.cr v.cr.head } ∧
    (descRefused s h ds → (m.serving h).collectives = v.collectives ∧ tellsEnd m s h (word (field ds 16 8)) 4) ∧
    (¬descRefused s h ds → (m.hold h).net = (s.hold h).net ∧ ∃ c, (m.serving h).collectives = v.collectives ++ [c] ∧ describes s h ds c)

/-- The engine takes descriptors one after another, in ring order. -/
def takesAll (h : HoldRef) : List (List Byte) → State → State → Prop
  | [], s, m => m = s
  | ds :: rest, s, u => ∃ m, takesOne h ds s m ∧ takesAll h rest m u

/-- The engine has read the tail, if its line was written, or goes on with the tail that it has (20 R421). -/
def tailKnown (s m : State) (h : HoldRef) : Prop :=
  let v := s.serving h
  (s.rung.contains h = false ∧ m = s) ∨
    (s.rung.contains h = true ∧ m = withServing { s with rung := s.rung.erase h } h { v with cr := tailRead s h v.cr })

/-- The engine stops taking after `n` descriptors: there is nothing to take, or no room, or it has taken as many as the ring holds, or the ring has
no translation, which its control tells. -/
def stopsTaking (n : Nat) (m u : State) (h : HoldRef) : Prop :=
  let v := m.serving h
  (¬mayTake m h ∧ u = m) ∨ (n = 2 ^ v.cr.lsize.toNat ∧ u = m) ∨
    (mayTake m h ∧ m.sysRead h.est v.cr.pasid (v.cr.base.toNat + 64 * v.cr.head.toNat) 64 = none ∧
      u = withServing m h { v with cr := { v.cr with fault := true, tail := v.cr.head } })

/-- Bytes of an element of a collective (20 R420); a broadcast moves FP32 elements (log 59). -/
def elemSize (c : Collective) : Nat := if c.op = 1 then 2 else 4

/-- The greatest of FP32 codes (20 R420, 04 R78): a NaN makes the canonical NaN, and +0 is above -0. -/
def greatest (xs : List Nat) (r : Nat) : Prop :=
  ((∃ x ∈ xs, isNan32 (BitVec.ofNat 32 x) = true) → r = 0x7FC00000) ∧
    ((∀ x ∈ xs, isNan32 (BitVec.ofNat 32 x) = false) → r ∈ xs ∧ (∀ x ∈ xs, (fval (BitVec.ofNat 32 x)).le (fval (BitVec.ofNat 32 r)) = true) ∧
      ((fval (BitVec.ofNat 32 r)).isZero = true → 0 ∈ xs → r = 0))

/-- One element of the combined value, from those of the members in ascending order of package id: a sum in FP32, or of BF16 elements in FP32 that is
rounded at the end (log 59), or the greatest. -/
def combinedElem (op : BitVec 8) (xs : List Nat) (r : Nat) : Prop :=
  let wide := fun (x : Nat) => round32 (Fmt.bf16.decode x)
  (op = 0 → ∃ x ys, xs = x :: ys ∧ r = (ys.foldl (fun a y => add32 a (BitVec.ofNat 32 y)) (BitVec.ofNat 32 x)).toNat) ∧
    (op = 1 → ∃ x ys, xs = x :: ys ∧ r = Fmt.bf16.convert (fval (ys.foldl (fun a y => add32 a (wide y)) (wide x)))) ∧
    (op = 2 → greatest xs r)

/-- The members of a collective with their buffers, in ascending order of package id: the package itself and every peer. -/
def members (c : Collective) (own : List Byte) (sent : BitVec 48 → Option (List Byte)) (bs : List (BitVec 48 × List Byte)) : Prop :=
  bs.Pairwise (fun a b => a.1.toNat < b.1.toNat) ∧ c.peers ≠ [] ∧ (∀ p ∈ c.peers, (sent p).isSome = true) ∧
    bs.Perm ((ownId, own) :: c.peers.filterMap fun p => (sent p).map fun b => (p, b))

/-- `out` is what a collective makes of the first `n` elements of its members' buffers. Whose buffer a broadcast gives is a free value (log 59). -/
def combined (c : Collective) (n : Nat) (bs : List (BitVec 48 × List Byte)) (out : List Byte) : Prop :=
  out.length = elemSize c * n ∧ c.op.toNat < 4 ∧
    (c.op = 3 → ∃ b, bs[Config.broadcastRoot (bs.map (·.1)) % bs.length]? = some b ∧ out = b.2) ∧
    (c.op ≠ 3 → ∀ i < n, combinedElem c.op (bs.map fun b => field b.2 (elemSize c * i) (elemSize c)) (field out (elemSize c * i) (elemSize c)))

/-- What a peer has sent of the first `len` bytes of its buffer. -/
def sentBy (bufs : List (BitVec 48 × List Byte)) (len : Nat) (p : BitVec 48) : Option (List Byte) :=
  (bufs.find? fun b => b.1 = p && decide (len ≤ b.2.length)).map fun b => b.2.take len

/-- The lines of the buffer from byte `done` on are poisoned. -/
def poisonsRest (u s : State) (h : HoldRef) (c : Collective) (done : Nat) : Prop :=
  ∀ i k, done ≤ i → i < elemSize c * c.count → s.sysKey h.est c.pasid true ((c.buffer.toNat + i) % 2 ^ 64) = some k → u.memPoison.contains (k / 64) = true

/-- A collective is cut short after `done` finished bytes: the lines behind them are poisoned, and the whole elements that they hold have the combined
result where every peer has sent as much; where no peer has sent anything, no byte changes. -/
def cutsShort (u s : State) (h : HoldRef) (c : Collective) (done : Nat) (bufs : List (BitVec 48 × List Byte)) : Prop :=
  let n := min c.count (done / elemSize c)
  poisonsRest u s h c done ∧ (bufs = [] → c.peers ≠ [] → u.mem = s.mem) ∧
    ∀ own bs out s1, s.sysRead h.est c.pasid c.buffer.toNat (elemSize c * n) = some own → members c own (sentBy bufs (elemSize c * n)) bs →
      combined c n bs out → s.sysWrite h.est c.pasid c.buffer.toNat out = some s1 → u.mem = s1.mem ∧ u.hostMem = s1.hostMem

/-- Every link of a collective's mask is up; an empty mask names none (log 60). -/
def linksUp (s : State) (c : Collective) : Prop := c.mask ≠ 0 ∧ ∀ k : Fin 16, c.mask.getLsbD k.val = true → (s.links[k]).state = 2

/-- An estate holds 8 holdings (16 R331). -/
def full (s : State) (e : Fin 4) : Prop := ∀ i, (s.hold ⟨e, i⟩).state ≠ .absent

/-- The steward writes the command register of the transplant or harvest engine with op value `op` for holding `h`. -/
def engineCommand (s : State) (p : BitVec 1) (op : Nat) (h : HoldRef) (v : Word) : Prop :=
  v.toNat = op + 2 ^ 8 * h.ix.val + 2 ^ 12 * h.est.val ∧ s.isOpen = true ∧ s.isSteward p = true ∧ h.est.val < s.mode.toNat

end Sys2Proof.Claims

/-- 20 R420 to R422, 04 R78: the engine reads the tail after a write to the tail's line and takes the descriptors up to it one by one, up to 8 collectives at
once; a descriptor that is refused completes at once with 4 and touches no buffer. A collective combines the buffers of the package and its peers, element by
element in ascending order of package id, and completes with 0 before COLL.TMO; it ends with 3 where a link of its mask is down, with 2 after COLL.TMO,
and with 1 at an abandon notice, and then what it had finished holds the combined result and every line that it had not finished is poisoned. The sums'
order of rounding, and a broadcast's elements and root, are log 59, a masked link that is not up is log 60, the status where the buffer has no translation
log 61; that the timeout counts from the taking of the descriptor is log 88, that poisoned bytes are combined as they stand log 105, and that an end
offered too early or too late changes nothing log 23. -/
def Obligations.Collectives : Prop :=
  (∀ (h : HoldRef) (s q : State), (s.serving h).cr.en = true → (s.hold h).state ≠ .resetting → Claims.tailKnown s q h →
    ∃ dss m u, exec (.collectiveTake h) s = .next u ∧ Claims.takesAll h dss q m ∧ Claims.stopsTaking dss.length m u h) ∧
  (∀ (h : HoldRef) (s : State), (s.serving h).cr.en = false ∨ (s.hold h).state = .resetting → exec (.collectiveTake h) s = .next s) ∧
  (∀ (h : HoldRef) (n : Nat) (c : Collective) (bufs : List (BitVec 48 × List Byte)) (s : State), (s.serving h).collectives[n]? = some c →
    (c.since + 1000000 * s.collTmo.toNat ≤ s.panelNs → exec (.collectiveComplete h n bufs) s = .next s) ∧
    (s.panelNs < c.since + 1000000 * s.collTmo.toNat → ¬Claims.linksUp s c →
      ∃ u, exec (.collectiveComplete h n bufs) s = .next u ∧ u.mem = s.mem ∧ Claims.endsCollective u s h n c 3) ∧
    let sent := fun (p : BitVec 48) => (bufs.find? fun b => b.1 = p).map (·.2)
    (s.panelNs < c.since + 1000000 * s.collTmo.toNat → Claims.linksUp s c →
      (∀ p ∈ c.peers, ∃ bs, sent p = some bs ∧ bs.length = Claims.elemSize c * c.count) →
      (∀ own bs out s1, s.sysRead h.est c.pasid c.buffer.toNat (Claims.elemSize c * c.count) = some own → Claims.members c own sent bs →
        Claims.combined c c.count bs out → s.sysWrite h.est c.pasid c.buffer.toNat out = some s1 →
        ∃ u, exec (.collectiveComplete h n bufs) s = .next u ∧ u.mem = s1.mem ∧ u.hostMem = s1.hostMem ∧ Claims.endsCollective u s h n c 0 ∧
          ∀ p ∈ c.peers, Outbound.collective p own ∈ u.outbox) ∧
      (s.sysRead h.est c.pasid c.buffer.toNat (Claims.elemSize c * c.count) = none →
        ∃ u st, exec (.collectiveComplete h n bufs) s = .next u ∧ u.mem = s.mem ∧ Claims.endsCollective u s h n c st) ∧
      (∀ own bs out, s.sysRead h.est c.pasid c.buffer.toNat (Claims.elemSize c * c.count) = some own → Claims.members c own sent bs →
        Claims.combined c c.count bs out → s.sysWrite h.est c.pasid c.buffer.toNat out = none →
        ∃ u st, exec (.collectiveComplete h n bufs) s = .next u ∧ u.mem = s.mem ∧ Claims.endsCollective u s h n c st))) ∧
  (∀ (h : HoldRef) (n done : Nat) (bufs : List (BitVec 48 × List Byte)) (c : Collective) (s : State), (s.serving h).collectives[n]? = some c →
    (s.panelNs < c.since + 1000000 * s.collTmo.toNat → exec (.collectiveTimeout h n ⟨done, bufs⟩) s = .next s) ∧
    (c.since + 1000000 * s.collTmo.toNat ≤ s.panelNs → ∃ u, exec (.collectiveTimeout h n ⟨done, bufs⟩) s = .next u ∧
      Claims.endsCollective u s h n c 2 ∧ Claims.cutsShort u s h c done bufs) ∧
    ∃ u, exec (.abandonNotice h n ⟨done, bufs⟩) s = .next u ∧ Claims.endsCollective u s h n c 1 ∧ Claims.cutsShort u s h c done bufs)

/-- 20 R423, 16 R331, 19 R399: EXPORT writes the ticket of a STOPPED holding; the source judges a ticket against its latest export. IMPORT ends with
NO-PATH without a path, then with BAD-TICKET where the source refuses, then with NO-RUN in an estate that holds 8 holdings, WRONG-STATE for an
index that is not ABSENT and NO-RUN without a run; one that the source accepts, with the ticket as it stood then, places the holding STOPPED
on the lowest fallow run of the target and leaves the source's index ABSENT, with the bytes of the pools on its dies (log 146). The order of the
three last checks is log 63, and so are the moment at which the run is allotted, the ends of an import whose pull fails (NO-PATH) or whose index,
function or estate is no longer free (WRONG-STATE, NO-RUN), and its wait while an ESTATE-RESET is under way. That none completes while a change
of partition mode waits is log 53; what is taken from the dies of others is log 50, and the ticket's image size log 62. -/
def Sys2Proof.Claims.Transplants : Prop :=
  (∀ (p : BitVec 1) (h : HoldRef) (v : Word) (s : State), Claims.engineCommand s p 1 h v → s.transplant.stat.pending = false →
    ((s.hold h).state = .stopped → ∃ u, exec (.exportTicket p v) s = .next u ∧ u.transplant.stat = ⟨false, 0⟩ ∧ Claims.hostEventSet u s 5 ∧ u.mem = s.mem ∧
      u.transplant.serial = s.transplant.serial + 1 ∧ (u.hold h).exported = some u.transplant.ticket ∧ u.transplant.ticket[0] = ownId.setWidth 64 ∧
      ((s.hold h).dies < 256 → (u.transplant.ticket[1]).toNat =
        h.est.val + 2 ^ 8 * h.ix.val + 2 ^ 16 * (s.hold h).dies + 2 ^ 32 * (s.transplant.serial + 1).toNat) ∧
      (u.hold h).state = .stopped ∧ u.images = s.images) ∧
    ((s.hold h).state ≠ .stopped → ∃ u, exec (.exportTicket p v) s = .next u ∧ u.transplant.stat = ⟨false, 2⟩ ∧ ∀ g, u.hold g = s.hold g)) ∧
  (∀ (ws : List Word) (s : State), ∃ u, exec (.transplantTicketCheck ws) s = .next u ∧ u.outbox = s.outbox ++ [.ticket (s.ticketOk ws)] ∧ u.mem = s.mem ∧
    u.images = s.images ∧ (s.ticketOk ws = true → ∃ h, (s.hold h).state = .stopped ∧ (s.hold h).exported.map Vector.toList = some ws ∧
      u.hold h = { s.hold h with granted := true })) ∧
  (∀ (p : BitVec 1) (h : HoldRef) (v : Word) (s : State), Claims.engineCommand s p 2 h v → s.transplant.stat.pending = false →
    let run := s.findRun h.est ((s.transplant.ticket[1]).toNat / 2 ^ 16 % 2 ^ 8)
    let answers := fun (path accepted : Bool) (status : BitVec 8) => ∃ u, exec (.importTicket p v path accepted) s = .next u ∧
      u.transplant.stat = ⟨false, status⟩ ∧ u.mem = s.mem ∧ ∀ g, u.hold g = s.hold g
    (∀ accepted, answers false accepted 4) ∧ ((∀ k : Fin 16, (s.links[k]).state ≠ 2) → ∀ path accepted, answers path accepted 4) ∧
    ((∃ k : Fin 16, (s.links[k]).state = 2) → answers true false 5 ∧
      (Claims.full s h.est → answers true true 3) ∧
      (¬Claims.full s h.est → (s.hold h).state ≠ .absent → answers true true 2) ∧
      ((s.hold h).state = .absent → run = none → answers true true 3) ∧
      ((s.hold h).state = .absent → run.isSome = true →
        ∃ u, exec (.importTicket p v true true) s = .next u ∧ u.transplant.stat = ⟨true, 0⟩ ∧ u.transplant.target = some h ∧
          u.transplant.taken = s.transplant.ticket ∧ u.mem = s.mem ∧ ∀ g, u.hold g = s.hold g))) ∧
  (∀ (h : HoldRef) (s : State) (x : Peer) (q : Nat), s.transplant.target = some h → s.pmNext = none → ¬Claims.estateResets s h.est →
    h.est.val < s.mode.toNat → (s.hold h).state = .absent →
    (s.peers.find? fun p => p.ticket = s.transplant.taken) = some x → (∀ g, (s.hold g).state ≠ .absent → (s.hold g).vf ≠ x.hold.vf) → s.findRun h.est x.hold.dies = some q →
    ∃ u, exec (.importComplete h true) s = .next u ∧ u.transplant.stat = ⟨false, 0⟩ ∧ u.transplant.target = none ∧ Claims.hostEventSet u s 5 ∧
      (u.hold h).state = .stopped ∧ (u.hold h).closed = true ∧ (u.hold h).position = q ∧ (u.hold h).dies = x.hold.dies ∧ (u.hold h).vf = x.hold.vf ∧ (u.hold h).group = h.ix ∧
      ((∀ k < x.hold.dies, (s.image (dieAt s.mode h.est (q + k))).cores = [] ∧ (s.image (dieAt s.mode h.est (q + k))).ready = []) →
        (∀ k im, x.hold.images[k]? = some im → im.stood = (s.die (dieAt s.mode h.est (q + k))).retired) →
        (∀ im ∈ x.hold.images, ∀ p ∈ im.cores, p.2.plq = []) → u.mem = s.mem ∧
        u.hold h = { x.hold with state := .stopped, closed := true, position := q, group := h.ix, images := [], exported := none, granted := false, lastDies := [],
                                 resetHeld := false, lseed := (s.hold h).lseed })) ∧
  (∀ (h : HoldRef) (s : State), s.transplant.target ≠ some h → (s.hold h).granted = true → (s.hold h).exported.isSome = true → (s.hold h).state = .stopped →
    ∃ u, exec (.importComplete h true) s = .next u ∧ u.hold h = { weights := (s.hold h).weights, lseed := (s.hold h).lseed } ∧
      Claims.noMigrants u h ∧ (∀ r ∈ s.slotsOf h, u.task r = none) ∧
      ((∀ r, (s.slot r).stores = []) → u.mem = s.mem ∧ ∀ d ∈ s.diesOf h, Claims.fallowDie s u d ∧
        (Claims.noGuests s h → Claims.samePools s u d))) ∧
  (∀ (h : HoldRef) (s : State) (pulled : Bool), s.transplant.target = some h → s.pmNext.isSome = true ∨ Claims.estateResets s h.est →
    exec (.importComplete h pulled) s = .next s) ∧
  (∀ (h : HoldRef) (s : State), s.transplant.target = some h → s.pmNext = none → ¬Claims.estateResets s h.est →
    let ends := fun (pulled : Bool) (status : BitVec 8) => ∃ u, exec (.importComplete h pulled) s = .next u ∧ u.transplant.stat = ⟨false, status⟩ ∧
      u.transplant.target = none ∧ u.mem = s.mem ∧ ∀ g, u.hold g = s.hold g
    ends false 4 ∧ ∀ x, (s.peers.find? fun p => p.ticket = s.transplant.taken) = some x →
      let bound := ∃ g, (s.hold g).state ≠ .absent ∧ (s.hold g).vf = x.hold.vf
      (s.mode.toNat ≤ h.est.val → ends true 2) ∧
      (h.est.val < s.mode.toNat → (Claims.full s h.est → ends true 3) ∧
        (¬Claims.full s h.est → (s.hold h).state ≠ .absent ∨ bound → ends true 2) ∧
        ((s.hold h).state = .absent → ¬bound → s.findRun h.est x.hold.dies = none → ends true 3)))

namespace Sys2Proof.Claims
open Sys2Proof.Machine

/-! ## Sheaves (20 R425, R426) -/

/-- An entry that the table's layout does not admit (log 64). -/
def malformed (x : HvEntry) : Prop := 3 < x.kind ∨ x.reserved ≠ 0 ∨ x.shards ≤ x.shard ∨ x.length = 0 ∨ 2 ^ 40 < x.length

/-- The sheaf of an entry: its header, then its content (20 R425). -/
def sheafOf (x : HvEntry) (step : Word) (bs : List Byte) : List Byte :=
  toBytes 4 0x53484546 ++ toBytes 2 1 ++ toBytes 1 x.kind ++ toBytes 1 0 ++ toBytes 8 step.toNat ++ toBytes 2 x.shard ++ toBytes 2 x.shards ++
    toBytes 4 0 ++ toBytes 8 x.length ++ digest bs ++ bs

/-- The entries' sheaves are written, one after another. -/
def harvested (e : Fin 4) (step : Word) : List HvEntry → State → State → Prop
  | [], s, m => m = s
  | x :: xs, s, q => ∃ bs m, s.sysRead e x.pasid x.source x.length = some bs ∧ s.sysWrite e x.pasid x.dest (sheafOf x step bs) = some m ∧ harvested e step xs m q

/-- An entry's sheaf cannot be written: its source or its destination has no translation. -/
def stopsHarvest (e : Fin 4) (step : Word) (x : HvEntry) (m : State) : Prop :=
  match m.sysRead e x.pasid x.source x.length with
  | none => True
  | some bs => m.sysWrite e x.pasid x.dest (sheafOf x step bs) = none

/-- A header fits the entry that names it. -/
def headerFits (x : HvEntry) (hd : List Byte) : Prop :=
  field hd 0 4 = 0x53484546 ∧ field hd 4 2 = 1 ∧ field hd 6 1 = x.kind ∧ field hd 16 2 = x.shard ∧ field hd 18 2 = x.shards ∧ field hd 24 8 = x.length

/-- A candidate of a table, with the step and the content of its sheaf, which fits its entry and its digest. -/
structure Sheaf where
  entry : HvEntry
  step : Nat
  content : List Byte

/-- What the sheaf of an entry is. -/
def isSheaf (s : State) (e : Fin 4) (c : Sheaf) : Prop :=
  ¬malformed c.entry ∧ ∃ hd, s.sysRead e c.entry.pasid c.entry.dest 64 = some hd ∧ headerFits c.entry hd ∧ c.step = field hd 8 8 ∧
    s.sysRead e c.entry.pasid (c.entry.dest + 64) c.entry.length = some c.content ∧ (hd.drop 32).take 32 = digest c.content

/-- The candidate of an entry has no translation; and it does not match its entry or its digest. -/
def unreadable (s : State) (e : Fin 4) (x : HvEntry) : Prop :=
  match s.sysRead e x.pasid x.dest 64 with
  | none => True
  | some hd => ¬malformed x ∧ headerFits x hd ∧ s.sysRead e x.pasid (x.dest + 64) x.length = none
def mismatched (s : State) (e : Fin 4) (x : HvEntry) : Prop :=
  ∃ hd, s.sysRead e x.pasid x.dest 64 = some hd ∧ (malformed x ∨ ¬headerFits x hd ∨
    ∃ bs, s.sysRead e x.pasid (x.dest + 64) x.length = some bs ∧ (hd.drop 32).take 32 ≠ digest bs)

/-- Every shard of every kind that the candidates have is listed at a step (20 R426). -/
def wholeAt (cs : List Sheaf) (n : Nat) : Prop :=
  ∀ c ∈ cs, ∀ i < c.entry.shards, ∃ d ∈ cs, d.step = n ∧ d.entry.kind = c.entry.kind ∧ d.entry.shards = c.entry.shards ∧ d.entry.shard = i

/-- The detail of HV.STAT: the newest step that is whole, or all ones where there is none (20 R426). -/
def detailIs (cs : List Sheaf) (v : W32) : Prop :=
  ((∀ c ∈ cs, ¬wholeAt cs c.step) → v = 0xFFFFFFFF) ∧
    ∀ c ∈ cs, wholeAt cs c.step → (∀ d ∈ cs, wholeAt cs d.step → d.step ≤ c.step) → v = BitVec.ofNat 32 c.step

/-- The contents are copied to their source ranges, one after another. -/
def restored (e : Fin 4) : List Sheaf → State → State → Prop
  | [], s, m => m = s
  | c :: cs, s, q => ∃ m, s.sysWrite e c.entry.pasid c.entry.source c.content = some m ∧ restored e cs m q

/-- HV.STAT after a command has ended, and the event that tells it. -/
def endsHarvest (u s : State) (status : BitVec 8) : Prop :=
  u.harvest.stat = ⟨false, status⟩ ∧ u.harvest.cut = none ∧ hostEventSet u s 6

end Sys2Proof.Claims

/-- 20 R424 to R426: HARVEST of a holding that is RUNNING or STOPPED waits for the next headland of its estate (WRONG-STATE of one in another state is
log 64); after it, each entry's source range is written as a sheaf at its
destination; RESTORE checks every candidate first and then copies the content of every sheaf of a whole step back to its source, or copies nothing:
CORRUPT for a mismatch, MIXED-STEP for candidates of two steps, INCOMPLETE where a shard is missing, each of the last two with the newest whole step
in detail; what has no translation ends each of them with FAULT. Malformed entries, and FAULT where one candidate has no translation and another does
not match, are log 64; the digest is a free function (log 26); a cut offered before its headland changes nothing (log 23). -/
def Sys2Proof.Claims.HarvestsAndRestores : Prop :=
  (∀ (p : BitVec 1) (h : HoldRef) (v : Word) (s : State), Claims.engineCommand s p 1 h v → s.harvest.stat.pending = false → (s.estate h.est).pending = none →
    (s.estate h.est).resetHeld = false →
    let held := (s.hold h).state = .running ∨ (s.hold h).state = .stopped
    (held → (∀ x ∈ s.hvTable, ¬Claims.malformed x) → ∃ u, exec (.harvest p ⟨v, true⟩) s = .next u ∧ u.harvest.stat = ⟨true, 0⟩ ∧ u.harvest.cut = some h ∧
      u.harvest.ready = false ∧ u.mem = s.mem ∧ u.estates = s.estates) ∧
    (held → (∃ x ∈ s.hvTable, Claims.malformed x) → ∃ u, exec (.harvest p ⟨v, true⟩) s = .next u ∧ Claims.endsHarvest u s 5 ∧ u.mem = s.mem) ∧
    (held → ∃ u, exec (.harvest p ⟨v, false⟩) s = .next u ∧ Claims.endsHarvest u s 6 ∧ u.mem = s.mem) ∧
    (¬held → ∀ reach, ∃ u, exec (.harvest p ⟨v, reach⟩) s = .next u ∧ Claims.endsHarvest u s 2 ∧ u.mem = s.mem)) ∧
  (∀ (p : BitVec 1) (h : HoldRef) (op : Nat) (v : Word) (reach : Bool) (s : State), Claims.engineCommand s p op h v →
    s.harvest.stat.pending = true ∨ (s.estate h.est).pending.isSome = true ∨ (s.estate h.est).resetHeld = true → ∀ x ∈ [(Instr.harvest p ⟨v, reach⟩, 1), (.restore p ⟨v, reach⟩, 2)], x.2 = op →
      exec x.1 s = .next { s with harvest := { s.harvest with stat := ⟨s.harvest.stat.pending, 1⟩ } }) ∧
  (∀ (e : Fin 4) (h : HoldRef) (s : State), s.harvest.cut = some h → h.est = e → s.harvest.ready = true →
    let back := fun (u : State) => (u.hold h).closed = decide ((s.hold h).state = .stopped)
    (∀ m, (∀ x ∈ s.hvTable, ¬Claims.malformed x) → Claims.harvested e s.harvest.step s.hvTable s m →
      ∃ u, exec (.harvestCut ⟨e, true⟩) s = .next u ∧ u.mem = m.mem ∧ u.hostMem = m.hostMem ∧ Claims.endsHarvest u s 0 ∧ back u) ∧
    (∀ m pre x post, (∀ x ∈ s.hvTable, ¬Claims.malformed x) → s.hvTable = pre ++ x :: post → Claims.harvested e s.harvest.step pre s m →
      Claims.stopsHarvest e s.harvest.step x m →
      ∃ u, exec (.harvestCut ⟨e, true⟩) s = .next u ∧ u.mem = m.mem ∧ u.hostMem = m.hostMem ∧ Claims.endsHarvest u s 6 ∧ back u) ∧
    ((∃ x ∈ s.hvTable, Claims.malformed x) → ∃ u, exec (.harvestCut ⟨e, true⟩) s = .next u ∧ u.mem = s.mem ∧ Claims.endsHarvest u s 5 ∧ back u) ∧
    ∃ u, exec (.harvestCut ⟨e, false⟩) s = .next u ∧ u.mem = s.mem ∧ Claims.endsHarvest u s 6 ∧ back u) ∧
  (∀ (e : Fin 4) (reach : Bool) (s : State), s.harvest.ready = false → exec (.harvestCut ⟨e, reach⟩) s = .next s) ∧
  (∀ (p : BitVec 1) (h : HoldRef) (v : Word) (s : State), Claims.engineCommand s p 2 h v → s.harvest.stat.pending = false → (s.estate h.est).pending = none →
    (s.estate h.est).resetHeld = false →
    let runs := fun (reach : Bool) (u : State) => exec (.restore p ⟨v, reach⟩) s = .next u
    ((s.hold h).state ≠ .stopped → ∀ reach, ∃ u, runs reach u ∧ Claims.endsHarvest u s 2 ∧ u.mem = s.mem) ∧
    ((s.hold h).state = .stopped →
      (∃ u, runs false u ∧ Claims.endsHarvest u s 6 ∧ u.mem = s.mem) ∧
      ((∃ x ∈ s.hvTable, Claims.unreadable s h.est x) → ∃ u, runs true u ∧ Claims.endsHarvest u s 6 ∧ u.mem = s.mem) ∧
      ((∀ x ∈ s.hvTable, ¬Claims.unreadable s h.est x) → (∃ x ∈ s.hvTable, Claims.mismatched s h.est x) →
        ∃ u, runs true u ∧ Claims.endsHarvest u s 5 ∧ u.mem = s.mem) ∧
      ∀ cs : List Claims.Sheaf, cs.map (·.entry) = s.hvTable → (∀ c ∈ cs, Claims.isSheaf s h.est c) →
        ((∃ c ∈ cs, ∃ d ∈ cs, c.step ≠ d.step) → ∃ u, runs true u ∧ Claims.endsHarvest u s 3 ∧ Claims.detailIs cs u.harvest.detail ∧ u.mem = s.mem) ∧
        ((∀ c ∈ cs, ∀ d ∈ cs, c.step = d.step) → (∃ c ∈ cs, ¬Claims.wholeAt cs c.step) →
          ∃ u, runs true u ∧ Claims.endsHarvest u s 4 ∧ Claims.detailIs cs u.harvest.detail ∧ u.mem = s.mem) ∧
        ((∀ c ∈ cs, ∀ d ∈ cs, c.step = d.step) → (∀ c ∈ cs, Claims.wholeAt cs c.step) →
          (∀ m, Claims.restored h.est cs s m → ∃ u, runs true u ∧ Claims.endsHarvest u s 0 ∧ Claims.detailIs cs u.harvest.detail ∧ u.mem = m.mem ∧
            u.hostMem = m.hostMem) ∧
          ∀ m pre c post, cs = pre ++ c :: post → Claims.restored h.est pre s m → m.sysWrite h.est c.entry.pasid c.entry.source c.content = none →
            ∃ u, runs true u ∧ Claims.endsHarvest u s 6 ∧ u.mem = m.mem ∧ u.hostMem = m.hostMem)))

namespace Sys2Proof.Claims
open Sys2Proof.Machine

/-! ## The machine as a whole -/

/-- The invariant of every step: the memories keep their canonical form, and the partition mode, with the one that waits, is 1, 2 or 4. -/
def Inv (s : State) : Prop :=
  Memory.wf s.mem = true ∧ Memory.wf s.hostMem = true ∧ (∀ f, Memory.wf (s.fn f).hostMem = true) ∧ (s.mode = 1 ∨ s.mode = 2 ∨ s.mode = 4) ∧
    ∀ m, s.pmNext = some m → m = 1 ∨ m = 2 ∨ m = 4

/-- The slot `cur` holds a task that fetches `w`, from memory or as it has fetched it ahead (11 R442), and executes it alone (05 R112): it runs, it
may issue (05 R118), its watchdog has not expired, and nothing is to be taken before the word. -/
def fetches (s : State) (t : Task) (w : W32) : Prop :=
  let r := s.cur
  s.sched = [] ∧ s.task r = some t ∧ (s.slot r).halted = false ∧ s.frozenHold (s.taskHold r t) = false ∧ t.wd < 2 ^ t.w ∧ t.async = [] ∧
    t.stepped = none ∧ s.follows r = false ∧ s.members r = [r] ∧ s.mayIssue r = true ∧ t.pc.toNat % 4 = 0 ∧ inPoolSpace t.pc = false ∧ canonical t.pc = true ∧
    ∃ ks, s.translateRange r.core.die (.slot r.core.idx r.slot) (ownerOf t.cw) t.pc.toNat { read := true, exec := true } 4 = .ok ks ∧
      (∀ k ∈ ks, s.memPoison.contains (k / 64) = false) ∧
      FMap.get (BitVec.ofNat 32 (ofBytes (ks.map (Memory.get s.mem)))) t.kept t.pc.toNat = w

end Sys2Proof.Claims

/-- 14 R302 to R304: a passage of time advances panel time by what the reference counts, and the counter of each region by its own local time, each within
50 ppm of true time but for a credit; `toff` moves by at most 1 in every 16 ns of local time, and by at most 100 ns per ms of panel time but for a budget of less than 1 ns; and
wherever it happens, the time that each core reads is within 16 ns of panel time, and any two agree within 32 ns. That a passage which the clocks do not allow
does not happen, and the credit and the budget, are log 12. -/
def Sys2Proof.Claims.TimePasses : Prop :=
  ∀ (s : State) (cycles ns : Nat) (locals : FMap Nat) (ts : List Turn), s.sched = .elapse cycles ns locals :: ts →
    let passed := fun (c : CoreRef) => FMap.get ns locals (2 * c.die.val + (isSouth c.idx).toNat)
    (s.canElapse ns locals = false → step s = .next { s with sched := ts }) ∧
    let panel := FMap.get ns locals 64
    (s.canElapse ns locals = true → ∃ u, step s = .next u ∧ u.sched = ts ∧ u.panelNs = s.panelNs + panel ∧ u.mem = s.mem ∧
      20000 * (max ns panel - min ns panel) ≤ s.refCredit + ns ∧ (∀ c : CoreRef,
        (u.region c).count = (s.region c).count + word (passed c) ∧
        ((u.region c).toff - (s.region c).toff).toInt.natAbs ≤ ((s.region c).since + passed c) / 16 ∧
        10000 * ((u.region c).toff - (s.region c).toff).toInt.natAbs ≤ (s.region c).budget + panel ∧
        (u.region c).budget < 10000 ∧ 20000 * (max ns (passed c) - min ns (passed c)) ≤ (s.region c).credit + ns ∧
        -16 ≤ (u.coreTime c - word u.panelNs).toInt ∧ (u.coreTime c - word u.panelNs).toInt ≤ 16) ∧
      ∀ c d : CoreRef, (u.coreTime c - u.coreTime d).toInt < 32)

/-- 03 R58 to R67: words written out from the opcode maps decode to the instructions they stand for. -/
def Obligations.SpecWords : Prop :=
  decode 0x0442D000 = .ok (.add 2 2 26 0) ∧ decode 0x3800002A = .ok (.trap 0x2A) ∧ decode 0xD8040000 = .ok (.resume 4 0) ∧
    decode 0xD8000001 = .ok (.park 0) ∧ decode 0xD8042802 = .ok (.faultPost 4 5 0) ∧ decode 0xD4A00010 = .ok (.hlStat 5 0) ∧
    decode 0xD40000C8 = .ok (.barArrive 0 3) ∧ decode 0xD00F6801 = .ok (.mbTake 15 13 0) ∧ decode 0xD20E780B = .ok (.gbpDamp 16 14 15 0) ∧
    decode 0xE0089400 = .ok (.plMma 2 10 0)

/-- 03 R49, R51, R58 to R67: every word that the encoder writes for a well-formed instruction, stored as four bytes with the lowest first, is
read back as that instruction. -/
def Obligations.DecodeAfterEncode : Prop :=
  ∀ (i : Instr) (w : W32), i.wf = true → encode i = some w → decodeBytes (wordBytes w) = some (.ok i)

/-- 03 R51, R55: a word has at most one meaning. A word that decodes is the word of its instruction, bit for bit, with well-formed
operands, so that no field and no reserved bit is ignored; and an event of the device has no word. -/
def Obligations.EncodeAfterDecode : Prop :=
  ∀ (w : W32) (i : Instr), decode w = .ok i → encode i = some w ∧ i.wf = true ∧ i.isEvent = false

/-- 05 R91, R118, 03 R49, R55: a step of a slot executes the instruction that the four bytes at the program counter decode to, once the slot has issued;
an illegal word takes its exception (03 R56); a turn of an event performs it, and a turn of the host's write at an offset performs the instruction
that the offset names. After a retired instruction the step trap follows where `dbg` asks for it (12 R270). The model's choices: turns are taken in
the order of a schedule (log 2), and the illegal word's row acts in a turn of its own only where the slot comes to fetch that word, as its own turn
would, and does nothing otherwise (log 23). -/
def Obligations.StepRuns : Prop :=
  (∀ (s : State) (t : Task) (w : W32) (i : Instr), Claims.fetches s t w → decode w = .ok i →
    (step s = match exec i (s.issued s.cur) with
      | .next u => .next (u.afterRetire i t.pc s.cur)
      | o => o) ∧
    ((∀ x ∈ (s.core s.cur.core).slots.toList, x.after = []) → s.issued s.cur = s) ∧
    ∀ u, exec i (s.issued s.cur) = .next u → (u.core s.cur.core).regs.dbg.getLsbD 0 = false → step s = .next u) ∧
  (∀ (s : State) (t : Task) (w : W32) (c : DecodeCause), Claims.fetches s t w → decode w = .error c → step s = exec (.illegalInstruction w) s) ∧
  (∀ (s : State) (t : Task) (w : W32) (c : DecodeCause) (ts : List Turn), s.sched = .event (.illegalInstruction w) :: ts →
    let q := { s with sched := ts }
    (Claims.fetches { s with sched := [] } t w → decode w = .error c → step s = exec (.illegalInstruction w) q) ∧
    (s.task s.cur = some t → (s.slot s.cur).halted = true ∨ s.frozenHold (s.taskHold s.cur t) = true ∨ s.fetch s.cur t ≠ .ok w → step s = .next q) ∧
    (s.task s.cur = some t → (s.slot s.cur).halted = false → s.frozenHold (s.taskHold s.cur t) = false → s.fetch s.cur t = .ok w → decode w = .error c →
      ∀ u, s.members s.cur = [s.cur] → q.takeDue s.cur = some u → step s = .next u)) ∧
  (∀ (s : State) (i : Instr) (ts : List Turn), s.sched = .event i :: ts → i.isEvent = true → (∀ w, i ≠ .illegalInstruction w) →
    step s = exec i { s with sched := ts }) ∧
  (∀ (s : State) (p : BitVec 1) (fn : Fin 64) (off : Nat) (v : Word) (ok : Bool) (ts : List Turn), s.sched = .mmioWrite p fn off v ok :: ts →
    (∀ i, s.mmioInstr p fn off v ok = some i → step s = exec i { s with sched := ts }) ∧
    (s.mmioInstr p fn off v ok = none → step s = .next { s with sched := ts }))

/-- 01 R18, 06 R133, 07 R151, 14 R302, R303, 16 R333, 18 R367, 19 R393, 20 R413, R416, R419, R422, 21 R430, R435, R439: the reset values of the spec's
register tables hold at reset, every index is ABSENT, and the invariant holds. Mode 4 before stage 6 is log 9. -/
def Obligations.ResetState : Prop :=
  let s := State.reset
  Claims.Inv s ∧ s.mode = 4 ∧ s.bootStage = 0 ∧ s.bootResult = 0 ∧ s.panelNs = 0 ∧ s.pmStatus = 0 ∧ s.hostEvt = 0 ∧ s.hostMask = 0 ∧ s.collTmo = 100 ∧
    s.steward = { valid := false, port := 0, key := 0, lease := 5000, deadline := 0, denied := 0 } ∧ s.power.env = 14000 ∧ s.health.warn = 30 ∧
    (∀ h, (s.hold h).state = .absent) ∧ (∀ e, (s.estate e).interval = 10000 ∧ (s.estate e).deferEn = 0xFF ∧ (s.estate e).count = 0) ∧
    (∀ d, (s.die d).north.count = 0 ∧ (s.die d).south.count = 0) ∧ (∀ k : Fin 16, (s.links[k]).en = false) ∧
    ∀ c, (s.core c).part = 3 ∧ (s.core c).pool = {} ∧ (s.core c).regs.plWt = 1 ∧ (s.core c).regs.dbg = 0 ∧ (s.core c).regs.fltCause = 0

/-- 01 R18, 19 R409: whatever state a step starts from, if the memories are canonical and the partition mode is one of the three that
the spec names, they are so after it. -/
def Obligations.StepKeepsInv : Prop :=
  ∀ s s' : State, Claims.Inv s → step s = .next s' → Claims.Inv s'

/-! ## Claims of one subject, joined -/

/-- 06 R143, R144: the branches, taken and not taken, and the jumps with their links. -/
def Obligations.ControlFlow : Prop := Claims.Branches ∧ Claims.Jumps

/-- 07 R157, 11 R245, R246, R259: the scalar, acquiring and releasing loads and stores complete with the value that they read, and with
the bytes that they write at the location of their address, once their slot's stores are performed. The model's choices: a store
becomes visible to every agent in one turn (log 24), and a slot's stores in their order (log 93). -/
def Obligations.LoadsAndStores : Prop := Claims.LoadValues ∧ Claims.StoreValues ∧ Claims.StoresPerformed

/-- 08 R178 to R189: every lane of the vector instructions, and the moves between vector and scalar registers. -/
def Obligations.VectorValues : Prop := Claims.VectorLanes ∧ Claims.VectorElements ∧ Claims.VectorReads ∧ Claims.VectorInserts

/-- 07 R160, R162, R164 to R167: `cb.init`, the waits, the advances and the status of the circular-buffer handles. That a wait checks its handle
anew at a later turn is the model's choice (log 117). -/
def Obligations.Rings : Prop := Claims.RingInit ∧ Claims.RingWaits ∧ Claims.RingWakes ∧ Claims.RingAdvances ∧ Claims.RingStatus

/-- 05 R100, R101, R116: where `sow`, `sow.cap` and `sow.at` place their seeds. That a seed starts in the lowest free slot and that the target of
`sow.at` is the core on which it is sown (log 78), and that a steered seed is not held (log 108), are the model's. -/
def Obligations.SowingSeeds : Prop := Claims.Sowing ∧ Claims.SowAt

/-- 13 R287, R297 to R301: the payload, the reads and the pops of messages. What `mq.pop` does for a migrated task is the model's reading (log 40). -/
def Obligations.Messages : Prop := Claims.MessageBodies ∧ Claims.MessageReads ∧ Claims.MessagePops

/-- 12 R262, R269, R271: the halting traps (disposition H) and the migration trap (disposition M). That the copy of
a message which migrates holds no place is the model's reading (log 40). -/
def Obligations.HaltsAndMigration : Prop := Claims.Halts ∧ Claims.MigrationTrap

/-- 14 R302 to R304, R311 to R313, 16 R347, R348: the passage of time, the reads of time and position, and `hl.defer`. That a passage of time
which the clocks do not allow does not happen, and the credit of the clocks, are log 12; the band of entry 4 is log 17, and the remaining time of
`hl.stat` log 43. -/
def Obligations.TimeAndDeferral : Prop := Claims.TimePasses ∧ Claims.TimeReads ∧ Claims.HeadlandDeferral

/-- 15 R316 to R320, R323, R327 to R329: arrivals, waits, masks and status of the barriers. That `bar.arrive` performs the slot's stores
where its core has already arrived too is the model's choice (log 93). -/
def Obligations.Barriers : Prop := Claims.BarrierArrivals ∧ Claims.BarrierMembership

/-- 17 R356, R360 to R366, 04 R85: mailboxes and the Gaussian instructions. That a read performs everything older than its slot's stores to the
record, and that a line is poisoned or clean from the first doubleword of a record on (log 93), that `mb.take` refuses an ill-formed record
(log 132), that the two writes of `gbp.damp` stand at one place (log 139), and its value for one record with itself (log 140), are the model's. -/
def Obligations.GaussianMailboxes : Prop := Claims.RecordPerformed ∧ Claims.Mailboxes ∧ Claims.GaussianSums ∧ Claims.GaussianUpdates

/-- 18 R379, R388 to R391: tests and ends of sequences, and the key-value pages. The completion's index at LIMIT is free (log 141). -/
def Obligations.SequencesAndPages : Prop := Claims.SequenceEnds ∧ Claims.KeyValuePages

/-- 09 R192, R193, R195, R200, R201, R203, R204, R207, 04 R76, R82: the grants of tiles, the starts that fail, and the end of a tile with the
values that it leaves, or with the failure of its operation. The layout of a unit in the pool (log 25), the order of the causes (log 39) and
the codes that the forms which do not multiply accept (log 113) are the model's choices. -/
def Obligations.PloughTiles : Prop := Claims.PloughGrants ∧ Claims.TileCommits

/-- 09 R193, R197, R214, R218: the geometry registers, and the waits for the plough. -/
def Obligations.PloughControl : Prop := Claims.PloughGeometry ∧ Claims.PloughWaits

/-- 16 R333 to R348, 19 R399, R400: headlands and gang switches. The order of a drain's tasks (log 2), the moment at which a position is
held (log 49), the stay of a holding that a STOP is closing (log 52), the gang switch under way that becomes part of a drain (log 47), that no
switch acts while a change of partition mode waits (log 53), and that a drain, a watchdog, a resume or a switch offered too early changes
nothing (log 23) are the model's choices. -/
def Obligations.HeadlandsAndSwitches : Prop := Claims.Headlands ∧ Claims.GangSwitches

/-- 19 R392 to R402, R409, R410: the holding commands, and the partition mode. What DESTROY takes from the dies of others (log 50), what an index keeps at a
change of mode (log 51), its weights there (log 121), and the count, the sequencer and the pending command of an estate then (log 53) are the model's choices. -/
def Obligations.HoldingManagement : Prop := Claims.HoldingCommands ∧ Claims.PartitionModes

/-- 18 R367 to R380, 19 R404, 02 R48, R443, 05 R105: launches, completions and rings. The model's choices: an index taken
modulo its ring (log 56), the wait of LAUNCH_TAKE for room in the ready queues (log 57), the pools of a launch refused for its class (log 83), the order
of the loader's accesses (log 84), class bytes above 3 (log 103) and the loader's page requests (log 104). -/
def Obligations.LaunchesAndRings : Prop := Claims.LaunchPlaces ∧ Claims.LaunchRefusals ∧ Claims.LaunchEnds ∧ Claims.RingServices

/-- 20 R411 to R416, R428, 21 R439: stewardship, the registers of the host, and bring-up. The lease after a handover is log 80, NumVFs log 107, that HM.ARG
keeps all 64 bits of a write log 122, panel time
at power-on log 12, what a power-on clears logs 9 and 87, that the host's memory outlasts a power-on log 92, and that a lapse offered while the lease runs
changes nothing log 23. -/
def Obligations.StewardAndRegisters : Prop := Claims.Stewardship ∧ Claims.HostRegisters

/-- 20 R423 to R426: the transplant and harvest engines. The model's choices, each named with its clause, are logs 63, 53, 62, 50, 146,
64, 26 and 23. -/
def Obligations.TransplantsAndHarvests : Prop := Claims.Transplants ∧ Claims.HarvestsAndRestores

end
end

