-- ==== Sys2Proof/Laws/Encoding.lean ====
section
/-! SUPPORT. The fields of the words that the encoder builds: each decoder field of each format (03 R51). -/

namespace Sys2Proof

theorem toNat_append {n m : Nat} (x : BitVec n) (y : BitVec m) : (x ++ y).toNat = x.toNat * 2 ^ m + y.toNat := by
  rw [BitVec.toNat_append, ← Nat.shiftLeft_add_eq_or_of_lt y.isLt, Nat.shiftLeft_eq]

theorem toNat_extract {n : Nat} (x : BitVec n) (s l : Nat) : (x.extractLsb' s l).toNat = x.toNat / 2 ^ s % 2 ^ l := by
  rw [BitVec.extractLsb'_toNat, Nat.shiftRight_eq_div_pow]

/-- Only the breakpoint word has all ones in its major field. -/
theorem ne_brkWord {w : W32} (h : fMajor w ≠ 0x3F) : w ≠ brkWord := by
  rintro rfl; exact h (by decide)

/-! Format RR. -/

theorem toNat_encRR (m : BitVec 6) (d : BitVec 5) (a : BitVec 5) (b : BitVec 5) (h : BitVec 1) (k : BitVec 4) (op : BitVec 6) :
    (encRR m d a b h k op).toNat = m.toNat * 2 ^ 26 + d.toNat * 2 ^ 21 + a.toNat * 2 ^ 16 + b.toNat * 2 ^ 11 + h.toNat * 2 ^ 10 + k.toNat * 2 ^ 6 + op.toNat := by
  simp only [encRR, toNat_append]; omega

@[simp] theorem fMajor_encRR (m : BitVec 6) (d : BitVec 5) (a : BitVec 5) (b : BitVec 5) (h : BitVec 1) (k : BitVec 4) (op : BitVec 6) : fMajor (encRR m d a b h k op) = m := by
  apply BitVec.eq_of_toNat_eq; simp only [fMajor, toNat_extract, toNat_encRR]; omega

@[simp] theorem fD_encRR (m : BitVec 6) (d : BitVec 5) (a : BitVec 5) (b : BitVec 5) (h : BitVec 1) (k : BitVec 4) (op : BitVec 6) : fD (encRR m d a b h k op) = d := by
  apply BitVec.eq_of_toNat_eq; simp only [fD, toNat_extract, toNat_encRR]; omega

@[simp] theorem fA_encRR (m : BitVec 6) (d : BitVec 5) (a : BitVec 5) (b : BitVec 5) (h : BitVec 1) (k : BitVec 4) (op : BitVec 6) : fA (encRR m d a b h k op) = a := by
  apply BitVec.eq_of_toNat_eq; simp only [fA, toNat_extract, toNat_encRR]; omega

@[simp] theorem fB_encRR (m : BitVec 6) (d : BitVec 5) (a : BitVec 5) (b : BitVec 5) (h : BitVec 1) (k : BitVec 4) (op : BitVec 6) : fB (encRR m d a b h k op) = b := by
  apply BitVec.eq_of_toNat_eq; simp only [fB, toNat_extract, toNat_encRR]; omega

@[simp] theorem fH_encRR (m : BitVec 6) (d : BitVec 5) (a : BitVec 5) (b : BitVec 5) (h : BitVec 1) (k : BitVec 4) (op : BitVec 6) : fH (encRR m d a b h k op) = h := by
  apply BitVec.eq_of_toNat_eq; simp only [fH, toNat_extract, toNat_encRR]; omega

@[simp] theorem fK_encRR (m : BitVec 6) (d : BitVec 5) (a : BitVec 5) (b : BitVec 5) (h : BitVec 1) (k : BitVec 4) (op : BitVec 6) : fK (encRR m d a b h k op) = k := by
  apply BitVec.eq_of_toNat_eq; simp only [fK, toNat_extract, toNat_encRR]; omega

@[simp] theorem fOp_encRR (m : BitVec 6) (d : BitVec 5) (a : BitVec 5) (b : BitVec 5) (h : BitVec 1) (k : BitVec 4) (op : BitVec 6) : fOp (encRR m d a b h k op) = op := by
  apply BitVec.eq_of_toNat_eq; simp only [fOp, toNat_extract, toNat_encRR]; omega

@[simp] theorem fAmt_encRR (m : BitVec 6) (d : BitVec 5) (a : BitVec 5) (b : BitVec 5) (h : BitVec 1) (k : BitVec 4) (op : BitVec 6) : fAmt (encRR m d a b h k op) = op := by
  apply BitVec.eq_of_toNat_eq; simp only [fAmt, toNat_extract, toNat_encRR]; omega

/-! Format AM. -/

theorem toNat_encAM (d : BitVec 5) (a : BitVec 5) (b : BitVec 5) (h : BitVec 1) (p : BitVec 1) (z : BitVec 1) (op : BitVec 4) :
    (encAM d a b h p z op).toNat = 48 * 2 ^ 26 + d.toNat * 2 ^ 21 + a.toNat * 2 ^ 16 + b.toNat * 2 ^ 11 + h.toNat * 2 ^ 10 + 0 * 2 ^ 6 + p.toNat * 2 ^ 5 + z.toNat * 2 ^ 4 + op.toNat := by
  simp only [encAM, toNat_append, BitVec.ofNat_eq_ofNat, BitVec.toNat_ofNat]; omega

@[simp] theorem fMajor_encAM (d : BitVec 5) (a : BitVec 5) (b : BitVec 5) (h : BitVec 1) (p : BitVec 1) (z : BitVec 1) (op : BitVec 4) : fMajor (encAM d a b h p z op) = 0x30#6 := by
  apply BitVec.eq_of_toNat_eq; simp only [fMajor, toNat_extract, toNat_encAM, BitVec.toNat_ofNat]; omega

@[simp] theorem fD_encAM (d : BitVec 5) (a : BitVec 5) (b : BitVec 5) (h : BitVec 1) (p : BitVec 1) (z : BitVec 1) (op : BitVec 4) : fD (encAM d a b h p z op) = d := by
  apply BitVec.eq_of_toNat_eq; simp only [fD, toNat_extract, toNat_encAM]; omega

@[simp] theorem fA_encAM (d : BitVec 5) (a : BitVec 5) (b : BitVec 5) (h : BitVec 1) (p : BitVec 1) (z : BitVec 1) (op : BitVec 4) : fA (encAM d a b h p z op) = a := by
  apply BitVec.eq_of_toNat_eq; simp only [fA, toNat_extract, toNat_encAM]; omega

@[simp] theorem fB_encAM (d : BitVec 5) (a : BitVec 5) (b : BitVec 5) (h : BitVec 1) (p : BitVec 1) (z : BitVec 1) (op : BitVec 4) : fB (encAM d a b h p z op) = b := by
  apply BitVec.eq_of_toNat_eq; simp only [fB, toNat_extract, toNat_encAM]; omega

@[simp] theorem fH_encAM (d : BitVec 5) (a : BitVec 5) (b : BitVec 5) (h : BitVec 1) (p : BitVec 1) (z : BitVec 1) (op : BitVec 4) : fH (encAM d a b h p z op) = h := by
  apply BitVec.eq_of_toNat_eq; simp only [fH, toNat_extract, toNat_encAM]; omega

@[simp] theorem fK_encAM (d : BitVec 5) (a : BitVec 5) (b : BitVec 5) (h : BitVec 1) (p : BitVec 1) (z : BitVec 1) (op : BitVec 4) : fK (encAM d a b h p z op) = 0#4 := by
  apply BitVec.eq_of_toNat_eq; simp only [fK, toNat_extract, toNat_encAM, BitVec.toNat_ofNat]; omega

@[simp] theorem fFn4_encAM (d : BitVec 5) (a : BitVec 5) (b : BitVec 5) (h : BitVec 1) (p : BitVec 1) (z : BitVec 1) (op : BitVec 4) : fFn4 (encAM d a b h p z op) = op := by
  apply BitVec.eq_of_toNat_eq; simp only [fFn4, toNat_extract, toNat_encAM]; omega

@[simp] theorem fPosted_encAM (d : BitVec 5) (a : BitVec 5) (b : BitVec 5) (h : BitVec 1) (p : BitVec 1) (z : BitVec 1) (op : BitVec 4) : fPosted (encAM d a b h p z op) = p := by
  apply BitVec.eq_of_toNat_eq; simp only [fPosted, toNat_extract, toNat_encAM]; omega

@[simp] theorem fZ_encAM (d : BitVec 5) (a : BitVec 5) (b : BitVec 5) (h : BitVec 1) (p : BitVec 1) (z : BitVec 1) (op : BitVec 4) : fZ (encAM d a b h p z op) = z := by
  apply BitVec.eq_of_toNat_eq; simp only [fZ, toNat_extract, toNat_encAM]; omega

@[simp] theorem fAmOp_encAM (d : BitVec 5) (a : BitVec 5) (b : BitVec 5) (h : BitVec 1) (p : BitVec 1) (z : BitVec 1) (op : BitVec 4) : fAmOp (encAM d a b h p z op) = op := by
  apply BitVec.eq_of_toNat_eq; simp only [fAmOp, toNat_extract, toNat_encAM]; omega

/-! Format OR. -/

theorem toNat_encOR (d : BitVec 5) (a : BitVec 5) (h : BitVec 1) (o : BitVec 3) (sc : BitVec 3) :
    (encOR d a h o sc).toNat = 49 * 2 ^ 26 + d.toNat * 2 ^ 21 + a.toNat * 2 ^ 16 + 0 * 2 ^ 11 + h.toNat * 2 ^ 10 + 0 * 2 ^ 6 + o.toNat * 2 ^ 3 + sc.toNat := by
  simp only [encOR, toNat_append, BitVec.ofNat_eq_ofNat, BitVec.toNat_ofNat]; omega

@[simp] theorem fMajor_encOR (d : BitVec 5) (a : BitVec 5) (h : BitVec 1) (o : BitVec 3) (sc : BitVec 3) : fMajor (encOR d a h o sc) = 0x31#6 := by
  apply BitVec.eq_of_toNat_eq; simp only [fMajor, toNat_extract, toNat_encOR, BitVec.toNat_ofNat]; omega

@[simp] theorem fD_encOR (d : BitVec 5) (a : BitVec 5) (h : BitVec 1) (o : BitVec 3) (sc : BitVec 3) : fD (encOR d a h o sc) = d := by
  apply BitVec.eq_of_toNat_eq; simp only [fD, toNat_extract, toNat_encOR]; omega

@[simp] theorem fA_encOR (d : BitVec 5) (a : BitVec 5) (h : BitVec 1) (o : BitVec 3) (sc : BitVec 3) : fA (encOR d a h o sc) = a := by
  apply BitVec.eq_of_toNat_eq; simp only [fA, toNat_extract, toNat_encOR]; omega

@[simp] theorem fB_encOR (d : BitVec 5) (a : BitVec 5) (h : BitVec 1) (o : BitVec 3) (sc : BitVec 3) : fB (encOR d a h o sc) = 0#5 := by
  apply BitVec.eq_of_toNat_eq; simp only [fB, toNat_extract, toNat_encOR, BitVec.toNat_ofNat]; omega

@[simp] theorem fH_encOR (d : BitVec 5) (a : BitVec 5) (h : BitVec 1) (o : BitVec 3) (sc : BitVec 3) : fH (encOR d a h o sc) = h := by
  apply BitVec.eq_of_toNat_eq; simp only [fH, toNat_extract, toNat_encOR]; omega

@[simp] theorem fK_encOR (d : BitVec 5) (a : BitVec 5) (h : BitVec 1) (o : BitVec 3) (sc : BitVec 3) : fK (encOR d a h o sc) = 0#4 := by
  apply BitVec.eq_of_toNat_eq; simp only [fK, toNat_extract, toNat_encOR, BitVec.toNat_ofNat]; omega

@[simp] theorem fOrd_encOR (d : BitVec 5) (a : BitVec 5) (h : BitVec 1) (o : BitVec 3) (sc : BitVec 3) : fOrd (encOR d a h o sc) = o := by
  apply BitVec.eq_of_toNat_eq; simp only [fOrd, toNat_extract, toNat_encOR]; omega

@[simp] theorem fScope_encOR (d : BitVec 5) (a : BitVec 5) (h : BitVec 1) (o : BitVec 3) (sc : BitVec 3) : fScope (encOR d a h o sc) = sc := by
  apply BitVec.eq_of_toNat_eq; simp only [fScope, toNat_extract, toNat_encOR]; omega

/-! Format RI. -/

theorem toNat_encRI (m : BitVec 6) (d : BitVec 5) (a : BitVec 5) (i : BitVec 16) :
    (encRI m d a i).toNat = m.toNat * 2 ^ 26 + d.toNat * 2 ^ 21 + a.toNat * 2 ^ 16 + i.toNat := by
  simp only [encRI, toNat_append]; omega

@[simp] theorem fMajor_encRI (m : BitVec 6) (d : BitVec 5) (a : BitVec 5) (i : BitVec 16) : fMajor (encRI m d a i) = m := by
  apply BitVec.eq_of_toNat_eq; simp only [fMajor, toNat_extract, toNat_encRI]; omega

@[simp] theorem fD_encRI (m : BitVec 6) (d : BitVec 5) (a : BitVec 5) (i : BitVec 16) : fD (encRI m d a i) = d := by
  apply BitVec.eq_of_toNat_eq; simp only [fD, toNat_extract, toNat_encRI]; omega

@[simp] theorem fA_encRI (m : BitVec 6) (d : BitVec 5) (a : BitVec 5) (i : BitVec 16) : fA (encRI m d a i) = a := by
  apply BitVec.eq_of_toNat_eq; simp only [fA, toNat_extract, toNat_encRI]; omega

@[simp] theorem fImm_encRI (m : BitVec 6) (d : BitVec 5) (a : BitVec 5) (i : BitVec 16) : fImm (encRI m d a i) = i := by
  apply BitVec.eq_of_toNat_eq; simp only [fImm, toNat_extract, toNat_encRI]; omega

/-! Format SH. -/

theorem toNat_encSH (d : BitVec 5) (a : BitVec 5) (sel : BitVec 4) (n : BitVec 6) :
    (encSH d a sel n).toNat = 8 * 2 ^ 26 + d.toNat * 2 ^ 21 + a.toNat * 2 ^ 16 + sel.toNat * 2 ^ 12 + 0 * 2 ^ 6 + n.toNat := by
  simp only [encSH, toNat_append, BitVec.ofNat_eq_ofNat, BitVec.toNat_ofNat]; omega

@[simp] theorem fMajor_encSH (d : BitVec 5) (a : BitVec 5) (sel : BitVec 4) (n : BitVec 6) : fMajor (encSH d a sel n) = 8#6 := by
  apply BitVec.eq_of_toNat_eq; simp only [fMajor, toNat_extract, toNat_encSH, BitVec.toNat_ofNat]; omega

@[simp] theorem fD_encSH (d : BitVec 5) (a : BitVec 5) (sel : BitVec 4) (n : BitVec 6) : fD (encSH d a sel n) = d := by
  apply BitVec.eq_of_toNat_eq; simp only [fD, toNat_extract, toNat_encSH]; omega

@[simp] theorem fA_encSH (d : BitVec 5) (a : BitVec 5) (sel : BitVec 4) (n : BitVec 6) : fA (encSH d a sel n) = a := by
  apply BitVec.eq_of_toNat_eq; simp only [fA, toNat_extract, toNat_encSH]; omega

@[simp] theorem fOp_encSH (d : BitVec 5) (a : BitVec 5) (sel : BitVec 4) (n : BitVec 6) : fOp (encSH d a sel n) = n := by
  apply BitVec.eq_of_toNat_eq; simp only [fOp, toNat_extract, toNat_encSH]; omega

@[simp] theorem fShift_encSH (d : BitVec 5) (a : BitVec 5) (sel : BitVec 4) (n : BitVec 6) : fShift (encSH d a sel n) = sel := by
  apply BitVec.eq_of_toNat_eq; simp only [fShift, toNat_extract, toNat_encSH]; omega

@[simp] theorem fMid_encSH (d : BitVec 5) (a : BitVec 5) (sel : BitVec 4) (n : BitVec 6) : fMid (encSH d a sel n) = 0#6 := by
  apply BitVec.eq_of_toNat_eq; simp only [fMid, toNat_extract, toNat_encSH, BitVec.toNat_ofNat]; omega

@[simp] theorem fAmt_encSH (d : BitVec 5) (a : BitVec 5) (sel : BitVec 4) (n : BitVec 6) : fAmt (encSH d a sel n) = n := by
  apply BitVec.eq_of_toNat_eq; simp only [fAmt, toNat_extract, toNat_encSH]; omega

/-! Format SY. -/

theorem toNat_encSY (d : BitVec 5) (a : BitVec 5) (s : BitVec 12) (fn : BitVec 4) :
    (encSY d a s fn).toNat = 2 * 2 ^ 26 + d.toNat * 2 ^ 21 + a.toNat * 2 ^ 16 + s.toNat * 2 ^ 4 + fn.toNat := by
  simp only [encSY, toNat_append, BitVec.ofNat_eq_ofNat, BitVec.toNat_ofNat]; omega

@[simp] theorem fMajor_encSY (d : BitVec 5) (a : BitVec 5) (s : BitVec 12) (fn : BitVec 4) : fMajor (encSY d a s fn) = 2#6 := by
  apply BitVec.eq_of_toNat_eq; simp only [fMajor, toNat_extract, toNat_encSY, BitVec.toNat_ofNat]; omega

@[simp] theorem fD_encSY (d : BitVec 5) (a : BitVec 5) (s : BitVec 12) (fn : BitVec 4) : fD (encSY d a s fn) = d := by
  apply BitVec.eq_of_toNat_eq; simp only [fD, toNat_extract, toNat_encSY]; omega

@[simp] theorem fA_encSY (d : BitVec 5) (a : BitVec 5) (s : BitVec 12) (fn : BitVec 4) : fA (encSY d a s fn) = a := by
  apply BitVec.eq_of_toNat_eq; simp only [fA, toNat_extract, toNat_encSY]; omega

@[simp] theorem fSys_encSY (d : BitVec 5) (a : BitVec 5) (s : BitVec 12) (fn : BitVec 4) : fSys (encSY d a s fn) = s := by
  apply BitVec.eq_of_toNat_eq; simp only [fSys, toNat_extract, toNat_encSY]; omega

@[simp] theorem fFn4_encSY (d : BitVec 5) (a : BitVec 5) (s : BitVec 12) (fn : BitVec 4) : fFn4 (encSY d a s fn) = fn := by
  apply BitVec.eq_of_toNat_eq; simp only [fFn4, toNat_extract, toNat_encSY]; omega

@[simp] theorem fAmOp_encSY (d : BitVec 5) (a : BitVec 5) (s : BitVec 12) (fn : BitVec 4) : fAmOp (encSY d a s fn) = fn := by
  apply BitVec.eq_of_toNat_eq; simp only [fAmOp, toNat_extract, toNat_encSY]; omega

/-! Format J. -/

theorem toNat_encJ (m : BitVec 6) (o : BitVec 26) :
    (encJ m o).toNat = m.toNat * 2 ^ 26 + o.toNat := by
  simp only [encJ, toNat_append]

@[simp] theorem fMajor_encJ (m : BitVec 6) (o : BitVec 26) : fMajor (encJ m o) = m := by
  apply BitVec.eq_of_toNat_eq; simp only [fMajor, toNat_extract, toNat_encJ]; omega

@[simp] theorem fOff_encJ (m : BitVec 6) (o : BitVec 26) : fOff (encJ m o) = o := by
  apply BitVec.eq_of_toNat_eq; simp only [fOff, toNat_extract, toNat_encJ]; omega

/-! Format EC. -/

theorem toNat_encEC (m : BitVec 6) (cmd : BitVec 7) (a : BitVec 5) (b : BitVec 5) (fl : BitVec 9) :
    (encEC m cmd a b fl).toNat = m.toNat * 2 ^ 26 + cmd.toNat * 2 ^ 19 + a.toNat * 2 ^ 14 + b.toNat * 2 ^ 9 + fl.toNat := by
  simp only [encEC, toNat_append]; omega

@[simp] theorem fMajor_encEC (m : BitVec 6) (cmd : BitVec 7) (a : BitVec 5) (b : BitVec 5) (fl : BitVec 9) : fMajor (encEC m cmd a b fl) = m := by
  apply BitVec.eq_of_toNat_eq; simp only [fMajor, toNat_extract, toNat_encEC]; omega

@[simp] theorem fOp_encEC (m : BitVec 6) (cmd : BitVec 7) (a : BitVec 5) (b : BitVec 5) (fl : BitVec 9) : fOp (encEC m cmd a b fl) = fl.extractLsb' 0 6 := by
  apply BitVec.eq_of_toNat_eq; simp only [fOp, toNat_extract, toNat_encEC]; omega

@[simp] theorem fFn4_encEC (m : BitVec 6) (cmd : BitVec 7) (a : BitVec 5) (b : BitVec 5) (fl : BitVec 9) : fFn4 (encEC m cmd a b fl) = fl.extractLsb' 0 4 := by
  apply BitVec.eq_of_toNat_eq; simp only [fFn4, toNat_extract, toNat_encEC]; omega

@[simp] theorem fAmt_encEC (m : BitVec 6) (cmd : BitVec 7) (a : BitVec 5) (b : BitVec 5) (fl : BitVec 9) : fAmt (encEC m cmd a b fl) = fl.extractLsb' 0 6 := by
  apply BitVec.eq_of_toNat_eq; simp only [fAmt, toNat_extract, toNat_encEC]; omega

@[simp] theorem fPosted_encEC (m : BitVec 6) (cmd : BitVec 7) (a : BitVec 5) (b : BitVec 5) (fl : BitVec 9) : fPosted (encEC m cmd a b fl) = fl.extractLsb' 5 1 := by
  apply BitVec.eq_of_toNat_eq; simp only [fPosted, toNat_extract, toNat_encEC]; omega

@[simp] theorem fZ_encEC (m : BitVec 6) (cmd : BitVec 7) (a : BitVec 5) (b : BitVec 5) (fl : BitVec 9) : fZ (encEC m cmd a b fl) = fl.extractLsb' 4 1 := by
  apply BitVec.eq_of_toNat_eq; simp only [fZ, toNat_extract, toNat_encEC]; omega

@[simp] theorem fAmOp_encEC (m : BitVec 6) (cmd : BitVec 7) (a : BitVec 5) (b : BitVec 5) (fl : BitVec 9) : fAmOp (encEC m cmd a b fl) = fl.extractLsb' 0 4 := by
  apply BitVec.eq_of_toNat_eq; simp only [fAmOp, toNat_extract, toNat_encEC]; omega

@[simp] theorem fOrd_encEC (m : BitVec 6) (cmd : BitVec 7) (a : BitVec 5) (b : BitVec 5) (fl : BitVec 9) : fOrd (encEC m cmd a b fl) = fl.extractLsb' 3 3 := by
  apply BitVec.eq_of_toNat_eq; simp only [fOrd, toNat_extract, toNat_encEC]; omega

@[simp] theorem fScope_encEC (m : BitVec 6) (cmd : BitVec 7) (a : BitVec 5) (b : BitVec 5) (fl : BitVec 9) : fScope (encEC m cmd a b fl) = fl.extractLsb' 0 3 := by
  apply BitVec.eq_of_toNat_eq; simp only [fScope, toNat_extract, toNat_encEC]; omega

@[simp] theorem fCmd_encEC (m : BitVec 6) (cmd : BitVec 7) (a : BitVec 5) (b : BitVec 5) (fl : BitVec 9) : fCmd (encEC m cmd a b fl) = cmd := by
  apply BitVec.eq_of_toNat_eq; simp only [fCmd, toNat_extract, toNat_encEC]; omega

@[simp] theorem fEa_encEC (m : BitVec 6) (cmd : BitVec 7) (a : BitVec 5) (b : BitVec 5) (fl : BitVec 9) : fEa (encEC m cmd a b fl) = a := by
  apply BitVec.eq_of_toNat_eq; simp only [fEa, toNat_extract, toNat_encEC]; omega

@[simp] theorem fEb_encEC (m : BitVec 6) (cmd : BitVec 7) (a : BitVec 5) (b : BitVec 5) (fl : BitVec 9) : fEb (encEC m cmd a b fl) = b := by
  apply BitVec.eq_of_toNat_eq; simp only [fEb, toNat_extract, toNat_encEC]; omega

@[simp] theorem fFlags_encEC (m : BitVec 6) (cmd : BitVec 7) (a : BitVec 5) (b : BitVec 5) (fl : BitVec 9) : fFlags (encEC m cmd a b fl) = fl := by
  apply BitVec.eq_of_toNat_eq; simp only [fFlags, toNat_extract, toNat_encEC]; omega

@[simp] theorem fSel_encEC (m : BitVec 6) (cmd : BitVec 7) (a : BitVec 5) (b : BitVec 5) (fl : BitVec 9) : fSel (encEC m cmd a b fl) = fl.extractLsb' 0 2 := by
  apply BitVec.eq_of_toNat_eq; simp only [fSel, toNat_extract, toNat_encEC]; omega

@[simp] theorem fFl0_encEC (m : BitVec 6) (cmd : BitVec 7) (a : BitVec 5) (b : BitVec 5) (fl : BitVec 9) : fFl0 (encEC m cmd a b fl) = fl.extractLsb' 0 1 := by
  apply BitVec.eq_of_toNat_eq; simp only [fFl0, toNat_extract, toNat_encEC]; omega

@[simp] theorem fFlZ_encEC (m : BitVec 6) (cmd : BitVec 7) (a : BitVec 5) (b : BitVec 5) (fl : BitVec 9) : fFlZ (encEC m cmd a b fl) = fl.extractLsb' 1 1 := by
  apply BitVec.eq_of_toNat_eq; simp only [fFlZ, toNat_extract, toNat_encEC]; omega

@[simp] theorem fFlOut_encEC (m : BitVec 6) (cmd : BitVec 7) (a : BitVec 5) (b : BitVec 5) (fl : BitVec 9) : fFlOut (encEC m cmd a b fl) = fl.extractLsb' 1 2 := by
  apply BitVec.eq_of_toNat_eq; simp only [fFlOut, toNat_extract, toNat_encEC]; omega

@[simp] theorem fFlHi2_encEC (m : BitVec 6) (cmd : BitVec 7) (a : BitVec 5) (b : BitVec 5) (fl : BitVec 9) : fFlHi2 (encEC m cmd a b fl) = fl.extractLsb' 2 7 := by
  apply BitVec.eq_of_toNat_eq; simp only [fFlHi2, toNat_extract, toNat_encEC]; omega

@[simp] theorem fFlHi3_encEC (m : BitVec 6) (cmd : BitVec 7) (a : BitVec 5) (b : BitVec 5) (fl : BitVec 9) : fFlHi3 (encEC m cmd a b fl) = fl.extractLsb' 3 6 := by
  apply BitVec.eq_of_toNat_eq; simp only [fFlHi3, toNat_extract, toNat_encEC]; omega

/-! Format VR. -/

theorem toNat_encVR (m : BitVec 6) (d : BitVec 5) (a : BitVec 5) (b : BitVec 5) (c : BitVec 5) (fn : BitVec 6) :
    (encVR m d a b c fn).toNat = m.toNat * 2 ^ 26 + d.toNat * 2 ^ 21 + a.toNat * 2 ^ 16 + b.toNat * 2 ^ 11 + c.toNat * 2 ^ 6 + fn.toNat := by
  simp only [encVR, toNat_append]; omega

@[simp] theorem fMajor_encVR (m : BitVec 6) (d : BitVec 5) (a : BitVec 5) (b : BitVec 5) (c : BitVec 5) (fn : BitVec 6) : fMajor (encVR m d a b c fn) = m := by
  apply BitVec.eq_of_toNat_eq; simp only [fMajor, toNat_extract, toNat_encVR]; omega

@[simp] theorem fD_encVR (m : BitVec 6) (d : BitVec 5) (a : BitVec 5) (b : BitVec 5) (c : BitVec 5) (fn : BitVec 6) : fD (encVR m d a b c fn) = d := by
  apply BitVec.eq_of_toNat_eq; simp only [fD, toNat_extract, toNat_encVR]; omega

@[simp] theorem fA_encVR (m : BitVec 6) (d : BitVec 5) (a : BitVec 5) (b : BitVec 5) (c : BitVec 5) (fn : BitVec 6) : fA (encVR m d a b c fn) = a := by
  apply BitVec.eq_of_toNat_eq; simp only [fA, toNat_extract, toNat_encVR]; omega

@[simp] theorem fB_encVR (m : BitVec 6) (d : BitVec 5) (a : BitVec 5) (b : BitVec 5) (c : BitVec 5) (fn : BitVec 6) : fB (encVR m d a b c fn) = b := by
  apply BitVec.eq_of_toNat_eq; simp only [fB, toNat_extract, toNat_encVR]; omega

@[simp] theorem fOp_encVR (m : BitVec 6) (d : BitVec 5) (a : BitVec 5) (b : BitVec 5) (c : BitVec 5) (fn : BitVec 6) : fOp (encVR m d a b c fn) = fn := by
  apply BitVec.eq_of_toNat_eq; simp only [fOp, toNat_extract, toNat_encVR]; omega

@[simp] theorem fC_encVR (m : BitVec 6) (d : BitVec 5) (a : BitVec 5) (b : BitVec 5) (c : BitVec 5) (fn : BitVec 6) : fC (encVR m d a b c fn) = c := by
  apply BitVec.eq_of_toNat_eq; simp only [fC, toNat_extract, toNat_encVR]; omega

@[simp] theorem fAmt_encVR (m : BitVec 6) (d : BitVec 5) (a : BitVec 5) (b : BitVec 5) (c : BitVec 5) (fn : BitVec 6) : fAmt (encVR m d a b c fn) = fn := by
  apply BitVec.eq_of_toNat_eq; simp only [fAmt, toNat_extract, toNat_encVR]; omega

/-! The flag bits that the plough instructions define (09 R213 to R217). -/

@[simp] theorem flags_sel (s : BitVec 2) : BitVec.extractLsb' 0 2 (0#7 ++ s) = s := by revert s; decide

@[simp] theorem flags_selHigh (s : BitVec 2) : BitVec.extractLsb' 2 7 (0#7 ++ s) = 0#7 := by revert s; decide

@[simp] theorem flags_zLow (z : BitVec 1) : BitVec.extractLsb' 0 1 (0#7 ++ z ++ 0#1) = 0#1 := by revert z; decide

@[simp] theorem flags_zHigh (z : BitVec 1) : BitVec.extractLsb' 2 7 (0#7 ++ z ++ 0#1) = 0#7 := by revert z; decide

@[simp] theorem flags_z (z : BitVec 1) : BitVec.extractLsb' 1 1 (0#7 ++ z ++ 0#1) = z := by revert z; decide

@[simp] theorem flags_outLow (o : BitVec 2) : BitVec.extractLsb' 0 1 (0#6 ++ o ++ 0#1) = 0#1 := by revert o; decide

@[simp] theorem flags_outHigh (o : BitVec 2) : BitVec.extractLsb' 3 6 (0#6 ++ o ++ 0#1) = 0#6 := by revert o; decide

@[simp] theorem flags_out (o : BitVec 2) : BitVec.extractLsb' 1 2 (0#6 ++ o ++ 0#1) = o := by revert o; decide

end Sys2Proof
end

