-- ==== Sys2Proof/Laws/Memory.lean ====
section
/-! SUPPORT. Byte memories: reading after writing, and that every memory operation keeps the canonical form. -/

namespace Sys2Proof.Machine

/-! ## Reading after writing -/

theorem Memory.get_set_ne (m : Memory) {k k' : Nat} (v : Byte) (h : k ≠ k') : Memory.get (Memory.set m k v) k' = Memory.get m k' := by
  induction m with
  | nil => simp only [Memory.set]; split <;> simp [Memory.get, h]
  | cons x m ih =>
    obtain ⟨j, w⟩ := x
    simp only [Memory.set]
    split
    · subst_vars; split <;> simp [Memory.get, h]
    · split
      · split <;> simp [Memory.get, h]
      · simp [Memory.get, ih]

/-- No entry of a memory above `k` has an address below `k`. -/
theorem Memory.get_below {n : Nat} {m : Memory} (hw : Memory.wfAbove n m = true) {k : Nat} (h : k < n) : Memory.get m k = 0 := by
  induction m generalizing n with
  | nil => rfl
  | cons x m ih =>
    obtain ⟨j, w⟩ := x
    simp only [Memory.wfAbove, Bool.and_eq_true, decide_eq_true_eq] at hw
    have hj : j ≠ k := by omega
    simp [Memory.get, hj, ih hw.2 (by omega)]

theorem Memory.get_set_above {n : Nat} {m : Memory} (hw : Memory.wfAbove n m = true) (k : Nat) (v : Byte) :
    Memory.get (Memory.set m k v) k = v := by
  induction m generalizing n with
  | nil => simp only [Memory.set]; split <;> simp_all [Memory.get]
  | cons x m ih =>
    obtain ⟨j, w⟩ := x
    simp only [Memory.wfAbove, Bool.and_eq_true, decide_eq_true_eq] at hw
    simp only [Memory.set]
    split
    · subst_vars
      split
      · subst_vars; exact Memory.get_below hw.2 (by omega)
      · simp [Memory.get]
    · split
      · split
        · subst_vars; simp [Memory.get, *, Memory.get_below hw.2 (show k < j + 1 by omega)]
        · simp [Memory.get]
      · simp [Memory.get, *, ih hw.2]

/-- A canonical memory reads what was written. -/
theorem Memory.get_set_self {m : Memory} (hw : m.wf = true) (k : Nat) (v : Byte) : Memory.get (Memory.set m k v) k = v :=
  Memory.get_set_above hw k v

/-! ## The canonical form -/

theorem Memory.wfAbove_mono {n n' : Nat} {m : Memory} (hw : Memory.wfAbove n m = true) (h : n' ≤ n) : Memory.wfAbove n' m = true := by
  cases m with
  | nil => rfl
  | cons x m =>
    obtain ⟨j, w⟩ := x
    simp only [Memory.wfAbove, Bool.and_eq_true, decide_eq_true_eq] at hw ⊢
    exact ⟨⟨by omega, hw.1.2⟩, hw.2⟩

theorem Memory.wfAbove_set {n : Nat} {m : Memory} (hw : Memory.wfAbove n m = true) {k : Nat} (hk : n ≤ k) (v : Byte) :
    Memory.wfAbove n (Memory.set m k v) = true := by
  induction m generalizing n with
  | nil => simp only [Memory.set]; split <;> simp_all [Memory.wfAbove]
  | cons x m ih =>
    obtain ⟨j, w⟩ := x
    have hw' := hw
    simp only [Memory.wfAbove, Bool.and_eq_true, decide_eq_true_eq] at hw
    simp only [Memory.set]
    split
    · subst_vars
      split
      · exact Memory.wfAbove_mono hw.2 (by omega)
      · simp_all [Memory.wfAbove]
    · split
      · split
        · exact hw'
        · simp only [Memory.wfAbove, Bool.and_eq_true, decide_eq_true_eq]
          exact ⟨⟨hk, by assumption⟩, ⟨by omega, hw.1.2⟩, hw.2⟩
      · simp only [Memory.wfAbove, Bool.and_eq_true, decide_eq_true_eq]
        exact ⟨hw.1, ih hw.2 (by omega)⟩

/-- Writing a byte keeps the canonical form. -/
theorem Memory.wf_set {m : Memory} (hw : m.wf = true) (k : Nat) (v : Byte) : (Memory.set m k v).wf = true :=
  Memory.wfAbove_set hw (Nat.zero_le k) v

/-- Writing a run of bytes keeps the canonical form. -/
theorem Memory.wf_write {m : Memory} (hw : m.wf = true) (k : Nat) (bs : List Byte) : (Memory.write m k bs).wf = true := by
  induction bs generalizing m k with
  | nil => exact hw
  | cons b bs ih => exact ih (Memory.wf_set hw k b) (k + 1)

/-- Writing bytes at listed addresses keeps the canonical form. -/
theorem Memory.wf_writeAll {m : Memory} (hw : m.wf = true) (ps : List (Nat × Byte)) : (Memory.writeAll m ps).wf = true := by
  induction ps generalizing m with
  | nil => exact hw
  | cons p ps ih => exact ih (Memory.wf_set hw p.1 p.2)

/-! ## What a run of writes leaves alone -/

theorem Memory.get_write_ne (m : Memory) (k : Nat) (bs : List Byte) {k' : Nat} (h : k' < k ∨ k + bs.length ≤ k') :
    Memory.get (Memory.write m k bs) k' = Memory.get m k' := by
  induction bs generalizing m k with
  | nil => rfl
  | cons b bs ih =>
    simp only [List.length_cons] at h
    rw [Memory.write, ih _ _ (by omega), Memory.get_set_ne _ _ (by omega)]

theorem Memory.get_writeAll_ne (m : Memory) (ps : List (Nat × Byte)) {k : Nat} (h : ∀ p ∈ ps, p.1 ≠ k) :
    Memory.get (Memory.writeAll m ps) k = Memory.get m k := by
  induction ps generalizing m with
  | nil => rfl
  | cons p ps ih =>
    rw [Memory.writeAll, ih _ fun q hq => h q (List.mem_cons_of_mem _ hq), Memory.get_set_ne _ _ (h p (List.mem_cons_self ..))]

/-! ## Bytes and numbers (00 R2) -/

@[simp] theorem length_toBytes (n x : Nat) : (toBytes n x).length = n := by
  induction n generalizing x with
  | zero => rfl
  | succ n ih => simp [toBytes, ih]

/-- Little-endian bytes give back the number that they were made from, modulo their width. -/
theorem ofBytes_toBytes (n x : Nat) : ofBytes (toBytes n x) = x % 256 ^ n := by
  induction n generalizing x with
  | zero => simp [toBytes, ofBytes, Nat.mod_one]
  | succ n ih =>
    simp only [toBytes, ofBytes, ih, BitVec.toNat_ofNat, show (2 : Nat) ^ 8 = 256 from rfl]
    rw [Nat.pow_succ, Nat.mul_comm (256 ^ n) 256, Nat.mod_mul]

@[simp] theorem Memory.length_read (m : Memory) (k len : Nat) : (Memory.read m k len).length = len := by
  induction len generalizing k with
  | zero => rfl
  | succ n ih => simp [Memory.read, ih]

end Sys2Proof.Machine
end

