-- ==== Sys2Proof/Laws/State.lean ====
section
/-! SUPPORT. The small lemmas of State: finite maps, what each update leaves of each field, and reading after writing. -/

namespace Sys2Proof

/-! ## Finite maps -/

theorem FMap.get_set {α : Type} (d : α) (m : FMap α) (k : Nat) (v : α) (k' : Nat) :
    FMap.get d (FMap.set m k v) k' = if k = k' then v else FMap.get d m k' := by
  induction m with
  | nil => simp [FMap.set, FMap.get]
  | cons x m ih =>
    obtain ⟨j, w⟩ := x
    simp only [FMap.set]
    split
    · subst_vars; simp only [FMap.get]; split <;> simp_all
    · split
      · simp only [FMap.get]
      · simp only [FMap.get, ih]
        split
        · subst_vars; exact (if_neg fun e => by omega).symm
        · rfl

@[simp] theorem FMap.set_set {α : Type} (m : FMap α) (k : Nat) (v w : α) : FMap.set (FMap.set m k v) k w = FMap.set m k w := by
  induction m with
  | nil => simp [FMap.set]
  | cons p m ih =>
    obtain ⟨j, x⟩ := p
    by_cases h : j = k
    · simp [FMap.set, h]
    · by_cases h' : k < j <;> simp [FMap.set, h, h', ih]
@[simp] theorem FMap.get_set_self {α : Type} (d : α) (m : FMap α) (k : Nat) (v : α) : FMap.get d (FMap.set m k v) k = v := by
  simp [FMap.get_set]

end Sys2Proof

namespace Sys2Proof.Machine

@[simp] theorem vset_self {α : Type} {n : Nat} (v : Vector α n) (i : Fin n) (x : α) : (vset v i x)[i.val] = x := by
  simp [vset]

theorem vset_ne {α : Type} {n : Nat} (v : Vector α n) (i j : Fin n) (x : α) (h : i ≠ j) : (vset v i x)[j.val] = v[j.val] := by
  have : i.val ≠ j.val := fun e => h (Fin.ext e)
  simp [vset, this]

/-! ## What each update leaves of each field -/

@[simp] theorem State.setDie_cur (s : State) (d : DieId) (x : DieHw) : (s.setDie d x).cur = s.cur := rfl
@[simp] theorem State.setDie_sched (s : State) (d : DieId) (x : DieHw) : (s.setDie d x).sched = s.sched := rfl
@[simp] theorem State.setDie_freshCount (s : State) (d : DieId) (x : DieHw) : (s.setDie d x).freshCount = s.freshCount := rfl
@[simp] theorem State.setDie_nextId (s : State) (d : DieId) (x : DieHw) : (s.setDie d x).nextId = s.nextId := rfl
@[simp] theorem State.setDie_outbox (s : State) (d : DieId) (x : DieHw) : (s.setDie d x).outbox = s.outbox := rfl
@[simp] theorem State.setDie_iommu (s : State) (d : DieId) (x : DieHw) : (s.setDie d x).iommu = s.iommu := rfl
@[simp] theorem State.setDie_hostMem (s : State) (d : DieId) (x : DieHw) : (s.setDie d x).hostMem = s.hostMem := rfl
@[simp] theorem State.setDie_peers (s : State) (d : DieId) (x : DieHw) : (s.setDie d x).peers = s.peers := rfl
@[simp] theorem State.setDie_mode (s : State) (d : DieId) (x : DieHw) : (s.setDie d x).mode = s.mode := rfl
@[simp] theorem State.setDie_pmStatus (s : State) (d : DieId) (x : DieHw) : (s.setDie d x).pmStatus = s.pmStatus := rfl
@[simp] theorem State.setDie_pmDrain (s : State) (d : DieId) (x : DieHw) : (s.setDie d x).pmDrain = s.pmDrain := rfl
@[simp] theorem State.setDie_pmNext (s : State) (d : DieId) (x : DieHw) : (s.setDie d x).pmNext = s.pmNext := rfl
@[simp] theorem State.setDie_bootStage (s : State) (d : DieId) (x : DieHw) : (s.setDie d x).bootStage = s.bootStage := rfl
@[simp] theorem State.setDie_numVfs (s : State) (d : DieId) (x : DieHw) : (s.setDie d x).numVfs = s.numVfs := rfl
@[simp] theorem State.setDie_bootResult (s : State) (d : DieId) (x : DieHw) : (s.setDie d x).bootResult = s.bootResult := rfl
@[simp] theorem State.setDie_panelNs (s : State) (d : DieId) (x : DieHw) : (s.setDie d x).panelNs = s.panelNs := rfl
@[simp] theorem State.setDie_refCredit (s : State) (d : DieId) (x : DieHw) : (s.setDie d x).refCredit = s.refCredit := rfl
@[simp] theorem State.setDie_mem (s : State) (d : DieId) (x : DieHw) : (s.setDie d x).mem = s.mem := rfl
@[simp] theorem State.setDie_memPoison (s : State) (d : DieId) (x : DieHw) : (s.setDie d x).memPoison = s.memPoison := rfl
@[simp] theorem State.setDie_images (s : State) (d : DieId) (x : DieHw) : (s.setDie d x).images = s.images := rfl
@[simp] theorem State.setDie_estates (s : State) (d : DieId) (x : DieHw) : (s.setDie d x).estates = s.estates := rfl
@[simp] theorem State.setDie_steward (s : State) (d : DieId) (x : DieHw) : (s.setDie d x).steward = s.steward := rfl
@[simp] theorem State.setDie_functions (s : State) (d : DieId) (x : DieHw) : (s.setDie d x).functions = s.functions := rfl
@[simp] theorem State.setDie_hostEvt (s : State) (d : DieId) (x : DieHw) : (s.setDie d x).hostEvt = s.hostEvt := rfl
@[simp] theorem State.setDie_hostMask (s : State) (d : DieId) (x : DieHw) : (s.setDie d x).hostMask = s.hostMask := rfl
@[simp] theorem State.setDie_links (s : State) (d : DieId) (x : DieHw) : (s.setDie d x).links = s.links := rfl
@[simp] theorem State.setDie_collTmo (s : State) (d : DieId) (x : DieHw) : (s.setDie d x).collTmo = s.collTmo := rfl
@[simp] theorem State.setDie_rung (s : State) (d : DieId) (x : DieHw) : (s.setDie d x).rung = s.rung := rfl
@[simp] theorem State.setDie_transplant (s : State) (d : DieId) (x : DieHw) : (s.setDie d x).transplant = s.transplant := rfl
@[simp] theorem State.setDie_harvest (s : State) (d : DieId) (x : DieHw) : (s.setDie d x).harvest = s.harvest := rfl
@[simp] theorem State.setDie_security (s : State) (d : DieId) (x : DieHw) : (s.setDie d x).security = s.security := rfl
@[simp] theorem State.setDie_power (s : State) (d : DieId) (x : DieHw) : (s.setDie d x).power = s.power := rfl
@[simp] theorem State.setDie_health (s : State) (d : DieId) (x : DieHw) : (s.setDie d x).health = s.health := rfl

@[simp] theorem State.setImage_cur (s : State) (d : DieId) (x : Image) : (s.setImage d x).cur = s.cur := rfl
@[simp] theorem State.setImage_sched (s : State) (d : DieId) (x : Image) : (s.setImage d x).sched = s.sched := rfl
@[simp] theorem State.setImage_freshCount (s : State) (d : DieId) (x : Image) : (s.setImage d x).freshCount = s.freshCount := rfl
@[simp] theorem State.setImage_nextId (s : State) (d : DieId) (x : Image) : (s.setImage d x).nextId = s.nextId := rfl
@[simp] theorem State.setImage_outbox (s : State) (d : DieId) (x : Image) : (s.setImage d x).outbox = s.outbox := rfl
@[simp] theorem State.setImage_iommu (s : State) (d : DieId) (x : Image) : (s.setImage d x).iommu = s.iommu := rfl
@[simp] theorem State.setImage_hostMem (s : State) (d : DieId) (x : Image) : (s.setImage d x).hostMem = s.hostMem := rfl
@[simp] theorem State.setImage_peers (s : State) (d : DieId) (x : Image) : (s.setImage d x).peers = s.peers := rfl
@[simp] theorem State.setImage_mode (s : State) (d : DieId) (x : Image) : (s.setImage d x).mode = s.mode := rfl
@[simp] theorem State.setImage_pmStatus (s : State) (d : DieId) (x : Image) : (s.setImage d x).pmStatus = s.pmStatus := rfl
@[simp] theorem State.setImage_pmDrain (s : State) (d : DieId) (x : Image) : (s.setImage d x).pmDrain = s.pmDrain := rfl
@[simp] theorem State.setImage_pmNext (s : State) (d : DieId) (x : Image) : (s.setImage d x).pmNext = s.pmNext := rfl
@[simp] theorem State.setImage_bootStage (s : State) (d : DieId) (x : Image) : (s.setImage d x).bootStage = s.bootStage := rfl
@[simp] theorem State.setImage_numVfs (s : State) (d : DieId) (x : Image) : (s.setImage d x).numVfs = s.numVfs := rfl
@[simp] theorem State.setImage_bootResult (s : State) (d : DieId) (x : Image) : (s.setImage d x).bootResult = s.bootResult := rfl
@[simp] theorem State.setImage_panelNs (s : State) (d : DieId) (x : Image) : (s.setImage d x).panelNs = s.panelNs := rfl
@[simp] theorem State.setImage_refCredit (s : State) (d : DieId) (x : Image) : (s.setImage d x).refCredit = s.refCredit := rfl
@[simp] theorem State.setImage_mem (s : State) (d : DieId) (x : Image) : (s.setImage d x).mem = s.mem := rfl
@[simp] theorem State.setImage_memPoison (s : State) (d : DieId) (x : Image) : (s.setImage d x).memPoison = s.memPoison := rfl
@[simp] theorem State.setImage_dies (s : State) (d : DieId) (x : Image) : (s.setImage d x).dies = s.dies := rfl
@[simp] theorem State.setImage_estates (s : State) (d : DieId) (x : Image) : (s.setImage d x).estates = s.estates := rfl
@[simp] theorem State.setImage_steward (s : State) (d : DieId) (x : Image) : (s.setImage d x).steward = s.steward := rfl
@[simp] theorem State.setImage_functions (s : State) (d : DieId) (x : Image) : (s.setImage d x).functions = s.functions := rfl
@[simp] theorem State.setImage_hostEvt (s : State) (d : DieId) (x : Image) : (s.setImage d x).hostEvt = s.hostEvt := rfl
@[simp] theorem State.setImage_hostMask (s : State) (d : DieId) (x : Image) : (s.setImage d x).hostMask = s.hostMask := rfl
@[simp] theorem State.setImage_links (s : State) (d : DieId) (x : Image) : (s.setImage d x).links = s.links := rfl
@[simp] theorem State.setImage_collTmo (s : State) (d : DieId) (x : Image) : (s.setImage d x).collTmo = s.collTmo := rfl
@[simp] theorem State.setImage_rung (s : State) (d : DieId) (x : Image) : (s.setImage d x).rung = s.rung := rfl
@[simp] theorem State.setImage_transplant (s : State) (d : DieId) (x : Image) : (s.setImage d x).transplant = s.transplant := rfl
@[simp] theorem State.setImage_harvest (s : State) (d : DieId) (x : Image) : (s.setImage d x).harvest = s.harvest := rfl
@[simp] theorem State.setImage_security (s : State) (d : DieId) (x : Image) : (s.setImage d x).security = s.security := rfl
@[simp] theorem State.setImage_power (s : State) (d : DieId) (x : Image) : (s.setImage d x).power = s.power := rfl
@[simp] theorem State.setImage_health (s : State) (d : DieId) (x : Image) : (s.setImage d x).health = s.health := rfl

@[simp] theorem State.setCore_cur (s : State) (c : CoreRef) (x : Core) : (s.setCore c x).cur = s.cur := rfl
@[simp] theorem State.setCore_sched (s : State) (c : CoreRef) (x : Core) : (s.setCore c x).sched = s.sched := rfl
@[simp] theorem State.setCore_freshCount (s : State) (c : CoreRef) (x : Core) : (s.setCore c x).freshCount = s.freshCount := rfl
@[simp] theorem State.setCore_nextId (s : State) (c : CoreRef) (x : Core) : (s.setCore c x).nextId = s.nextId := rfl
@[simp] theorem State.setCore_outbox (s : State) (c : CoreRef) (x : Core) : (s.setCore c x).outbox = s.outbox := rfl
@[simp] theorem State.setCore_iommu (s : State) (c : CoreRef) (x : Core) : (s.setCore c x).iommu = s.iommu := rfl
@[simp] theorem State.setCore_hostMem (s : State) (c : CoreRef) (x : Core) : (s.setCore c x).hostMem = s.hostMem := rfl
@[simp] theorem State.setCore_peers (s : State) (c : CoreRef) (x : Core) : (s.setCore c x).peers = s.peers := rfl
@[simp] theorem State.setCore_mode (s : State) (c : CoreRef) (x : Core) : (s.setCore c x).mode = s.mode := rfl
@[simp] theorem State.setCore_pmStatus (s : State) (c : CoreRef) (x : Core) : (s.setCore c x).pmStatus = s.pmStatus := rfl
@[simp] theorem State.setCore_pmDrain (s : State) (c : CoreRef) (x : Core) : (s.setCore c x).pmDrain = s.pmDrain := rfl
@[simp] theorem State.setCore_pmNext (s : State) (c : CoreRef) (x : Core) : (s.setCore c x).pmNext = s.pmNext := rfl
@[simp] theorem State.setCore_bootStage (s : State) (c : CoreRef) (x : Core) : (s.setCore c x).bootStage = s.bootStage := rfl
@[simp] theorem State.setCore_numVfs (s : State) (c : CoreRef) (x : Core) : (s.setCore c x).numVfs = s.numVfs := rfl
@[simp] theorem State.setCore_bootResult (s : State) (c : CoreRef) (x : Core) : (s.setCore c x).bootResult = s.bootResult := rfl
@[simp] theorem State.setCore_panelNs (s : State) (c : CoreRef) (x : Core) : (s.setCore c x).panelNs = s.panelNs := rfl
@[simp] theorem State.setCore_refCredit (s : State) (c : CoreRef) (x : Core) : (s.setCore c x).refCredit = s.refCredit := rfl
@[simp] theorem State.setCore_mem (s : State) (c : CoreRef) (x : Core) : (s.setCore c x).mem = s.mem := rfl
@[simp] theorem State.setCore_memPoison (s : State) (c : CoreRef) (x : Core) : (s.setCore c x).memPoison = s.memPoison := rfl
@[simp] theorem State.setCore_dies (s : State) (c : CoreRef) (x : Core) : (s.setCore c x).dies = s.dies := rfl
@[simp] theorem State.setCore_estates (s : State) (c : CoreRef) (x : Core) : (s.setCore c x).estates = s.estates := rfl
@[simp] theorem State.setCore_steward (s : State) (c : CoreRef) (x : Core) : (s.setCore c x).steward = s.steward := rfl
@[simp] theorem State.setCore_functions (s : State) (c : CoreRef) (x : Core) : (s.setCore c x).functions = s.functions := rfl
@[simp] theorem State.setCore_hostEvt (s : State) (c : CoreRef) (x : Core) : (s.setCore c x).hostEvt = s.hostEvt := rfl
@[simp] theorem State.setCore_hostMask (s : State) (c : CoreRef) (x : Core) : (s.setCore c x).hostMask = s.hostMask := rfl
@[simp] theorem State.setCore_links (s : State) (c : CoreRef) (x : Core) : (s.setCore c x).links = s.links := rfl
@[simp] theorem State.setCore_collTmo (s : State) (c : CoreRef) (x : Core) : (s.setCore c x).collTmo = s.collTmo := rfl
@[simp] theorem State.setCore_rung (s : State) (c : CoreRef) (x : Core) : (s.setCore c x).rung = s.rung := rfl
@[simp] theorem State.setCore_transplant (s : State) (c : CoreRef) (x : Core) : (s.setCore c x).transplant = s.transplant := rfl
@[simp] theorem State.setCore_harvest (s : State) (c : CoreRef) (x : Core) : (s.setCore c x).harvest = s.harvest := rfl
@[simp] theorem State.setCore_security (s : State) (c : CoreRef) (x : Core) : (s.setCore c x).security = s.security := rfl
@[simp] theorem State.setCore_power (s : State) (c : CoreRef) (x : Core) : (s.setCore c x).power = s.power := rfl
@[simp] theorem State.setCore_health (s : State) (c : CoreRef) (x : Core) : (s.setCore c x).health = s.health := rfl

@[simp] theorem State.setSlot_cur (s : State) (r : SlotRef) (x : Slot) : (s.setSlot r x).cur = s.cur := rfl
@[simp] theorem State.setSlot_sched (s : State) (r : SlotRef) (x : Slot) : (s.setSlot r x).sched = s.sched := rfl
@[simp] theorem State.setSlot_freshCount (s : State) (r : SlotRef) (x : Slot) : (s.setSlot r x).freshCount = s.freshCount := rfl
@[simp] theorem State.setSlot_nextId (s : State) (r : SlotRef) (x : Slot) : (s.setSlot r x).nextId = s.nextId := rfl
@[simp] theorem State.setSlot_outbox (s : State) (r : SlotRef) (x : Slot) : (s.setSlot r x).outbox = s.outbox := rfl
@[simp] theorem State.setSlot_iommu (s : State) (r : SlotRef) (x : Slot) : (s.setSlot r x).iommu = s.iommu := rfl
@[simp] theorem State.setSlot_hostMem (s : State) (r : SlotRef) (x : Slot) : (s.setSlot r x).hostMem = s.hostMem := rfl
@[simp] theorem State.setSlot_peers (s : State) (r : SlotRef) (x : Slot) : (s.setSlot r x).peers = s.peers := rfl
@[simp] theorem State.setSlot_mode (s : State) (r : SlotRef) (x : Slot) : (s.setSlot r x).mode = s.mode := rfl
@[simp] theorem State.setSlot_pmStatus (s : State) (r : SlotRef) (x : Slot) : (s.setSlot r x).pmStatus = s.pmStatus := rfl
@[simp] theorem State.setSlot_pmDrain (s : State) (r : SlotRef) (x : Slot) : (s.setSlot r x).pmDrain = s.pmDrain := rfl
@[simp] theorem State.setSlot_pmNext (s : State) (r : SlotRef) (x : Slot) : (s.setSlot r x).pmNext = s.pmNext := rfl
@[simp] theorem State.setSlot_bootStage (s : State) (r : SlotRef) (x : Slot) : (s.setSlot r x).bootStage = s.bootStage := rfl
@[simp] theorem State.setSlot_numVfs (s : State) (r : SlotRef) (x : Slot) : (s.setSlot r x).numVfs = s.numVfs := rfl
@[simp] theorem State.setSlot_bootResult (s : State) (r : SlotRef) (x : Slot) : (s.setSlot r x).bootResult = s.bootResult := rfl
@[simp] theorem State.setSlot_panelNs (s : State) (r : SlotRef) (x : Slot) : (s.setSlot r x).panelNs = s.panelNs := rfl
@[simp] theorem State.setSlot_refCredit (s : State) (r : SlotRef) (x : Slot) : (s.setSlot r x).refCredit = s.refCredit := rfl
@[simp] theorem State.setSlot_mem (s : State) (r : SlotRef) (x : Slot) : (s.setSlot r x).mem = s.mem := rfl
@[simp] theorem State.setSlot_memPoison (s : State) (r : SlotRef) (x : Slot) : (s.setSlot r x).memPoison = s.memPoison := rfl
@[simp] theorem State.setSlot_dies (s : State) (r : SlotRef) (x : Slot) : (s.setSlot r x).dies = s.dies := rfl
@[simp] theorem State.setSlot_estates (s : State) (r : SlotRef) (x : Slot) : (s.setSlot r x).estates = s.estates := rfl
@[simp] theorem State.setSlot_steward (s : State) (r : SlotRef) (x : Slot) : (s.setSlot r x).steward = s.steward := rfl
@[simp] theorem State.setSlot_functions (s : State) (r : SlotRef) (x : Slot) : (s.setSlot r x).functions = s.functions := rfl
@[simp] theorem State.setSlot_hostEvt (s : State) (r : SlotRef) (x : Slot) : (s.setSlot r x).hostEvt = s.hostEvt := rfl
@[simp] theorem State.setSlot_hostMask (s : State) (r : SlotRef) (x : Slot) : (s.setSlot r x).hostMask = s.hostMask := rfl
@[simp] theorem State.setSlot_links (s : State) (r : SlotRef) (x : Slot) : (s.setSlot r x).links = s.links := rfl
@[simp] theorem State.setSlot_collTmo (s : State) (r : SlotRef) (x : Slot) : (s.setSlot r x).collTmo = s.collTmo := rfl
@[simp] theorem State.setSlot_rung (s : State) (r : SlotRef) (x : Slot) : (s.setSlot r x).rung = s.rung := rfl
@[simp] theorem State.setSlot_transplant (s : State) (r : SlotRef) (x : Slot) : (s.setSlot r x).transplant = s.transplant := rfl
@[simp] theorem State.setSlot_harvest (s : State) (r : SlotRef) (x : Slot) : (s.setSlot r x).harvest = s.harvest := rfl
@[simp] theorem State.setSlot_security (s : State) (r : SlotRef) (x : Slot) : (s.setSlot r x).security = s.security := rfl
@[simp] theorem State.setSlot_power (s : State) (r : SlotRef) (x : Slot) : (s.setSlot r x).power = s.power := rfl
@[simp] theorem State.setSlot_health (s : State) (r : SlotRef) (x : Slot) : (s.setSlot r x).health = s.health := rfl

@[simp] theorem State.setTask_cur (s : State) (r : SlotRef) (t : Task) : (s.setTask r t).cur = s.cur := rfl
@[simp] theorem State.setTask_sched (s : State) (r : SlotRef) (t : Task) : (s.setTask r t).sched = s.sched := rfl
@[simp] theorem State.setTask_freshCount (s : State) (r : SlotRef) (t : Task) : (s.setTask r t).freshCount = s.freshCount := rfl
@[simp] theorem State.setTask_nextId (s : State) (r : SlotRef) (t : Task) : (s.setTask r t).nextId = s.nextId := rfl
@[simp] theorem State.setTask_outbox (s : State) (r : SlotRef) (t : Task) : (s.setTask r t).outbox = s.outbox := rfl
@[simp] theorem State.setTask_iommu (s : State) (r : SlotRef) (t : Task) : (s.setTask r t).iommu = s.iommu := rfl
@[simp] theorem State.setTask_hostMem (s : State) (r : SlotRef) (t : Task) : (s.setTask r t).hostMem = s.hostMem := rfl
@[simp] theorem State.setTask_peers (s : State) (r : SlotRef) (t : Task) : (s.setTask r t).peers = s.peers := rfl
@[simp] theorem State.setTask_mode (s : State) (r : SlotRef) (t : Task) : (s.setTask r t).mode = s.mode := rfl
@[simp] theorem State.setTask_pmStatus (s : State) (r : SlotRef) (t : Task) : (s.setTask r t).pmStatus = s.pmStatus := rfl
@[simp] theorem State.setTask_pmDrain (s : State) (r : SlotRef) (t : Task) : (s.setTask r t).pmDrain = s.pmDrain := rfl
@[simp] theorem State.setTask_pmNext (s : State) (r : SlotRef) (t : Task) : (s.setTask r t).pmNext = s.pmNext := rfl
@[simp] theorem State.setTask_bootStage (s : State) (r : SlotRef) (t : Task) : (s.setTask r t).bootStage = s.bootStage := rfl
@[simp] theorem State.setTask_numVfs (s : State) (r : SlotRef) (t : Task) : (s.setTask r t).numVfs = s.numVfs := rfl
@[simp] theorem State.setTask_bootResult (s : State) (r : SlotRef) (t : Task) : (s.setTask r t).bootResult = s.bootResult := rfl
@[simp] theorem State.setTask_panelNs (s : State) (r : SlotRef) (t : Task) : (s.setTask r t).panelNs = s.panelNs := rfl
@[simp] theorem State.setTask_refCredit (s : State) (r : SlotRef) (t : Task) : (s.setTask r t).refCredit = s.refCredit := rfl
@[simp] theorem State.setTask_mem (s : State) (r : SlotRef) (t : Task) : (s.setTask r t).mem = s.mem := rfl
@[simp] theorem State.setTask_memPoison (s : State) (r : SlotRef) (t : Task) : (s.setTask r t).memPoison = s.memPoison := rfl
@[simp] theorem State.setTask_dies (s : State) (r : SlotRef) (t : Task) : (s.setTask r t).dies = s.dies := rfl
@[simp] theorem State.setTask_estates (s : State) (r : SlotRef) (t : Task) : (s.setTask r t).estates = s.estates := rfl
@[simp] theorem State.setTask_steward (s : State) (r : SlotRef) (t : Task) : (s.setTask r t).steward = s.steward := rfl
@[simp] theorem State.setTask_functions (s : State) (r : SlotRef) (t : Task) : (s.setTask r t).functions = s.functions := rfl
@[simp] theorem State.setTask_hostEvt (s : State) (r : SlotRef) (t : Task) : (s.setTask r t).hostEvt = s.hostEvt := rfl
@[simp] theorem State.setTask_hostMask (s : State) (r : SlotRef) (t : Task) : (s.setTask r t).hostMask = s.hostMask := rfl
@[simp] theorem State.setTask_links (s : State) (r : SlotRef) (t : Task) : (s.setTask r t).links = s.links := rfl
@[simp] theorem State.setTask_collTmo (s : State) (r : SlotRef) (t : Task) : (s.setTask r t).collTmo = s.collTmo := rfl
@[simp] theorem State.setTask_rung (s : State) (r : SlotRef) (t : Task) : (s.setTask r t).rung = s.rung := rfl
@[simp] theorem State.setTask_transplant (s : State) (r : SlotRef) (t : Task) : (s.setTask r t).transplant = s.transplant := rfl
@[simp] theorem State.setTask_harvest (s : State) (r : SlotRef) (t : Task) : (s.setTask r t).harvest = s.harvest := rfl
@[simp] theorem State.setTask_security (s : State) (r : SlotRef) (t : Task) : (s.setTask r t).security = s.security := rfl
@[simp] theorem State.setTask_power (s : State) (r : SlotRef) (t : Task) : (s.setTask r t).power = s.power := rfl
@[simp] theorem State.setTask_health (s : State) (r : SlotRef) (t : Task) : (s.setTask r t).health = s.health := rfl

@[simp] theorem State.setCluster_cur (s : State) (d : DieId) (c : Fin 60) (x : Cluster) : (s.setCluster d c x).cur = s.cur := rfl
@[simp] theorem State.setCluster_sched (s : State) (d : DieId) (c : Fin 60) (x : Cluster) : (s.setCluster d c x).sched = s.sched := rfl
@[simp] theorem State.setCluster_freshCount (s : State) (d : DieId) (c : Fin 60) (x : Cluster) : (s.setCluster d c x).freshCount = s.freshCount := rfl
@[simp] theorem State.setCluster_nextId (s : State) (d : DieId) (c : Fin 60) (x : Cluster) : (s.setCluster d c x).nextId = s.nextId := rfl
@[simp] theorem State.setCluster_outbox (s : State) (d : DieId) (c : Fin 60) (x : Cluster) : (s.setCluster d c x).outbox = s.outbox := rfl
@[simp] theorem State.setCluster_iommu (s : State) (d : DieId) (c : Fin 60) (x : Cluster) : (s.setCluster d c x).iommu = s.iommu := rfl
@[simp] theorem State.setCluster_hostMem (s : State) (d : DieId) (c : Fin 60) (x : Cluster) : (s.setCluster d c x).hostMem = s.hostMem := rfl
@[simp] theorem State.setCluster_peers (s : State) (d : DieId) (c : Fin 60) (x : Cluster) : (s.setCluster d c x).peers = s.peers := rfl
@[simp] theorem State.setCluster_mode (s : State) (d : DieId) (c : Fin 60) (x : Cluster) : (s.setCluster d c x).mode = s.mode := rfl
@[simp] theorem State.setCluster_pmStatus (s : State) (d : DieId) (c : Fin 60) (x : Cluster) : (s.setCluster d c x).pmStatus = s.pmStatus := rfl
@[simp] theorem State.setCluster_pmDrain (s : State) (d : DieId) (c : Fin 60) (x : Cluster) : (s.setCluster d c x).pmDrain = s.pmDrain := rfl
@[simp] theorem State.setCluster_pmNext (s : State) (d : DieId) (c : Fin 60) (x : Cluster) : (s.setCluster d c x).pmNext = s.pmNext := rfl
@[simp] theorem State.setCluster_bootStage (s : State) (d : DieId) (c : Fin 60) (x : Cluster) : (s.setCluster d c x).bootStage = s.bootStage := rfl
@[simp] theorem State.setCluster_numVfs (s : State) (d : DieId) (c : Fin 60) (x : Cluster) : (s.setCluster d c x).numVfs = s.numVfs := rfl
@[simp] theorem State.setCluster_bootResult (s : State) (d : DieId) (c : Fin 60) (x : Cluster) : (s.setCluster d c x).bootResult = s.bootResult := rfl
@[simp] theorem State.setCluster_panelNs (s : State) (d : DieId) (c : Fin 60) (x : Cluster) : (s.setCluster d c x).panelNs = s.panelNs := rfl
@[simp] theorem State.setCluster_refCredit (s : State) (d : DieId) (c : Fin 60) (x : Cluster) : (s.setCluster d c x).refCredit = s.refCredit := rfl
@[simp] theorem State.setCluster_mem (s : State) (d : DieId) (c : Fin 60) (x : Cluster) : (s.setCluster d c x).mem = s.mem := rfl
@[simp] theorem State.setCluster_memPoison (s : State) (d : DieId) (c : Fin 60) (x : Cluster) : (s.setCluster d c x).memPoison = s.memPoison := rfl
@[simp] theorem State.setCluster_dies (s : State) (d : DieId) (c : Fin 60) (x : Cluster) : (s.setCluster d c x).dies = s.dies := rfl
@[simp] theorem State.setCluster_estates (s : State) (d : DieId) (c : Fin 60) (x : Cluster) : (s.setCluster d c x).estates = s.estates := rfl
@[simp] theorem State.setCluster_steward (s : State) (d : DieId) (c : Fin 60) (x : Cluster) : (s.setCluster d c x).steward = s.steward := rfl
@[simp] theorem State.setCluster_functions (s : State) (d : DieId) (c : Fin 60) (x : Cluster) : (s.setCluster d c x).functions = s.functions := rfl
@[simp] theorem State.setCluster_hostEvt (s : State) (d : DieId) (c : Fin 60) (x : Cluster) : (s.setCluster d c x).hostEvt = s.hostEvt := rfl
@[simp] theorem State.setCluster_hostMask (s : State) (d : DieId) (c : Fin 60) (x : Cluster) : (s.setCluster d c x).hostMask = s.hostMask := rfl
@[simp] theorem State.setCluster_links (s : State) (d : DieId) (c : Fin 60) (x : Cluster) : (s.setCluster d c x).links = s.links := rfl
@[simp] theorem State.setCluster_collTmo (s : State) (d : DieId) (c : Fin 60) (x : Cluster) : (s.setCluster d c x).collTmo = s.collTmo := rfl
@[simp] theorem State.setCluster_rung (s : State) (d : DieId) (c : Fin 60) (x : Cluster) : (s.setCluster d c x).rung = s.rung := rfl
@[simp] theorem State.setCluster_transplant (s : State) (d : DieId) (c : Fin 60) (x : Cluster) : (s.setCluster d c x).transplant = s.transplant := rfl
@[simp] theorem State.setCluster_harvest (s : State) (d : DieId) (c : Fin 60) (x : Cluster) : (s.setCluster d c x).harvest = s.harvest := rfl
@[simp] theorem State.setCluster_security (s : State) (d : DieId) (c : Fin 60) (x : Cluster) : (s.setCluster d c x).security = s.security := rfl
@[simp] theorem State.setCluster_power (s : State) (d : DieId) (c : Fin 60) (x : Cluster) : (s.setCluster d c x).power = s.power := rfl
@[simp] theorem State.setCluster_health (s : State) (d : DieId) (c : Fin 60) (x : Cluster) : (s.setCluster d c x).health = s.health := rfl

@[simp] theorem State.setEstate_cur (s : State) (e : Fin 4) (x : Estate) : (s.setEstate e x).cur = s.cur := rfl
@[simp] theorem State.setEstate_sched (s : State) (e : Fin 4) (x : Estate) : (s.setEstate e x).sched = s.sched := rfl
@[simp] theorem State.setEstate_freshCount (s : State) (e : Fin 4) (x : Estate) : (s.setEstate e x).freshCount = s.freshCount := rfl
@[simp] theorem State.setEstate_nextId (s : State) (e : Fin 4) (x : Estate) : (s.setEstate e x).nextId = s.nextId := rfl
@[simp] theorem State.setEstate_outbox (s : State) (e : Fin 4) (x : Estate) : (s.setEstate e x).outbox = s.outbox := rfl
@[simp] theorem State.setEstate_iommu (s : State) (e : Fin 4) (x : Estate) : (s.setEstate e x).iommu = s.iommu := rfl
@[simp] theorem State.setEstate_hostMem (s : State) (e : Fin 4) (x : Estate) : (s.setEstate e x).hostMem = s.hostMem := rfl
@[simp] theorem State.setEstate_peers (s : State) (e : Fin 4) (x : Estate) : (s.setEstate e x).peers = s.peers := rfl
@[simp] theorem State.setEstate_mode (s : State) (e : Fin 4) (x : Estate) : (s.setEstate e x).mode = s.mode := rfl
@[simp] theorem State.setEstate_pmStatus (s : State) (e : Fin 4) (x : Estate) : (s.setEstate e x).pmStatus = s.pmStatus := rfl
@[simp] theorem State.setEstate_pmDrain (s : State) (e : Fin 4) (x : Estate) : (s.setEstate e x).pmDrain = s.pmDrain := rfl
@[simp] theorem State.setEstate_pmNext (s : State) (e : Fin 4) (x : Estate) : (s.setEstate e x).pmNext = s.pmNext := rfl
@[simp] theorem State.setEstate_bootStage (s : State) (e : Fin 4) (x : Estate) : (s.setEstate e x).bootStage = s.bootStage := rfl
@[simp] theorem State.setEstate_numVfs (s : State) (e : Fin 4) (x : Estate) : (s.setEstate e x).numVfs = s.numVfs := rfl
@[simp] theorem State.setEstate_bootResult (s : State) (e : Fin 4) (x : Estate) : (s.setEstate e x).bootResult = s.bootResult := rfl
@[simp] theorem State.setEstate_panelNs (s : State) (e : Fin 4) (x : Estate) : (s.setEstate e x).panelNs = s.panelNs := rfl
@[simp] theorem State.setEstate_refCredit (s : State) (e : Fin 4) (x : Estate) : (s.setEstate e x).refCredit = s.refCredit := rfl
@[simp] theorem State.setEstate_mem (s : State) (e : Fin 4) (x : Estate) : (s.setEstate e x).mem = s.mem := rfl
@[simp] theorem State.setEstate_memPoison (s : State) (e : Fin 4) (x : Estate) : (s.setEstate e x).memPoison = s.memPoison := rfl
@[simp] theorem State.setEstate_dies (s : State) (e : Fin 4) (x : Estate) : (s.setEstate e x).dies = s.dies := rfl
@[simp] theorem State.setEstate_images (s : State) (e : Fin 4) (x : Estate) : (s.setEstate e x).images = s.images := rfl
@[simp] theorem State.setEstate_steward (s : State) (e : Fin 4) (x : Estate) : (s.setEstate e x).steward = s.steward := rfl
@[simp] theorem State.setEstate_functions (s : State) (e : Fin 4) (x : Estate) : (s.setEstate e x).functions = s.functions := rfl
@[simp] theorem State.setEstate_hostEvt (s : State) (e : Fin 4) (x : Estate) : (s.setEstate e x).hostEvt = s.hostEvt := rfl
@[simp] theorem State.setEstate_hostMask (s : State) (e : Fin 4) (x : Estate) : (s.setEstate e x).hostMask = s.hostMask := rfl
@[simp] theorem State.setEstate_links (s : State) (e : Fin 4) (x : Estate) : (s.setEstate e x).links = s.links := rfl
@[simp] theorem State.setEstate_collTmo (s : State) (e : Fin 4) (x : Estate) : (s.setEstate e x).collTmo = s.collTmo := rfl
@[simp] theorem State.setEstate_rung (s : State) (e : Fin 4) (x : Estate) : (s.setEstate e x).rung = s.rung := rfl
@[simp] theorem State.setEstate_transplant (s : State) (e : Fin 4) (x : Estate) : (s.setEstate e x).transplant = s.transplant := rfl
@[simp] theorem State.setEstate_harvest (s : State) (e : Fin 4) (x : Estate) : (s.setEstate e x).harvest = s.harvest := rfl
@[simp] theorem State.setEstate_security (s : State) (e : Fin 4) (x : Estate) : (s.setEstate e x).security = s.security := rfl
@[simp] theorem State.setEstate_power (s : State) (e : Fin 4) (x : Estate) : (s.setEstate e x).power = s.power := rfl
@[simp] theorem State.setEstate_health (s : State) (e : Fin 4) (x : Estate) : (s.setEstate e x).health = s.health := rfl

@[simp] theorem State.setHold_cur (s : State) (h : HoldRef) (x : Holding) : (s.setHold h x).cur = s.cur := rfl
@[simp] theorem State.setHold_sched (s : State) (h : HoldRef) (x : Holding) : (s.setHold h x).sched = s.sched := rfl
@[simp] theorem State.setHold_freshCount (s : State) (h : HoldRef) (x : Holding) : (s.setHold h x).freshCount = s.freshCount := rfl
@[simp] theorem State.setHold_nextId (s : State) (h : HoldRef) (x : Holding) : (s.setHold h x).nextId = s.nextId := rfl
@[simp] theorem State.setHold_outbox (s : State) (h : HoldRef) (x : Holding) : (s.setHold h x).outbox = s.outbox := rfl
@[simp] theorem State.setHold_iommu (s : State) (h : HoldRef) (x : Holding) : (s.setHold h x).iommu = s.iommu := rfl
@[simp] theorem State.setHold_hostMem (s : State) (h : HoldRef) (x : Holding) : (s.setHold h x).hostMem = s.hostMem := rfl
@[simp] theorem State.setHold_peers (s : State) (h : HoldRef) (x : Holding) : (s.setHold h x).peers = s.peers := rfl
@[simp] theorem State.setHold_mode (s : State) (h : HoldRef) (x : Holding) : (s.setHold h x).mode = s.mode := rfl
@[simp] theorem State.setHold_pmStatus (s : State) (h : HoldRef) (x : Holding) : (s.setHold h x).pmStatus = s.pmStatus := rfl
@[simp] theorem State.setHold_pmDrain (s : State) (h : HoldRef) (x : Holding) : (s.setHold h x).pmDrain = s.pmDrain := rfl
@[simp] theorem State.setHold_pmNext (s : State) (h : HoldRef) (x : Holding) : (s.setHold h x).pmNext = s.pmNext := rfl
@[simp] theorem State.setHold_bootStage (s : State) (h : HoldRef) (x : Holding) : (s.setHold h x).bootStage = s.bootStage := rfl
@[simp] theorem State.setHold_numVfs (s : State) (h : HoldRef) (x : Holding) : (s.setHold h x).numVfs = s.numVfs := rfl
@[simp] theorem State.setHold_bootResult (s : State) (h : HoldRef) (x : Holding) : (s.setHold h x).bootResult = s.bootResult := rfl
@[simp] theorem State.setHold_panelNs (s : State) (h : HoldRef) (x : Holding) : (s.setHold h x).panelNs = s.panelNs := rfl
@[simp] theorem State.setHold_refCredit (s : State) (h : HoldRef) (x : Holding) : (s.setHold h x).refCredit = s.refCredit := rfl
@[simp] theorem State.setHold_mem (s : State) (h : HoldRef) (x : Holding) : (s.setHold h x).mem = s.mem := rfl
@[simp] theorem State.setHold_memPoison (s : State) (h : HoldRef) (x : Holding) : (s.setHold h x).memPoison = s.memPoison := rfl
@[simp] theorem State.setHold_dies (s : State) (h : HoldRef) (x : Holding) : (s.setHold h x).dies = s.dies := rfl
@[simp] theorem State.setHold_images (s : State) (h : HoldRef) (x : Holding) : (s.setHold h x).images = s.images := rfl
@[simp] theorem State.setHold_steward (s : State) (h : HoldRef) (x : Holding) : (s.setHold h x).steward = s.steward := rfl
@[simp] theorem State.setHold_functions (s : State) (h : HoldRef) (x : Holding) : (s.setHold h x).functions = s.functions := rfl
@[simp] theorem State.setHold_hostEvt (s : State) (h : HoldRef) (x : Holding) : (s.setHold h x).hostEvt = s.hostEvt := rfl
@[simp] theorem State.setHold_hostMask (s : State) (h : HoldRef) (x : Holding) : (s.setHold h x).hostMask = s.hostMask := rfl
@[simp] theorem State.setHold_links (s : State) (h : HoldRef) (x : Holding) : (s.setHold h x).links = s.links := rfl
@[simp] theorem State.setHold_collTmo (s : State) (h : HoldRef) (x : Holding) : (s.setHold h x).collTmo = s.collTmo := rfl
@[simp] theorem State.setHold_rung (s : State) (h : HoldRef) (x : Holding) : (s.setHold h x).rung = s.rung := rfl
@[simp] theorem State.setHold_transplant (s : State) (h : HoldRef) (x : Holding) : (s.setHold h x).transplant = s.transplant := rfl
@[simp] theorem State.setHold_harvest (s : State) (h : HoldRef) (x : Holding) : (s.setHold h x).harvest = s.harvest := rfl
@[simp] theorem State.setHold_security (s : State) (h : HoldRef) (x : Holding) : (s.setHold h x).security = s.security := rfl
@[simp] theorem State.setHold_power (s : State) (h : HoldRef) (x : Holding) : (s.setHold h x).power = s.power := rfl
@[simp] theorem State.setHold_health (s : State) (h : HoldRef) (x : Holding) : (s.setHold h x).health = s.health := rfl

@[simp] theorem State.modHold_cur (s : State) (h : HoldRef) (f : Holding → Holding) : (s.modHold h f).cur = s.cur := rfl
@[simp] theorem State.modHold_sched (s : State) (h : HoldRef) (f : Holding → Holding) : (s.modHold h f).sched = s.sched := rfl
@[simp] theorem State.modHold_freshCount (s : State) (h : HoldRef) (f : Holding → Holding) : (s.modHold h f).freshCount = s.freshCount := rfl
@[simp] theorem State.modHold_nextId (s : State) (h : HoldRef) (f : Holding → Holding) : (s.modHold h f).nextId = s.nextId := rfl
@[simp] theorem State.modHold_outbox (s : State) (h : HoldRef) (f : Holding → Holding) : (s.modHold h f).outbox = s.outbox := rfl
@[simp] theorem State.modHold_iommu (s : State) (h : HoldRef) (f : Holding → Holding) : (s.modHold h f).iommu = s.iommu := rfl
@[simp] theorem State.modHold_hostMem (s : State) (h : HoldRef) (f : Holding → Holding) : (s.modHold h f).hostMem = s.hostMem := rfl
@[simp] theorem State.modHold_peers (s : State) (h : HoldRef) (f : Holding → Holding) : (s.modHold h f).peers = s.peers := rfl
@[simp] theorem State.modHold_mode (s : State) (h : HoldRef) (f : Holding → Holding) : (s.modHold h f).mode = s.mode := rfl
@[simp] theorem State.modHold_pmStatus (s : State) (h : HoldRef) (f : Holding → Holding) : (s.modHold h f).pmStatus = s.pmStatus := rfl
@[simp] theorem State.modHold_pmDrain (s : State) (h : HoldRef) (f : Holding → Holding) : (s.modHold h f).pmDrain = s.pmDrain := rfl
@[simp] theorem State.modHold_pmNext (s : State) (h : HoldRef) (f : Holding → Holding) : (s.modHold h f).pmNext = s.pmNext := rfl
@[simp] theorem State.modHold_bootStage (s : State) (h : HoldRef) (f : Holding → Holding) : (s.modHold h f).bootStage = s.bootStage := rfl
@[simp] theorem State.modHold_numVfs (s : State) (h : HoldRef) (f : Holding → Holding) : (s.modHold h f).numVfs = s.numVfs := rfl
@[simp] theorem State.modHold_bootResult (s : State) (h : HoldRef) (f : Holding → Holding) : (s.modHold h f).bootResult = s.bootResult := rfl
@[simp] theorem State.modHold_panelNs (s : State) (h : HoldRef) (f : Holding → Holding) : (s.modHold h f).panelNs = s.panelNs := rfl
@[simp] theorem State.modHold_refCredit (s : State) (h : HoldRef) (f : Holding → Holding) : (s.modHold h f).refCredit = s.refCredit := rfl
@[simp] theorem State.modHold_mem (s : State) (h : HoldRef) (f : Holding → Holding) : (s.modHold h f).mem = s.mem := rfl
@[simp] theorem State.modHold_memPoison (s : State) (h : HoldRef) (f : Holding → Holding) : (s.modHold h f).memPoison = s.memPoison := rfl
@[simp] theorem State.modHold_dies (s : State) (h : HoldRef) (f : Holding → Holding) : (s.modHold h f).dies = s.dies := rfl
@[simp] theorem State.modHold_images (s : State) (h : HoldRef) (f : Holding → Holding) : (s.modHold h f).images = s.images := rfl
@[simp] theorem State.modHold_steward (s : State) (h : HoldRef) (f : Holding → Holding) : (s.modHold h f).steward = s.steward := rfl
@[simp] theorem State.modHold_functions (s : State) (h : HoldRef) (f : Holding → Holding) : (s.modHold h f).functions = s.functions := rfl
@[simp] theorem State.modHold_hostEvt (s : State) (h : HoldRef) (f : Holding → Holding) : (s.modHold h f).hostEvt = s.hostEvt := rfl
@[simp] theorem State.modHold_hostMask (s : State) (h : HoldRef) (f : Holding → Holding) : (s.modHold h f).hostMask = s.hostMask := rfl
@[simp] theorem State.modHold_links (s : State) (h : HoldRef) (f : Holding → Holding) : (s.modHold h f).links = s.links := rfl
@[simp] theorem State.modHold_collTmo (s : State) (h : HoldRef) (f : Holding → Holding) : (s.modHold h f).collTmo = s.collTmo := rfl
@[simp] theorem State.modHold_rung (s : State) (h : HoldRef) (f : Holding → Holding) : (s.modHold h f).rung = s.rung := rfl
@[simp] theorem State.modHold_transplant (s : State) (h : HoldRef) (f : Holding → Holding) : (s.modHold h f).transplant = s.transplant := rfl
@[simp] theorem State.modHold_harvest (s : State) (h : HoldRef) (f : Holding → Holding) : (s.modHold h f).harvest = s.harvest := rfl
@[simp] theorem State.modHold_security (s : State) (h : HoldRef) (f : Holding → Holding) : (s.modHold h f).security = s.security := rfl
@[simp] theorem State.modHold_power (s : State) (h : HoldRef) (f : Holding → Holding) : (s.modHold h f).power = s.power := rfl
@[simp] theorem State.modHold_health (s : State) (h : HoldRef) (f : Holding → Holding) : (s.modHold h f).health = s.health := rfl

@[simp] theorem State.setFn_cur (s : State) (f : Fin 64) (x : Function) : (s.setFn f x).cur = s.cur := rfl
@[simp] theorem State.setFn_sched (s : State) (f : Fin 64) (x : Function) : (s.setFn f x).sched = s.sched := rfl
@[simp] theorem State.setFn_freshCount (s : State) (f : Fin 64) (x : Function) : (s.setFn f x).freshCount = s.freshCount := rfl
@[simp] theorem State.setFn_nextId (s : State) (f : Fin 64) (x : Function) : (s.setFn f x).nextId = s.nextId := rfl
@[simp] theorem State.setFn_outbox (s : State) (f : Fin 64) (x : Function) : (s.setFn f x).outbox = s.outbox := rfl
@[simp] theorem State.setFn_iommu (s : State) (f : Fin 64) (x : Function) : (s.setFn f x).iommu = s.iommu := rfl
@[simp] theorem State.setFn_hostMem (s : State) (f : Fin 64) (x : Function) : (s.setFn f x).hostMem = s.hostMem := rfl
@[simp] theorem State.setFn_peers (s : State) (f : Fin 64) (x : Function) : (s.setFn f x).peers = s.peers := rfl
@[simp] theorem State.setFn_mode (s : State) (f : Fin 64) (x : Function) : (s.setFn f x).mode = s.mode := rfl
@[simp] theorem State.setFn_pmStatus (s : State) (f : Fin 64) (x : Function) : (s.setFn f x).pmStatus = s.pmStatus := rfl
@[simp] theorem State.setFn_pmDrain (s : State) (f : Fin 64) (x : Function) : (s.setFn f x).pmDrain = s.pmDrain := rfl
@[simp] theorem State.setFn_pmNext (s : State) (f : Fin 64) (x : Function) : (s.setFn f x).pmNext = s.pmNext := rfl
@[simp] theorem State.setFn_bootStage (s : State) (f : Fin 64) (x : Function) : (s.setFn f x).bootStage = s.bootStage := rfl
@[simp] theorem State.setFn_numVfs (s : State) (f : Fin 64) (x : Function) : (s.setFn f x).numVfs = s.numVfs := rfl
@[simp] theorem State.setFn_bootResult (s : State) (f : Fin 64) (x : Function) : (s.setFn f x).bootResult = s.bootResult := rfl
@[simp] theorem State.setFn_panelNs (s : State) (f : Fin 64) (x : Function) : (s.setFn f x).panelNs = s.panelNs := rfl
@[simp] theorem State.setFn_refCredit (s : State) (f : Fin 64) (x : Function) : (s.setFn f x).refCredit = s.refCredit := rfl
@[simp] theorem State.setFn_mem (s : State) (f : Fin 64) (x : Function) : (s.setFn f x).mem = s.mem := rfl
@[simp] theorem State.setFn_memPoison (s : State) (f : Fin 64) (x : Function) : (s.setFn f x).memPoison = s.memPoison := rfl
@[simp] theorem State.setFn_dies (s : State) (f : Fin 64) (x : Function) : (s.setFn f x).dies = s.dies := rfl
@[simp] theorem State.setFn_images (s : State) (f : Fin 64) (x : Function) : (s.setFn f x).images = s.images := rfl
@[simp] theorem State.setFn_estates (s : State) (f : Fin 64) (x : Function) : (s.setFn f x).estates = s.estates := rfl
@[simp] theorem State.setFn_steward (s : State) (f : Fin 64) (x : Function) : (s.setFn f x).steward = s.steward := rfl
@[simp] theorem State.setFn_hostEvt (s : State) (f : Fin 64) (x : Function) : (s.setFn f x).hostEvt = s.hostEvt := rfl
@[simp] theorem State.setFn_hostMask (s : State) (f : Fin 64) (x : Function) : (s.setFn f x).hostMask = s.hostMask := rfl
@[simp] theorem State.setFn_links (s : State) (f : Fin 64) (x : Function) : (s.setFn f x).links = s.links := rfl
@[simp] theorem State.setFn_collTmo (s : State) (f : Fin 64) (x : Function) : (s.setFn f x).collTmo = s.collTmo := rfl
@[simp] theorem State.setFn_rung (s : State) (f : Fin 64) (x : Function) : (s.setFn f x).rung = s.rung := rfl
@[simp] theorem State.setFn_transplant (s : State) (f : Fin 64) (x : Function) : (s.setFn f x).transplant = s.transplant := rfl
@[simp] theorem State.setFn_harvest (s : State) (f : Fin 64) (x : Function) : (s.setFn f x).harvest = s.harvest := rfl
@[simp] theorem State.setFn_security (s : State) (f : Fin 64) (x : Function) : (s.setFn f x).security = s.security := rfl
@[simp] theorem State.setFn_power (s : State) (f : Fin 64) (x : Function) : (s.setFn f x).power = s.power := rfl
@[simp] theorem State.setFn_health (s : State) (f : Fin 64) (x : Function) : (s.setFn f x).health = s.health := rfl

/-! `State.modTask` changes a slot's task or nothing. -/

theorem State.modTask_some {s : State} {r : SlotRef} {t : Task} (h : s.task r = some t) (f : Task → Task) :
    s.modTask r f = s.setTask r (f t) := by simp [State.modTask, h]

@[simp] theorem State.modTask_cur (s : State) (r : SlotRef) (f : Task → Task) : (s.modTask r f).cur = s.cur := by
  unfold State.modTask; split <;> rfl
@[simp] theorem State.modTask_sched (s : State) (r : SlotRef) (f : Task → Task) : (s.modTask r f).sched = s.sched := by
  unfold State.modTask; split <;> rfl
@[simp] theorem State.modTask_freshCount (s : State) (r : SlotRef) (f : Task → Task) : (s.modTask r f).freshCount = s.freshCount := by
  unfold State.modTask; split <;> rfl
@[simp] theorem State.modTask_nextId (s : State) (r : SlotRef) (f : Task → Task) : (s.modTask r f).nextId = s.nextId := by
  unfold State.modTask; split <;> rfl
@[simp] theorem State.modTask_outbox (s : State) (r : SlotRef) (f : Task → Task) : (s.modTask r f).outbox = s.outbox := by
  unfold State.modTask; split <;> rfl
@[simp] theorem State.modTask_iommu (s : State) (r : SlotRef) (f : Task → Task) : (s.modTask r f).iommu = s.iommu := by
  unfold State.modTask; split <;> rfl
@[simp] theorem State.modTask_hostMem (s : State) (r : SlotRef) (f : Task → Task) : (s.modTask r f).hostMem = s.hostMem := by
  unfold State.modTask; split <;> rfl
@[simp] theorem State.modTask_peers (s : State) (r : SlotRef) (f : Task → Task) : (s.modTask r f).peers = s.peers := by
  unfold State.modTask; split <;> rfl
@[simp] theorem State.modTask_mode (s : State) (r : SlotRef) (f : Task → Task) : (s.modTask r f).mode = s.mode := by
  unfold State.modTask; split <;> rfl
@[simp] theorem State.modTask_pmStatus (s : State) (r : SlotRef) (f : Task → Task) : (s.modTask r f).pmStatus = s.pmStatus := by
  unfold State.modTask; split <;> rfl
@[simp] theorem State.modTask_pmDrain (s : State) (r : SlotRef) (f : Task → Task) : (s.modTask r f).pmDrain = s.pmDrain := by
  unfold State.modTask; split <;> rfl
@[simp] theorem State.modTask_pmNext (s : State) (r : SlotRef) (f : Task → Task) : (s.modTask r f).pmNext = s.pmNext := by
  unfold State.modTask; split <;> rfl
@[simp] theorem State.modTask_bootStage (s : State) (r : SlotRef) (f : Task → Task) : (s.modTask r f).bootStage = s.bootStage := by
  unfold State.modTask; split <;> rfl
@[simp] theorem State.modTask_numVfs (s : State) (r : SlotRef) (f : Task → Task) : (s.modTask r f).numVfs = s.numVfs := by
  unfold State.modTask; split <;> rfl
@[simp] theorem State.modTask_bootResult (s : State) (r : SlotRef) (f : Task → Task) : (s.modTask r f).bootResult = s.bootResult := by
  unfold State.modTask; split <;> rfl
@[simp] theorem State.modTask_panelNs (s : State) (r : SlotRef) (f : Task → Task) : (s.modTask r f).panelNs = s.panelNs := by
  unfold State.modTask; split <;> rfl
@[simp] theorem State.modTask_refCredit (s : State) (r : SlotRef) (f : Task → Task) : (s.modTask r f).refCredit = s.refCredit := by
  unfold State.modTask; split <;> rfl
@[simp] theorem State.modTask_mem (s : State) (r : SlotRef) (f : Task → Task) : (s.modTask r f).mem = s.mem := by
  unfold State.modTask; split <;> rfl
@[simp] theorem State.modTask_memPoison (s : State) (r : SlotRef) (f : Task → Task) : (s.modTask r f).memPoison = s.memPoison := by
  unfold State.modTask; split <;> rfl
@[simp] theorem State.modTask_dies (s : State) (r : SlotRef) (f : Task → Task) : (s.modTask r f).dies = s.dies := by
  unfold State.modTask; split <;> rfl
@[simp] theorem State.modTask_estates (s : State) (r : SlotRef) (f : Task → Task) : (s.modTask r f).estates = s.estates := by
  unfold State.modTask; split <;> rfl
@[simp] theorem State.modTask_steward (s : State) (r : SlotRef) (f : Task → Task) : (s.modTask r f).steward = s.steward := by
  unfold State.modTask; split <;> rfl
@[simp] theorem State.modTask_functions (s : State) (r : SlotRef) (f : Task → Task) : (s.modTask r f).functions = s.functions := by
  unfold State.modTask; split <;> rfl
@[simp] theorem State.modTask_hostEvt (s : State) (r : SlotRef) (f : Task → Task) : (s.modTask r f).hostEvt = s.hostEvt := by
  unfold State.modTask; split <;> rfl
@[simp] theorem State.modTask_hostMask (s : State) (r : SlotRef) (f : Task → Task) : (s.modTask r f).hostMask = s.hostMask := by
  unfold State.modTask; split <;> rfl
@[simp] theorem State.modTask_links (s : State) (r : SlotRef) (f : Task → Task) : (s.modTask r f).links = s.links := by
  unfold State.modTask; split <;> rfl
@[simp] theorem State.modTask_collTmo (s : State) (r : SlotRef) (f : Task → Task) : (s.modTask r f).collTmo = s.collTmo := by
  unfold State.modTask; split <;> rfl
@[simp] theorem State.modTask_rung (s : State) (r : SlotRef) (f : Task → Task) : (s.modTask r f).rung = s.rung := by
  unfold State.modTask; split <;> rfl
@[simp] theorem State.modTask_transplant (s : State) (r : SlotRef) (f : Task → Task) : (s.modTask r f).transplant = s.transplant := by
  unfold State.modTask; split <;> rfl
@[simp] theorem State.modTask_harvest (s : State) (r : SlotRef) (f : Task → Task) : (s.modTask r f).harvest = s.harvest := by
  unfold State.modTask; split <;> rfl
@[simp] theorem State.modTask_security (s : State) (r : SlotRef) (f : Task → Task) : (s.modTask r f).security = s.security := by
  unfold State.modTask; split <;> rfl
@[simp] theorem State.modTask_power (s : State) (r : SlotRef) (f : Task → Task) : (s.modTask r f).power = s.power := by
  unfold State.modTask; split <;> rfl
@[simp] theorem State.modTask_health (s : State) (r : SlotRef) (f : Task → Task) : (s.modTask r f).health = s.health := by
  unfold State.modTask; split <;> rfl

/-! ## Reading after writing -/

@[simp] theorem State.die_setDie (s : State) (d : DieId) (x : DieHw) : (s.setDie d x).die d = x := by
  simp [State.die, State.setDie]
@[simp] theorem State.image_setImage (s : State) (d : DieId) (x : Image) : (s.setImage d x).image d = x := by
  simp [State.image, State.setImage]
theorem State.image_setImage_ne (s : State) {d d' : DieId} (x : Image) (h : d ≠ d') : (s.setImage d x).image d' = s.image d' := by
  simp only [State.image, State.setImage]; exact vset_ne _ _ _ _ h
@[simp] theorem State.estate_setEstate (s : State) (e : Fin 4) (x : Estate) : (s.setEstate e x).estate e = x := by
  simp [State.estate, State.setEstate]
@[simp] theorem State.hold_setHold (s : State) (h : HoldRef) (x : Holding) : (s.setHold h x).hold h = x := by
  simp [State.hold, State.setHold]
@[simp] theorem State.hold_modHold (s : State) (h : HoldRef) (f : Holding → Holding) : (s.modHold h f).hold h = f (s.hold h) := by
  simp [State.modHold]
@[simp] theorem State.fn_setFn (s : State) (f : Fin 64) (x : Function) : (s.setFn f x).fn f = x := by
  simp [State.fn, State.setFn]

@[simp] theorem State.core_setCore (s : State) (c : CoreRef) (x : Core) : (s.setCore c x).core c = x := by
  simp [State.core, State.setCore, Image.core, Image.setCore]

theorem State.core_setCore_ne (s : State) {c c' : CoreRef} (x : Core) (h : c ≠ c') : (s.setCore c x).core c' = s.core c' := by
  by_cases hd : c.die = c'.die
  · have hi : c.idx.val ≠ c'.idx.val := fun e => h (by cases c; cases c'; simp_all [Fin.ext_iff])
    simp [State.core, State.setCore, Image.core, Image.unlisted, Image.setCore, FMap.get_set, hi, ← hd]
  · simp [State.core, State.setCore, State.image_setImage_ne _ _ hd]

@[simp] theorem State.slot_setSlot (s : State) (r : SlotRef) (x : Slot) : (s.setSlot r x).slot r = x := by
  simp [State.slot, State.setSlot]

theorem State.slot_setSlot_ne (s : State) {r r' : SlotRef} (x : Slot) (h : r ≠ r') : (s.setSlot r x).slot r' = s.slot r' := by
  by_cases hc : r.core = r'.core
  · have hs : r.slot ≠ r'.slot := fun e => h (by cases r; cases r'; simp_all)
    simp only [State.slot, State.setSlot, ← hc, State.core_setCore]
    exact vset_ne _ _ _ _ hs
  · simp [State.slot, State.setSlot, State.core_setCore_ne _ _ hc]

@[simp] theorem State.task_setTask (s : State) (r : SlotRef) (t : Task) : (s.setTask r t).task r = some t := by
  simp [State.task, State.setTask]

theorem State.task_setTask_ne (s : State) {r r' : SlotRef} (t : Task) (h : r ≠ r') : (s.setTask r t).task r' = s.task r' := by
  simp [State.task, State.setTask, State.slot_setSlot_ne _ _ h]

@[simp] theorem State.core_setDie (s : State) (d : DieId) (x : DieHw) (c : CoreRef) : (s.setDie d x).core c = s.core c := rfl
@[simp] theorem State.core_setEstate (s : State) (e : Fin 4) (x : Estate) (c : CoreRef) : (s.setEstate e x).core c = s.core c := rfl
@[simp] theorem State.core_setHold (s : State) (h : HoldRef) (x : Holding) (c : CoreRef) : (s.setHold h x).core c = s.core c := rfl
@[simp] theorem State.core_modHold (s : State) (h : HoldRef) (f : Holding → Holding) (c : CoreRef) : (s.modHold h f).core c = s.core c := rfl
@[simp] theorem State.core_setFn (s : State) (f : Fin 64) (x : Function) (c : CoreRef) : (s.setFn f x).core c = s.core c := rfl
@[simp] theorem State.slot_setDie (s : State) (d : DieId) (x : DieHw) (r : SlotRef) : (s.setDie d x).slot r = s.slot r := rfl
@[simp] theorem State.slot_setHold (s : State) (h : HoldRef) (x : Holding) (r : SlotRef) : (s.setHold h x).slot r = s.slot r := rfl
@[simp] theorem State.task_setDie (s : State) (d : DieId) (x : DieHw) (r : SlotRef) : (s.setDie d x).task r = s.task r := rfl
@[simp] theorem State.task_setHold (s : State) (h : HoldRef) (x : Holding) (r : SlotRef) : (s.setHold h x).task r = s.task r := rfl
@[simp] theorem State.task_modHold (s : State) (h : HoldRef) (f : Holding → Holding) (r : SlotRef) : (s.modHold h f).task r = s.task r := rfl
@[simp] theorem State.hold_setDie (s : State) (d : DieId) (x : DieHw) (h : HoldRef) : (s.setDie d x).hold h = s.hold h := rfl
@[simp] theorem State.hold_setImage (s : State) (d : DieId) (x : Image) (h : HoldRef) : (s.setImage d x).hold h = s.hold h := rfl
@[simp] theorem State.hold_setCore (s : State) (c : CoreRef) (x : Core) (h : HoldRef) : (s.setCore c x).hold h = s.hold h := rfl
@[simp] theorem State.hold_setTask (s : State) (r : SlotRef) (t : Task) (h : HoldRef) : (s.setTask r t).hold h = s.hold h := rfl

/-- What setting the task of a slot leaves of its core. -/
theorem State.core_setTask (s : State) (r : SlotRef) (t : Task) :
    (s.setTask r t).core r.core = { s.core r.core with slots := vset (s.core r.core).slots r.slot { s.slot r with task := some t } } := by
  simp [State.setTask, State.setSlot]

/-! ## Writing twice -/

theorem vset_vset {α : Type} {n : Nat} (v : Vector α n) (i : Fin n) (x y : α) : vset (vset v i x) i y = vset v i y := by
  simp [vset]
@[simp] theorem State.setImage_setImage (s : State) (d : DieId) (x y : Image) : (s.setImage d x).setImage d y = s.setImage d y := by
  simp [State.setImage, vset_vset]
@[simp] theorem State.setCore_setCore (s : State) (c : CoreRef) (x y : Core) : (s.setCore c x).setCore c y = s.setCore c y := by
  simp [State.setCore, Image.setCore]
@[simp] theorem State.setSlot_setSlot (s : State) (r : SlotRef) (x y : Slot) : (s.setSlot r x).setSlot r y = s.setSlot r y := by
  simp [State.setSlot, vset_vset]
@[simp] theorem State.setTask_setTask (s : State) (r : SlotRef) (t u : Task) : (s.setTask r t).setTask r u = s.setTask r u := by
  simp [State.setTask]
@[simp] theorem State.modTask_setTask (s : State) (r : SlotRef) (t : Task) (f : Task → Task) :
    (s.setTask r t).modTask r f = s.setTask r (f t) := by
  simp [State.modTask]

end Sys2Proof.Machine
end

