-- ==== Sys2Proof/Laws/Operands.lean ====
section
/-! SUPPORT. The frame of an instruction: what `runOp` answers for each effect, and what a write of a register leaves
alone. -/

namespace Sys2Proof.Machine

/-! ## The ways of `runOp` -/

/-- The operands of an instruction are at hand. -/
structure OpReady (s : State) (srcs : List Reg) (dst : Reg) (t : Task) (vs : List Word) (c : Core) : Prop where
  task : s.task s.cur = some t
  ports : s.deadPort s.cur.core (srcs ++ [dst]) = none
  read : readFields t (s.core s.cur.core) srcs = some (vs, c)
  room : s.roomFor s.cur.core dst = true

theorem runOp_ready {s : State} {srcs : List Reg} {dst : Reg} {t : Task} {vs : List Word} {c : Core}
    (h : OpReady s srcs dst t vs c) (f : State → SlotRef → Task → List Word → Eff) :
    runOp srcs dst f s = match f (s.retire s.cur c t) s.cur t vs with
      | .done s' v => .next (s'.writeReg s.cur dst v)
      | .jump s' v pc => .next ((s'.modTask s.cur fun t => { t with pc := pc }).writeReg s.cur dst v)
      | .wait reqs => .next (s.waitAt s.cur reqs)
      | .waitWith g => .next (g (s.waitAt s.cur []))
      | .trap tr => .next (s.takeTrap s.cur tr t.pc (t.pc + 4) false)
      | .gone s' => .next s' := by
  obtain ⟨h1, h2, h3, h4⟩ := h
  simp only [runOp, h1, h2, h3, h4, Bool.not_true, Bool.false_eq_true, if_false]
  all_goals (cases f (s.retire s.cur c t) s.cur t vs <;> rfl)

theorem runOp_done {s : State} {srcs : List Reg} {dst : Reg} {t : Task} {vs : List Word} {c : Core}
    (h : OpReady s srcs dst t vs c) {f : State → SlotRef → Task → List Word → Eff} {s' : State} {v : Word}
    (hf : f (s.retire s.cur c t) s.cur t vs = .done s' v) : runOp srcs dst f s = .next (s'.writeReg s.cur dst v) := by
  rw [runOp_ready h, hf]

theorem runOp_jump {s : State} {srcs : List Reg} {dst : Reg} {t : Task} {vs : List Word} {c : Core}
    (h : OpReady s srcs dst t vs c) {f : State → SlotRef → Task → List Word → Eff} {s' : State} {v pc : Word}
    (hf : f (s.retire s.cur c t) s.cur t vs = .jump s' v pc) :
    runOp srcs dst f s = .next ((s'.modTask s.cur fun t => { t with pc := pc }).writeReg s.cur dst v) := by
  rw [runOp_ready h, hf]

theorem runOp_wait {s : State} {srcs : List Reg} {dst : Reg} {t : Task} {vs : List Word} {c : Core}
    (h : OpReady s srcs dst t vs c) {f : State → SlotRef → Task → List Word → Eff} {reqs : List AtsReq}
    (hf : f (s.retire s.cur c t) s.cur t vs = .wait reqs) : runOp srcs dst f s = .next (s.waitAt s.cur reqs) := by
  rw [runOp_ready h, hf]

theorem runOp_waitWith {s : State} {srcs : List Reg} {dst : Reg} {t : Task} {vs : List Word} {c : Core}
    (h : OpReady s srcs dst t vs c) {f : State → SlotRef → Task → List Word → Eff} {g : State → State}
    (hf : f (s.retire s.cur c t) s.cur t vs = .waitWith g) : runOp srcs dst f s = .next (g (s.waitAt s.cur [])) := by
  rw [runOp_ready h, hf]

theorem runOp_trap {s : State} {srcs : List Reg} {dst : Reg} {t : Task} {vs : List Word} {c : Core}
    (h : OpReady s srcs dst t vs c) {f : State → SlotRef → Task → List Word → Eff} {tr : Trap}
    (hf : f (s.retire s.cur c t) s.cur t vs = .trap tr) :
    runOp srcs dst f s = .next (s.takeTrap s.cur tr t.pc (t.pc + 4) false) := by
  rw [runOp_ready h, hf]

theorem runOp_gone {s : State} {srcs : List Reg} {dst : Reg} {t : Task} {vs : List Word} {c : Core}
    (h : OpReady s srcs dst t vs c) {f : State → SlotRef → Task → List Word → Eff} {s' : State}
    (hf : f (s.retire s.cur c t) s.cur t vs = .gone s') : runOp srcs dst f s = .next s' := by
  rw [runOp_ready h, hf]

/-- An instruction that names a dead port traps before any other effect. -/
theorem runOp_dead {s : State} {srcs : List Reg} {dst : Reg} {t : Task} {d : Dir} (ht : s.task s.cur = some t)
    (hd : s.deadPort s.cur.core (srcs ++ [dst]) = some d) (f : State → SlotRef → Task → List Word → Eff) :
    runOp srcs dst f s = .next (s.takeTrap s.cur { cause := 0x47, info := word d.index.val } t.pc (t.pc + 4) false) := by
  simp only [runOp, ht, hd]

/-- An instruction waits while a queue that it pops lacks words. -/
theorem runOp_empty {s : State} {srcs : List Reg} {dst : Reg} {t : Task} (ht : s.task s.cur = some t)
    (hd : s.deadPort s.cur.core (srcs ++ [dst]) = none) (hr : readFields t (s.core s.cur.core) srcs = none)
    (f : State → SlotRef → Task → List Word → Eff) : runOp srcs dst f s = .next (s.waitAt s.cur []) := by
  simp only [runOp, ht, hd, hr]

/-- An instruction waits while the queue that it pushes is full. -/
theorem runOp_full {s : State} {srcs : List Reg} {dst : Reg} {t : Task} {vs : List Word} {c : Core} (ht : s.task s.cur = some t)
    (hd : s.deadPort s.cur.core (srcs ++ [dst]) = none) (hr : readFields t (s.core s.cur.core) srcs = some (vs, c))
    (hf : s.roomFor s.cur.core dst = false) (f : State → SlotRef → Task → List Word → Eff) :
    runOp srcs dst f s = .next (s.waitAt s.cur []) := by
  simp only [runOp, ht, hd, hr, hf, Bool.not_false, if_true]

/-- Everything that `runOp` can do: no task, a dead port, a wait, or the effect on the operands read. -/
theorem runOp_cases (srcs : List Reg) (dst : Reg) (f : State → SlotRef → Task → List Word → Eff) (s : State) :
    runOp srcs dst f s = .fault .noTask ∨
    (∃ (t : Task) (d : Dir), s.task s.cur = some t ∧
      runOp srcs dst f s = .next (s.takeTrap s.cur { cause := 0x47, info := word d.index.val } t.pc (t.pc + 4) false)) ∨
    (∃ t, s.task s.cur = some t ∧ runOp srcs dst f s = .next (s.waitAt s.cur [])) ∨
    (∃ t vs c, OpReady s srcs dst t vs c) := by
  cases ht : s.task s.cur with
  | none => left; simp only [runOp, ht]
  | some t =>
    cases hd : s.deadPort s.cur.core (srcs ++ [dst]) with
    | some d => right; left; exact ⟨t, d, rfl, runOp_dead ht hd f⟩
    | none =>
      cases hr : readFields t (s.core s.cur.core) srcs with
      | none => right; right; left; exact ⟨t, rfl, runOp_empty ht hd hr f⟩
      | some x =>
        obtain ⟨vs, c⟩ := x
        cases hm : s.roomFor s.cur.core dst with
        | false => right; right; left; exact ⟨t, rfl, runOp_full ht hd hr hm f⟩
        | true => right; right; right; exact ⟨t, vs, c, ht, hd, hr, hm⟩

theorem valueOp_ready {s : State} {srcs : List Reg} {dst : Reg} {t : Task} {vs : List Word} {c : Core}
    (h : OpReady s srcs dst t vs c) (f : List Word → Word) :
    valueOp srcs dst f s = .next ((s.retire s.cur c t).writeReg s.cur dst (f vs)) := runOp_done h rfl

theorem readOp_ready {s : State} {srcs : List Reg} {dst : Reg} {t : Task} {vs : List Word} {c : Core}
    (h : OpReady s srcs dst t vs c) (f : State → SlotRef → Task → List Word → Word) :
    readOp srcs dst f s = .next ((s.retire s.cur c t).writeReg s.cur dst (f (s.retire s.cur c t) s.cur t vs)) := runOp_done h rfl

/-! ## Writing a register -/

theorem chanOf_zero : chanOf (0 : Reg) = none := rfl

@[simp] theorem Task.setReg_zero (t : Task) (v : Word) : t.setReg 0#5 v = t := rfl

/-- Putting a task back changes no core. -/
theorem State.core_setTask_same (s : State) (r : SlotRef) (t : Task) (h : s.task r = some t) (c : CoreRef) :
    (s.setTask r t).core c = s.core c := by
  by_cases e : r.core = c
  · subst e
    simp only [State.setTask, State.setSlot, State.core_setCore]
    have hs : ({ s.slot r with task := some t } : Slot) = (s.core r.core).slots[r.slot.val] := by
      rw [← h]; rfl
    rw [hs]
    simp [vset]
  · simp only [State.setTask, State.setSlot, State.core_setCore_ne _ _ e]

/-- A write of g0 is discarded (06 R123). -/
theorem State.core_writeReg_zero (s : State) (r : SlotRef) (v : Word) (c : CoreRef) : (s.writeReg r 0 v).core c = s.core c := by
  simp only [State.writeReg, chanOf_zero, State.modTask]
  split
  · exact State.core_setTask_same s r _ ‹_› c
  · rfl

theorem State.task_writeReg_zero (s : State) (r r' : SlotRef) (v : Word) : (s.writeReg r 0 v).task r' = s.task r' := by
  simp only [State.task, State.slot, State.core_writeReg_zero]

/-- A write of a storage register sets it and no other register. -/
theorem State.task_writeReg {s : State} {r : SlotRef} {t : Task} {d : Reg} (ht : s.task r = some t) (hc : chanOf d = none) (v : Word) :
    (s.writeReg r d v).task r = some (t.setReg d v) := by
  simp [State.writeReg, hc, State.modTask, ht]

theorem Task.reg_setReg (t : Task) (d e : Reg) (v : Word) : (t.setReg d v).reg e = if d = e ∧ d ≠ 0 then v else t.reg e := by
  by_cases hd : d = 0
  · rw [hd]; simp
  · by_cases he : d = e
    · subst he; simp only [Task.setReg, Task.reg, if_neg hd]; simp [show d ≠ 0#5 from hd]
    · have h : d.toNat ≠ e.toNat := fun h => he (BitVec.eq_of_toNat_eq h)
      simp only [Task.setReg, Task.reg, if_neg hd]
      simp [he, h]

@[simp] theorem State.mem_writeReg (s : State) (r : SlotRef) (d : Reg) (v : Word) : (s.writeReg r d v).mem = s.mem := by
  unfold State.writeReg; split
  · simp
  · split
    · rfl
    · simp

@[simp] theorem State.mem_retire (s : State) (r : SlotRef) (c : Core) (t : Task) : (s.retire r c t).mem = s.mem := rfl

end Sys2Proof.Machine
end

