-- ==== Sys2Proof/Laws/PerInstr.lean ====
section
/-! SUPPORT. Statements made instruction by instruction: RoundTrip, the decoder gives back each well-formed instruction that
the encoder writes (03 R49 to R67). -/

namespace Sys2Proof

/-! The lemmas below wait for the same equations of the decoder; elaborating them one after another keeps the number of
waiting threads small. -/
set_option Elab.async false

/-- The decoder reads the word of a well-formed instruction as that instruction. -/
def Laws.RoundTrip.Statement (i : Instr) : Prop := i.wf = true → ∀ w, encode i = some w → decode w = .ok i

theorem Laws.RoundTrip.of_word {i : Instr} {w : W32} (he : encode i = some w) (hd : i.wf = true → decode w = .ok i) :
    Laws.RoundTrip.Statement i := by
  intro h w' hw; rw [he] at hw; exact Option.some.inj hw ▸ hd h

theorem Laws.RoundTrip.of_event {i : Instr} (he : encode i = none) : Laws.RoundTrip.Statement i := by
  intro _ w hw; rw [he] at hw; cases hw

theorem Laws.RoundTrip.add (d a b : Reg) (h : BitVec 1) :
    Laws.RoundTrip.Statement (.add d a b h) := of_word rfl fun _ => by
  simp [decode, decodeMost, ne_brkWord, decode01, unreserved]

theorem Laws.RoundTrip.sub (d a b : Reg) (h : BitVec 1) :
    Laws.RoundTrip.Statement (.sub d a b h) := of_word rfl fun _ => by
  simp [decode, decodeMost, ne_brkWord, decode01, unreserved]

theorem Laws.RoundTrip.and (d a b : Reg) (h : BitVec 1) :
    Laws.RoundTrip.Statement (.and d a b h) := of_word rfl fun _ => by
  simp [decode, decodeMost, ne_brkWord, decode01, unreserved]

theorem Laws.RoundTrip.or (d a b : Reg) (h : BitVec 1) :
    Laws.RoundTrip.Statement (.or d a b h) := of_word rfl fun _ => by
  simp [decode, decodeMost, ne_brkWord, decode01, unreserved]

theorem Laws.RoundTrip.xor (d a b : Reg) (h : BitVec 1) :
    Laws.RoundTrip.Statement (.xor d a b h) := of_word rfl fun _ => by
  simp [decode, decodeMost, ne_brkWord, decode01, unreserved]

theorem Laws.RoundTrip.andn (d a b : Reg) (h : BitVec 1) :
    Laws.RoundTrip.Statement (.andn d a b h) := of_word rfl fun _ => by
  simp [decode, decodeMost, ne_brkWord, decode01, unreserved]

theorem Laws.RoundTrip.sll (d a b : Reg) (h : BitVec 1) :
    Laws.RoundTrip.Statement (.sll d a b h) := of_word rfl fun _ => by
  simp [decode, decodeMost, ne_brkWord, decode01, unreserved]

theorem Laws.RoundTrip.srl (d a b : Reg) (h : BitVec 1) :
    Laws.RoundTrip.Statement (.srl d a b h) := of_word rfl fun _ => by
  simp [decode, decodeMost, ne_brkWord, decode01, unreserved]

theorem Laws.RoundTrip.sra (d a b : Reg) (h : BitVec 1) :
    Laws.RoundTrip.Statement (.sra d a b h) := of_word rfl fun _ => by
  simp [decode, decodeMost, ne_brkWord, decode01, unreserved]

theorem Laws.RoundTrip.rotl (d a b : Reg) (h : BitVec 1) :
    Laws.RoundTrip.Statement (.rotl d a b h) := of_word rfl fun _ => by
  simp [decode, decodeMost, ne_brkWord, decode01, unreserved]

theorem Laws.RoundTrip.slt (d a b : Reg) (h : BitVec 1) :
    Laws.RoundTrip.Statement (.slt d a b h) := of_word rfl fun _ => by
  simp [decode, decodeMost, ne_brkWord, decode01, unreserved]

theorem Laws.RoundTrip.sltn (d a b : Reg) (h : BitVec 1) :
    Laws.RoundTrip.Statement (.sltn d a b h) := of_word rfl fun _ => by
  simp [decode, decodeMost, ne_brkWord, decode01, unreserved]

theorem Laws.RoundTrip.min (d a b : Reg) (h : BitVec 1) :
    Laws.RoundTrip.Statement (.min d a b h) := of_word rfl fun _ => by
  simp [decode, decodeMost, ne_brkWord, decode01, unreserved]

theorem Laws.RoundTrip.max (d a b : Reg) (h : BitVec 1) :
    Laws.RoundTrip.Statement (.max d a b h) := of_word rfl fun _ => by
  simp [decode, decodeMost, ne_brkWord, decode01, unreserved]

theorem Laws.RoundTrip.minn (d a b : Reg) (h : BitVec 1) :
    Laws.RoundTrip.Statement (.minn d a b h) := of_word rfl fun _ => by
  simp [decode, decodeMost, ne_brkWord, decode01, unreserved]

theorem Laws.RoundTrip.maxn (d a b : Reg) (h : BitVec 1) :
    Laws.RoundTrip.Statement (.maxn d a b h) := of_word rfl fun _ => by
  simp [decode, decodeMost, ne_brkWord, decode01, unreserved]

theorem Laws.RoundTrip.mul (d a b : Reg) (h : BitVec 1) :
    Laws.RoundTrip.Statement (.mul d a b h) := of_word rfl fun _ => by
  simp [decode, decodeMost, ne_brkWord, decode01, unreserved]

theorem Laws.RoundTrip.mulh (d a b : Reg) (h : BitVec 1) :
    Laws.RoundTrip.Statement (.mulh d a b h) := of_word rfl fun _ => by
  simp [decode, decodeMost, ne_brkWord, decode01, unreserved]

theorem Laws.RoundTrip.mulhn (d a b : Reg) (h : BitVec 1) :
    Laws.RoundTrip.Statement (.mulhn d a b h) := of_word rfl fun _ => by
  simp [decode, decodeMost, ne_brkWord, decode01, unreserved]

theorem Laws.RoundTrip.div (d a b : Reg) (h : BitVec 1) :
    Laws.RoundTrip.Statement (.div d a b h) := of_word rfl fun _ => by
  simp [decode, decodeMost, ne_brkWord, decode01, unreserved]

theorem Laws.RoundTrip.divn (d a b : Reg) (h : BitVec 1) :
    Laws.RoundTrip.Statement (.divn d a b h) := of_word rfl fun _ => by
  simp [decode, decodeMost, ne_brkWord, decode01, unreserved]

theorem Laws.RoundTrip.rem (d a b : Reg) (h : BitVec 1) :
    Laws.RoundTrip.Statement (.rem d a b h) := of_word rfl fun _ => by
  simp [decode, decodeMost, ne_brkWord, decode01, unreserved]

theorem Laws.RoundTrip.remn (d a b : Reg) (h : BitVec 1) :
    Laws.RoundTrip.Statement (.remn d a b h) := of_word rfl fun _ => by
  simp [decode, decodeMost, ne_brkWord, decode01, unreserved]

theorem Laws.RoundTrip.clz (d a : Reg) (h : BitVec 1) :
    Laws.RoundTrip.Statement (.clz d a h) := of_word rfl fun _ => by
  simp [decode, decodeMost, ne_brkWord, decode01, unreserved]

theorem Laws.RoundTrip.ctz (d a : Reg) (h : BitVec 1) :
    Laws.RoundTrip.Statement (.ctz d a h) := of_word rfl fun _ => by
  simp [decode, decodeMost, ne_brkWord, decode01, unreserved]

theorem Laws.RoundTrip.popc (d a : Reg) (h : BitVec 1) :
    Laws.RoundTrip.Statement (.popc d a h) := of_word rfl fun _ => by
  simp [decode, decodeMost, ne_brkWord, decode01, unreserved]

theorem Laws.RoundTrip.bext (d a b : Reg) (h : BitVec 1) :
    Laws.RoundTrip.Statement (.bext d a b h) := of_word rfl fun _ => by
  simp [decode, decodeMost, ne_brkWord, decode01, unreserved]

theorem Laws.RoundTrip.bins (d a b : Reg) (h : BitVec 1) :
    Laws.RoundTrip.Statement (.bins d a b h) := of_word rfl fun _ => by
  simp [decode, decodeMost, ne_brkWord, decode01, unreserved]

theorem Laws.RoundTrip.sext (d a b : Reg) (h : BitVec 1) :
    Laws.RoundTrip.Statement (.sext d a b h) := of_word rfl fun _ => by
  simp [decode, decodeMost, ne_brkWord, decode01, unreserved]

theorem Laws.RoundTrip.zext (d a b : Reg) (h : BitVec 1) :
    Laws.RoundTrip.Statement (.zext d a b h) := of_word rfl fun _ => by
  simp [decode, decodeMost, ne_brkWord, decode01, unreserved]

theorem Laws.RoundTrip.csel (d a b : Reg) (h : BitVec 1) :
    Laws.RoundTrip.Statement (.csel d a b h) := of_word rfl fun _ => by
  simp [decode, decodeMost, ne_brkWord, decode01, unreserved]

theorem Laws.RoundTrip.addW (d a b : Reg) (h : BitVec 1) :
    Laws.RoundTrip.Statement (.addW d a b h) := of_word rfl fun _ => by
  simp [decode, decodeMost, ne_brkWord, decode01, unreserved]

theorem Laws.RoundTrip.subW (d a b : Reg) (h : BitVec 1) :
    Laws.RoundTrip.Statement (.subW d a b h) := of_word rfl fun _ => by
  simp [decode, decodeMost, ne_brkWord, decode01, unreserved]

theorem Laws.RoundTrip.sllW (d a b : Reg) (h : BitVec 1) :
    Laws.RoundTrip.Statement (.sllW d a b h) := of_word rfl fun _ => by
  simp [decode, decodeMost, ne_brkWord, decode01, unreserved]

theorem Laws.RoundTrip.srlW (d a b : Reg) (h : BitVec 1) :
    Laws.RoundTrip.Statement (.srlW d a b h) := of_word rfl fun _ => by
  simp [decode, decodeMost, ne_brkWord, decode01, unreserved]

theorem Laws.RoundTrip.sraW (d a b : Reg) (h : BitVec 1) :
    Laws.RoundTrip.Statement (.sraW d a b h) := of_word rfl fun _ => by
  simp [decode, decodeMost, ne_brkWord, decode01, unreserved]

theorem Laws.RoundTrip.mulW (d a b : Reg) (h : BitVec 1) :
    Laws.RoundTrip.Statement (.mulW d a b h) := of_word rfl fun _ => by
  simp [decode, decodeMost, ne_brkWord, decode01, unreserved]

theorem Laws.RoundTrip.divW (d a b : Reg) (h : BitVec 1) :
    Laws.RoundTrip.Statement (.divW d a b h) := of_word rfl fun _ => by
  simp [decode, decodeMost, ne_brkWord, decode01, unreserved]

theorem Laws.RoundTrip.divnW (d a b : Reg) (h : BitVec 1) :
    Laws.RoundTrip.Statement (.divnW d a b h) := of_word rfl fun _ => by
  simp [decode, decodeMost, ne_brkWord, decode01, unreserved]

theorem Laws.RoundTrip.remW (d a b : Reg) (h : BitVec 1) :
    Laws.RoundTrip.Statement (.remW d a b h) := of_word rfl fun _ => by
  simp [decode, decodeMost, ne_brkWord, decode01, unreserved]

theorem Laws.RoundTrip.remnW (d a b : Reg) (h : BitVec 1) :
    Laws.RoundTrip.Statement (.remnW d a b h) := of_word rfl fun _ => by
  simp [decode, decodeMost, ne_brkWord, decode01, unreserved]

theorem Laws.RoundTrip.srd (d : Reg) (s : BitVec 12) :
    Laws.RoundTrip.Statement (.srd d s) := of_word rfl fun h => by
  simp_all [decode, decodeMost, ne_brkWord, decode02, checked, inRange, Instr.wf]

theorem Laws.RoundTrip.swr (a : Reg) (s : BitVec 12) :
    Laws.RoundTrip.Statement (.swr a s) := of_word rfl fun h => by
  simp_all [decode, decodeMost, ne_brkWord, decode02, checked, inRange, Instr.wf]

theorem Laws.RoundTrip.sxch (d a : Reg) (s : BitVec 12) :
    Laws.RoundTrip.Statement (.sxch d a s) := of_word rfl fun h => by
  simp_all [decode, decodeMost, ne_brkWord, decode02, inRange, Instr.wf]

theorem Laws.RoundTrip.ldbit (d a b : Reg) (h : BitVec 1) :
    Laws.RoundTrip.Statement (.ldbit d a b h) := of_word rfl fun _ => by
  simp [decode, decodeMost, ne_brkWord, decode03, unreserved]

theorem Laws.RoundTrip.stbit (d a b : Reg) (h : BitVec 1) :
    Laws.RoundTrip.Statement (.stbit d a b h) := of_word rfl fun _ => by
  simp [decode, decodeMost, ne_brkWord, decode03, unreserved]

theorem Laws.RoundTrip.cbInit (a b : Reg) (h : BitVec 1) (k : BitVec 4) :
    Laws.RoundTrip.Statement (.cbInit a b h k) := of_word rfl fun _ => by
  simp [decode, decodeMost, ne_brkWord, decode03, unreserved]

theorem Laws.RoundTrip.cbNeed (a : Reg) (h : BitVec 1) (k : BitVec 4) :
    Laws.RoundTrip.Statement (.cbNeed a h k) := of_word rfl fun _ => by
  simp [decode, decodeMost, ne_brkWord, decode03, unreserved]

theorem Laws.RoundTrip.cbRoom (a : Reg) (h : BitVec 1) (k : BitVec 4) :
    Laws.RoundTrip.Statement (.cbRoom a h k) := of_word rfl fun _ => by
  simp [decode, decodeMost, ne_brkWord, decode03, unreserved]

theorem Laws.RoundTrip.cbAdvH (a : Reg) (h : BitVec 1) (k : BitVec 4) :
    Laws.RoundTrip.Statement (.cbAdvH a h k) := of_word rfl fun _ => by
  simp [decode, decodeMost, ne_brkWord, decode03, unreserved]

theorem Laws.RoundTrip.cbAdvT (a : Reg) (h : BitVec 1) (k : BitVec 4) :
    Laws.RoundTrip.Statement (.cbAdvT a h k) := of_word rfl fun _ => by
  simp [decode, decodeMost, ne_brkWord, decode03, unreserved]

theorem Laws.RoundTrip.cbStat (d : Reg) (h : BitVec 1) (k : BitVec 4) :
    Laws.RoundTrip.Statement (.cbStat d h k) := of_word rfl fun _ => by
  simp [decode, decodeMost, ne_brkWord, decode03, unreserved]

theorem Laws.RoundTrip.addi (d a : Reg) (i : BitVec 16) :
    Laws.RoundTrip.Statement (.addi d a i) := of_word rfl fun _ => by
  simp [decode, decodeMost, ne_brkWord]

theorem Laws.RoundTrip.andi (d a : Reg) (i : BitVec 16) :
    Laws.RoundTrip.Statement (.andi d a i) := of_word rfl fun _ => by
  simp [decode, decodeMost, ne_brkWord]

theorem Laws.RoundTrip.ori (d a : Reg) (i : BitVec 16) :
    Laws.RoundTrip.Statement (.ori d a i) := of_word rfl fun _ => by
  simp [decode, decodeMost, ne_brkWord]

theorem Laws.RoundTrip.xori (d a : Reg) (i : BitVec 16) :
    Laws.RoundTrip.Statement (.xori d a i) := of_word rfl fun _ => by
  simp [decode, decodeMost, ne_brkWord]

theorem Laws.RoundTrip.slli (d a : Reg) (n : BitVec 6) :
    Laws.RoundTrip.Statement (.slli d a n) := of_word rfl fun _ => by
  simp [decode, decodeMost, ne_brkWord, decode08, unreserved]

theorem Laws.RoundTrip.srli (d a : Reg) (n : BitVec 6) :
    Laws.RoundTrip.Statement (.srli d a n) := of_word rfl fun _ => by
  simp [decode, decodeMost, ne_brkWord, decode08, unreserved]

theorem Laws.RoundTrip.srai (d a : Reg) (n : BitVec 6) :
    Laws.RoundTrip.Statement (.srai d a n) := of_word rfl fun _ => by
  simp [decode, decodeMost, ne_brkWord, decode08, unreserved]

theorem Laws.RoundTrip.slliW (d a : Reg) (n : BitVec 6) :
    Laws.RoundTrip.Statement (.slliW d a n) := of_word rfl fun h => by
  simp_all [decode, decodeMost, ne_brkWord, decode08, checked, inRange, Instr.wf]

theorem Laws.RoundTrip.srliW (d a : Reg) (n : BitVec 6) :
    Laws.RoundTrip.Statement (.srliW d a n) := of_word rfl fun h => by
  simp_all [decode, decodeMost, ne_brkWord, decode08, checked, inRange, Instr.wf]

theorem Laws.RoundTrip.sraiW (d a : Reg) (n : BitVec 6) :
    Laws.RoundTrip.Statement (.sraiW d a n) := of_word rfl fun h => by
  simp_all [decode, decodeMost, ne_brkWord, decode08, checked, inRange, Instr.wf]

theorem Laws.RoundTrip.slti (d a : Reg) (i : BitVec 16) :
    Laws.RoundTrip.Statement (.slti d a i) := of_word rfl fun _ => by
  simp [decode, decodeMost, ne_brkWord]

theorem Laws.RoundTrip.sltni (d a : Reg) (i : BitVec 16) :
    Laws.RoundTrip.Statement (.sltni d a i) := of_word rfl fun _ => by
  simp [decode, decodeMost, ne_brkWord]

theorem Laws.RoundTrip.lhi (d : Reg) (i : BitVec 16) :
    Laws.RoundTrip.Statement (.lhi d i) := of_word rfl fun _ => by
  simp [decode, decodeMost, ne_brkWord, unreserved]

theorem Laws.RoundTrip.addpc (d : Reg) (i : BitVec 16) :
    Laws.RoundTrip.Statement (.addpc d i) := of_word rfl fun _ => by
  simp [decode, decodeMost, ne_brkWord, unreserved]

theorem Laws.RoundTrip.addiW (d a : Reg) (i : BitVec 16) :
    Laws.RoundTrip.Statement (.addiW d a i) := of_word rfl fun _ => by
  simp [decode, decodeMost, ne_brkWord]

theorem Laws.RoundTrip.trap (i : BitVec 16) :
    Laws.RoundTrip.Statement (.trap i) := of_word rfl fun _ => by
  simp [decode, decodeMost, ne_brkWord, unreserved]

theorem Laws.RoundTrip.ldS8 (d a : Reg) (i : BitVec 16) :
    Laws.RoundTrip.Statement (.ldS8 d a i) := of_word rfl fun _ => by
  simp [decode, decodeMost, ne_brkWord]

theorem Laws.RoundTrip.ldN8 (d a : Reg) (i : BitVec 16) :
    Laws.RoundTrip.Statement (.ldN8 d a i) := of_word rfl fun _ => by
  simp [decode, decodeMost, ne_brkWord]

theorem Laws.RoundTrip.ldS16 (d a : Reg) (i : BitVec 16) :
    Laws.RoundTrip.Statement (.ldS16 d a i) := of_word rfl fun _ => by
  simp [decode, decodeMost, ne_brkWord]

theorem Laws.RoundTrip.ldN16 (d a : Reg) (i : BitVec 16) :
    Laws.RoundTrip.Statement (.ldN16 d a i) := of_word rfl fun _ => by
  simp [decode, decodeMost, ne_brkWord]

theorem Laws.RoundTrip.ldS32 (d a : Reg) (i : BitVec 16) :
    Laws.RoundTrip.Statement (.ldS32 d a i) := of_word rfl fun _ => by
  simp [decode, decodeMost, ne_brkWord]

theorem Laws.RoundTrip.ldN32 (d a : Reg) (i : BitVec 16) :
    Laws.RoundTrip.Statement (.ldN32 d a i) := of_word rfl fun _ => by
  simp [decode, decodeMost, ne_brkWord]

theorem Laws.RoundTrip.ld64 (d a : Reg) (i : BitVec 16) :
    Laws.RoundTrip.Statement (.ld64 d a i) := of_word rfl fun _ => by
  simp [decode, decodeMost, ne_brkWord]

theorem Laws.RoundTrip.ldV (d a : Reg) (i : BitVec 16) :
    Laws.RoundTrip.Statement (.ldV d a i) := of_word rfl fun _ => by
  simp [decode, decodeMost, ne_brkWord]

theorem Laws.RoundTrip.st8 (d a : Reg) (i : BitVec 16) :
    Laws.RoundTrip.Statement (.st8 d a i) := of_word rfl fun _ => by
  simp [decode, decodeMost, ne_brkWord]

theorem Laws.RoundTrip.st16 (d a : Reg) (i : BitVec 16) :
    Laws.RoundTrip.Statement (.st16 d a i) := of_word rfl fun _ => by
  simp [decode, decodeMost, ne_brkWord]

theorem Laws.RoundTrip.st32 (d a : Reg) (i : BitVec 16) :
    Laws.RoundTrip.Statement (.st32 d a i) := of_word rfl fun _ => by
  simp [decode, decodeMost, ne_brkWord]

theorem Laws.RoundTrip.st64 (d a : Reg) (i : BitVec 16) :
    Laws.RoundTrip.Statement (.st64 d a i) := of_word rfl fun _ => by
  simp [decode, decodeMost, ne_brkWord]

theorem Laws.RoundTrip.stV (d a : Reg) (i : BitVec 16) :
    Laws.RoundTrip.Statement (.stV d a i) := of_word rfl fun _ => by
  simp [decode, decodeMost, ne_brkWord]

theorem Laws.RoundTrip.beq (a b : Reg) (o : BitVec 16) :
    Laws.RoundTrip.Statement (.beq a b o) := of_word rfl fun _ => by
  simp [decode, decodeMost, ne_brkWord]

theorem Laws.RoundTrip.bne (a b : Reg) (o : BitVec 16) :
    Laws.RoundTrip.Statement (.bne a b o) := of_word rfl fun _ => by
  simp [decode, decodeMost, ne_brkWord]

theorem Laws.RoundTrip.blt (a b : Reg) (o : BitVec 16) :
    Laws.RoundTrip.Statement (.blt a b o) := of_word rfl fun _ => by
  simp [decode, decodeMost, ne_brkWord]

theorem Laws.RoundTrip.bge (a b : Reg) (o : BitVec 16) :
    Laws.RoundTrip.Statement (.bge a b o) := of_word rfl fun _ => by
  simp [decode, decodeMost, ne_brkWord]

theorem Laws.RoundTrip.bltn (a b : Reg) (o : BitVec 16) :
    Laws.RoundTrip.Statement (.bltn a b o) := of_word rfl fun _ => by
  simp [decode, decodeMost, ne_brkWord]

theorem Laws.RoundTrip.bgen (a b : Reg) (o : BitVec 16) :
    Laws.RoundTrip.Statement (.bgen a b o) := of_word rfl fun _ => by
  simp [decode, decodeMost, ne_brkWord]

theorem Laws.RoundTrip.j (o : BitVec 26) :
    Laws.RoundTrip.Statement (.j o) := of_word rfl fun _ => by
  simp [decode, decodeMost, ne_brkWord]

theorem Laws.RoundTrip.jal (o : BitVec 26) :
    Laws.RoundTrip.Statement (.jal o) := of_word rfl fun _ => by
  simp [decode, decodeMost, ne_brkWord]

theorem Laws.RoundTrip.reyoke (o : BitVec 26) :
    Laws.RoundTrip.Statement (.reyoke o) := of_word rfl fun _ => by
  simp [decode, decodeMost, ne_brkWord]

theorem Laws.RoundTrip.jr (a : Reg) (i : BitVec 16) :
    Laws.RoundTrip.Statement (.jr a i) := of_word rfl fun _ => by
  simp [decode, decodeMost, ne_brkWord, unreserved]

theorem Laws.RoundTrip.jalr (d a : Reg) (i : BitVec 16) :
    Laws.RoundTrip.Statement (.jalr d a i) := of_word rfl fun _ => by
  simp [decode, decodeMost, ne_brkWord]

theorem Laws.RoundTrip.amAdd (d a b : Reg) (h z : BitVec 1) :
    Laws.RoundTrip.Statement (.amAdd d a b h z) := of_word rfl fun _ => by
  simp [decode, decodeMost, ne_brkWord, decode30, unreserved]

theorem Laws.RoundTrip.amAnd (d a b : Reg) (h z : BitVec 1) :
    Laws.RoundTrip.Statement (.amAnd d a b h z) := of_word rfl fun _ => by
  simp [decode, decodeMost, ne_brkWord, decode30, unreserved]

theorem Laws.RoundTrip.amOr (d a b : Reg) (h z : BitVec 1) :
    Laws.RoundTrip.Statement (.amOr d a b h z) := of_word rfl fun _ => by
  simp [decode, decodeMost, ne_brkWord, decode30, unreserved]

theorem Laws.RoundTrip.amXor (d a b : Reg) (h z : BitVec 1) :
    Laws.RoundTrip.Statement (.amXor d a b h z) := of_word rfl fun _ => by
  simp [decode, decodeMost, ne_brkWord, decode30, unreserved]

theorem Laws.RoundTrip.amMin (d a b : Reg) (h z : BitVec 1) :
    Laws.RoundTrip.Statement (.amMin d a b h z) := of_word rfl fun _ => by
  simp [decode, decodeMost, ne_brkWord, decode30, unreserved]

theorem Laws.RoundTrip.amMax (d a b : Reg) (h z : BitVec 1) :
    Laws.RoundTrip.Statement (.amMax d a b h z) := of_word rfl fun _ => by
  simp [decode, decodeMost, ne_brkWord, decode30, unreserved]

theorem Laws.RoundTrip.amMinn (d a b : Reg) (h z : BitVec 1) :
    Laws.RoundTrip.Statement (.amMinn d a b h z) := of_word rfl fun _ => by
  simp [decode, decodeMost, ne_brkWord, decode30, unreserved]

theorem Laws.RoundTrip.amMaxn (d a b : Reg) (h z : BitVec 1) :
    Laws.RoundTrip.Statement (.amMaxn d a b h z) := of_word rfl fun _ => by
  simp [decode, decodeMost, ne_brkWord, decode30, unreserved]

theorem Laws.RoundTrip.amSwap (d a b : Reg) (h z : BitVec 1) :
    Laws.RoundTrip.Statement (.amSwap d a b h z) := of_word rfl fun _ => by
  simp [decode, decodeMost, ne_brkWord, decode30, unreserved]

theorem Laws.RoundTrip.amCas (d a b : Reg) (h z : BitVec 1) :
    Laws.RoundTrip.Statement (.amCas d a b h z) := of_word rfl fun _ => by
  simp [decode, decodeMost, ne_brkWord, decode30, unreserved]

theorem Laws.RoundTrip.amAddPs (a b : Reg) (h z : BitVec 1) :
    Laws.RoundTrip.Statement (.amAddPs a b h z) := of_word rfl fun _ => by
  simp [decode, decodeMost, ne_brkWord, decode30, unreserved]

theorem Laws.RoundTrip.amAndPs (a b : Reg) (h z : BitVec 1) :
    Laws.RoundTrip.Statement (.amAndPs a b h z) := of_word rfl fun _ => by
  simp [decode, decodeMost, ne_brkWord, decode30, unreserved]

theorem Laws.RoundTrip.amOrPs (a b : Reg) (h z : BitVec 1) :
    Laws.RoundTrip.Statement (.amOrPs a b h z) := of_word rfl fun _ => by
  simp [decode, decodeMost, ne_brkWord, decode30, unreserved]

theorem Laws.RoundTrip.amXorPs (a b : Reg) (h z : BitVec 1) :
    Laws.RoundTrip.Statement (.amXorPs a b h z) := of_word rfl fun _ => by
  simp [decode, decodeMost, ne_brkWord, decode30, unreserved]

theorem Laws.RoundTrip.amMinPs (a b : Reg) (h z : BitVec 1) :
    Laws.RoundTrip.Statement (.amMinPs a b h z) := of_word rfl fun _ => by
  simp [decode, decodeMost, ne_brkWord, decode30, unreserved]

theorem Laws.RoundTrip.amMaxPs (a b : Reg) (h z : BitVec 1) :
    Laws.RoundTrip.Statement (.amMaxPs a b h z) := of_word rfl fun _ => by
  simp [decode, decodeMost, ne_brkWord, decode30, unreserved]

theorem Laws.RoundTrip.amMinnPs (a b : Reg) (h z : BitVec 1) :
    Laws.RoundTrip.Statement (.amMinnPs a b h z) := of_word rfl fun _ => by
  simp [decode, decodeMost, ne_brkWord, decode30, unreserved]

theorem Laws.RoundTrip.amMaxnPs (a b : Reg) (h z : BitVec 1) :
    Laws.RoundTrip.Statement (.amMaxnPs a b h z) := of_word rfl fun _ => by
  simp [decode, decodeMost, ne_brkWord, decode30, unreserved]

theorem Laws.RoundTrip.fence (h : BitVec 1) (s : BitVec 3) :
    Laws.RoundTrip.Statement (.fence h s) := of_word rfl fun h => by
  simp_all [decode, decodeMost, ne_brkWord, decode31, unreserved, Instr.wf]

theorem Laws.RoundTrip.ldAcq (d a : Reg) (h : BitVec 1) (s : BitVec 3) :
    Laws.RoundTrip.Statement (.ldAcq d a h s) := of_word rfl fun h => by
  simp_all [decode, decodeMost, ne_brkWord, decode31, unreserved, Instr.wf]

theorem Laws.RoundTrip.stRel (d a : Reg) (h : BitVec 1) (s : BitVec 3) :
    Laws.RoundTrip.Statement (.stRel d a h s) := of_word rfl fun h => by
  simp_all [decode, decodeMost, ne_brkWord, decode31, unreserved, Instr.wf]

theorem Laws.RoundTrip.fenceEngDr (h : BitVec 1) :
    Laws.RoundTrip.Statement (.fenceEngDr h) := of_word rfl fun _ => by
  simp [decode, decodeMost, ne_brkWord, decode31, unreserved]

theorem Laws.RoundTrip.fenceEngPl (h : BitVec 1) :
    Laws.RoundTrip.Statement (.fenceEngPl h) := of_word rfl fun _ => by
  simp [decode, decodeMost, ne_brkWord, decode31, unreserved]

theorem Laws.RoundTrip.fenceEng (h : BitVec 1) :
    Laws.RoundTrip.Statement (.fenceEng h) := of_word rfl fun _ => by
  simp [decode, decodeMost, ne_brkWord, decode31, unreserved]

theorem Laws.RoundTrip.sow (a : Reg) (h : BitVec 1) :
    Laws.RoundTrip.Statement (.sow a h) := of_word rfl fun _ => by
  simp [decode, decodeMost, ne_brkWord, decode32, unreserved]

theorem Laws.RoundTrip.sowAt (a b : Reg) (h : BitVec 1) :
    Laws.RoundTrip.Statement (.sowAt a b h) := of_word rfl fun _ => by
  simp [decode, decodeMost, ne_brkWord, decode32, unreserved]

theorem Laws.RoundTrip.sowCap (a b : Reg) (h : BitVec 1) :
    Laws.RoundTrip.Statement (.sowCap a b h) := of_word rfl fun _ => by
  simp [decode, decodeMost, ne_brkWord, decode32, unreserved]

theorem Laws.RoundTrip.endTask (a : Reg) (h : BitVec 1) :
    Laws.RoundTrip.Statement (.endTask a h) := of_word rfl fun _ => by
  simp [decode, decodeMost, ne_brkWord, decode32, unreserved]

theorem Laws.RoundTrip.yield (h : BitVec 1) :
    Laws.RoundTrip.Statement (.yield h) := of_word rfl fun _ => by
  simp [decode, decodeMost, ne_brkWord, decode32, unreserved]

theorem Laws.RoundTrip.wfe (h : BitVec 1) :
    Laws.RoundTrip.Statement (.wfe h) := of_word rfl fun _ => by
  simp [decode, decodeMost, ne_brkWord, decode32, unreserved]

theorem Laws.RoundTrip.sev (a : Reg) (h : BitVec 1) :
    Laws.RoundTrip.Statement (.sev a h) := of_word rfl fun _ => by
  simp [decode, decodeMost, ne_brkWord, decode32, unreserved]

theorem Laws.RoundTrip.trigArm (a b : Reg) (h : BitVec 1) :
    Laws.RoundTrip.Statement (.trigArm a b h) := of_word rfl fun _ => by
  simp [decode, decodeMost, ne_brkWord, decode32, unreserved]

theorem Laws.RoundTrip.trigDec (a b : Reg) (h : BitVec 1) :
    Laws.RoundTrip.Statement (.trigDec a b h) := of_word rfl fun _ => by
  simp [decode, decodeMost, ne_brkWord, decode32, unreserved]

theorem Laws.RoundTrip.trigRd (d a : Reg) (h : BitVec 1) :
    Laws.RoundTrip.Statement (.trigRd d a h) := of_word rfl fun _ => by
  simp [decode, decodeMost, ne_brkWord, decode32, unreserved]

theorem Laws.RoundTrip.hmask (a : Reg) (h : BitVec 1) :
    Laws.RoundTrip.Statement (.hmask a h) := of_word rfl fun _ => by
  simp [decode, decodeMost, ne_brkWord, decode32, unreserved]

theorem Laws.RoundTrip.yoke (a : Reg) (h : BitVec 1) :
    Laws.RoundTrip.Statement (.yoke a h) := of_word rfl fun _ => by
  simp [decode, decodeMost, ne_brkWord, decode32, unreserved]

theorem Laws.RoundTrip.unyoke (h : BitVec 1) :
    Laws.RoundTrip.Statement (.unyoke h) := of_word rfl fun _ => by
  simp [decode, decodeMost, ne_brkWord, decode32, unreserved]

theorem Laws.RoundTrip.msgH (a : Reg) (h : BitVec 1) :
    Laws.RoundTrip.Statement (.msgH a h) := of_word rfl fun _ => by
  simp [decode, decodeMost, ne_brkWord, decode33, unreserved]

theorem Laws.RoundTrip.msgD (a : Reg) (h : BitVec 1) (k : BitVec 4) :
    Laws.RoundTrip.Statement (.msgD a h k) := of_word rfl fun h => by
  simp_all [decode, decodeMost, ne_brkWord, decode33, checked, inRange, Instr.wf]

theorem Laws.RoundTrip.msgGo (h : BitVec 1) :
    Laws.RoundTrip.Statement (.msgGo h) := of_word rfl fun _ => by
  simp [decode, decodeMost, ne_brkWord, decode33, unreserved]

theorem Laws.RoundTrip.msgTo (a b : Reg) (h : BitVec 1) :
    Laws.RoundTrip.Statement (.msgTo a b h) := of_word rfl fun _ => by
  simp [decode, decodeMost, ne_brkWord, decode33, unreserved]

theorem Laws.RoundTrip.mqRd (d : Reg) (h : BitVec 1) (k : BitVec 4) :
    Laws.RoundTrip.Statement (.mqRd d h k) := of_word rfl fun h => by
  simp_all [decode, decodeMost, ne_brkWord, decode33, checked, inRange, Instr.wf]

theorem Laws.RoundTrip.mqPop (h : BitVec 1) :
    Laws.RoundTrip.Statement (.mqPop h) := of_word rfl fun _ => by
  simp [decode, decodeMost, ne_brkWord, decode33, unreserved]

theorem Laws.RoundTrip.mqPeek (d : Reg) (h : BitVec 1) :
    Laws.RoundTrip.Statement (.mqPeek d h) := of_word rfl fun _ => by
  simp [decode, decodeMost, ne_brkWord, decode33, unreserved]

theorem Laws.RoundTrip.mbPost (a b : Reg) (h : BitVec 1) :
    Laws.RoundTrip.Statement (.mbPost a b h) := of_word rfl fun _ => by
  simp [decode, decodeMost, ne_brkWord, decode34, unreserved]

theorem Laws.RoundTrip.mbTake (a b : Reg) (h : BitVec 1) :
    Laws.RoundTrip.Statement (.mbTake a b h) := of_word rfl fun _ => by
  simp [decode, decodeMost, ne_brkWord, decode34, unreserved]

theorem Laws.RoundTrip.gbpAcc (a b : Reg) (h : BitVec 1) :
    Laws.RoundTrip.Statement (.gbpAcc a b h) := of_word rfl fun _ => by
  simp [decode, decodeMost, ne_brkWord, decode34, unreserved]

theorem Laws.RoundTrip.gbpSub (a b : Reg) (h : BitVec 1) :
    Laws.RoundTrip.Statement (.gbpSub a b h) := of_word rfl fun _ => by
  simp [decode, decodeMost, ne_brkWord, decode34, unreserved]

theorem Laws.RoundTrip.gbpElim (a b : Reg) (h : BitVec 1) :
    Laws.RoundTrip.Statement (.gbpElim a b h) := of_word rfl fun _ => by
  simp [decode, decodeMost, ne_brkWord, decode34, unreserved]

theorem Laws.RoundTrip.gbpDamp (d a b : Reg) (h : BitVec 1) :
    Laws.RoundTrip.Statement (.gbpDamp d a b h) := of_word rfl fun _ => by
  simp [decode, decodeMost, ne_brkWord, decode34, unreserved]

theorem Laws.RoundTrip.gbpRes (d a b : Reg) (h : BitVec 1) :
    Laws.RoundTrip.Statement (.gbpRes d a b h) := of_word rfl fun _ => by
  simp [decode, decodeMost, ne_brkWord, decode34, unreserved]

theorem Laws.RoundTrip.rdtime (d : Reg) (h : BitVec 1) :
    Laws.RoundTrip.Statement (.rdtime d h) := of_word rfl fun _ => by
  simp [decode, decodeMost, ne_brkWord, decode35, unreserved]

theorem Laws.RoundTrip.rdtimeLoc (d : Reg) (h : BitVec 1) :
    Laws.RoundTrip.Statement (.rdtimeLoc d h) := of_word rfl fun _ => by
  simp [decode, decodeMost, ne_brkWord, decode35, unreserved]

theorem Laws.RoundTrip.rdband (d a : Reg) (h : BitVec 1) :
    Laws.RoundTrip.Statement (.rdband d a h) := of_word rfl fun _ => by
  simp [decode, decodeMost, ne_brkWord, decode35, unreserved]

theorem Laws.RoundTrip.rdpos (d : Reg) (h : BitVec 1) :
    Laws.RoundTrip.Statement (.rdpos d h) := of_word rfl fun _ => by
  simp [decode, decodeMost, ne_brkWord, decode35, unreserved]

theorem Laws.RoundTrip.barArrive (h : BitVec 1) (k : BitVec 4) :
    Laws.RoundTrip.Statement (.barArrive h k) := of_word rfl fun _ => by
  simp [decode, decodeMost, ne_brkWord, decode35, unreserved]

theorem Laws.RoundTrip.barWait (h : BitVec 1) (k : BitVec 4) :
    Laws.RoundTrip.Statement (.barWait h k) := of_word rfl fun _ => by
  simp [decode, decodeMost, ne_brkWord, decode35, unreserved]

theorem Laws.RoundTrip.barMask (a : Reg) (h : BitVec 1) (k : BitVec 4) :
    Laws.RoundTrip.Statement (.barMask a h k) := of_word rfl fun _ => by
  simp [decode, decodeMost, ne_brkWord, decode35, unreserved]

theorem Laws.RoundTrip.barStat (d : Reg) (h : BitVec 1) (k : BitVec 4) :
    Laws.RoundTrip.Statement (.barStat d h k) := of_word rfl fun _ => by
  simp [decode, decodeMost, ne_brkWord, decode35, unreserved]

theorem Laws.RoundTrip.hlStat (d : Reg) (h : BitVec 1) :
    Laws.RoundTrip.Statement (.hlStat d h) := of_word rfl fun _ => by
  simp [decode, decodeMost, ne_brkWord, decode35, unreserved]

theorem Laws.RoundTrip.hlDefer (h : BitVec 1) :
    Laws.RoundTrip.Statement (.hlDefer h) := of_word rfl fun _ => by
  simp [decode, decodeMost, ne_brkWord, decode35, unreserved]

theorem Laws.RoundTrip.resume (a : Reg) (h : BitVec 1) :
    Laws.RoundTrip.Statement (.resume a h) := of_word rfl fun _ => by
  simp [decode, decodeMost, ne_brkWord, decode36, unreserved]

theorem Laws.RoundTrip.park (h : BitVec 1) :
    Laws.RoundTrip.Statement (.park h) := of_word rfl fun _ => by
  simp [decode, decodeMost, ne_brkWord, decode36, unreserved]

theorem Laws.RoundTrip.faultPost (a b : Reg) (h : BitVec 1) :
    Laws.RoundTrip.Statement (.faultPost a b h) := of_word rfl fun _ => by
  simp [decode, decodeMost, ne_brkWord, decode36, unreserved]

theorem Laws.RoundTrip.sqTake (d a : Reg) (h : BitVec 1) :
    Laws.RoundTrip.Statement (.sqTake d a h) := of_word rfl fun _ => by
  simp [decode, decodeMost, ne_brkWord, decode37, unreserved]

theorem Laws.RoundTrip.sqAdmit (d a : Reg) (h : BitVec 1) :
    Laws.RoundTrip.Statement (.sqAdmit d a h) := of_word rfl fun _ => by
  simp [decode, decodeMost, ne_brkWord, decode37, unreserved]

theorem Laws.RoundTrip.sqRetire (a : Reg) (h : BitVec 1) :
    Laws.RoundTrip.Statement (.sqRetire a h) := of_word rfl fun _ => by
  simp [decode, decodeMost, ne_brkWord, decode37, unreserved]

theorem Laws.RoundTrip.kvGet (d a : Reg) (h : BitVec 1) :
    Laws.RoundTrip.Statement (.kvGet d a h) := of_word rfl fun _ => by
  simp [decode, decodeMost, ne_brkWord, decode37, unreserved]

theorem Laws.RoundTrip.kvPut (a b : Reg) (h : BitVec 1) :
    Laws.RoundTrip.Statement (.kvPut a b h) := of_word rfl fun _ => by
  simp [decode, decodeMost, ne_brkWord, decode37, unreserved]

theorem Laws.RoundTrip.stopTest (d a b : Reg) (h : BitVec 1) :
    Laws.RoundTrip.Statement (.stopTest d a b h) := of_word rfl fun _ => by
  simp [decode, decodeMost, ne_brkWord, decode37, unreserved]

theorem Laws.RoundTrip.plGeo (a : Reg) (s : BitVec 2) :
    Laws.RoundTrip.Statement (.plGeo a s) := of_word rfl fun h => by
  simp_all [decode, decodeMost, ne_brkWord, decode38, checked, inRange, Instr.wf]

theorem Laws.RoundTrip.plMma (a b : Reg) (z : BitVec 1) :
    Laws.RoundTrip.Statement (.plMma a b z) := of_word rfl fun _ => by
  simp [decode, decodeMost, ne_brkWord, decode38, unreserved]

theorem Laws.RoundTrip.plMmt (a b : Reg) (z : BitVec 1) :
    Laws.RoundTrip.Statement (.plMmt a b z) := of_word rfl fun _ => by
  simp [decode, decodeMost, ne_brkWord, decode38, unreserved]

theorem Laws.RoundTrip.plZacc (a b : Reg) :
    Laws.RoundTrip.Statement (.plZacc a b) := of_word rfl fun _ => by
  simp [decode, decodeMost, ne_brkWord, decode38, unreserved]

theorem Laws.RoundTrip.plLdacc (a : Reg) :
    Laws.RoundTrip.Statement (.plLdacc a) := of_word rfl fun _ => by
  simp [decode, decodeMost, ne_brkWord, decode38, unreserved]

theorem Laws.RoundTrip.plStacc (a : Reg) (o : BitVec 2) :
    Laws.RoundTrip.Statement (.plStacc a o) := of_word rfl fun h => by
  simp_all [decode, decodeMost, ne_brkWord, decode38, checked, inRange, Instr.wf]

theorem Laws.RoundTrip.plWait (a : Reg) :
    Laws.RoundTrip.Statement (.plWait a) := of_word rfl fun _ => by
  simp [decode, decodeMost, ne_brkWord, decode38, unreserved]

theorem Laws.RoundTrip.plTile (a b : Reg) (z : BitVec 1) :
    Laws.RoundTrip.Statement (.plTile a b z) := of_word rfl fun _ => by
  simp [decode, decodeMost, ne_brkWord, decode38, unreserved]

theorem Laws.RoundTrip.plFlush :
    Laws.RoundTrip.Statement (.plFlush) := of_word rfl fun _ => by
  simp [decode, decodeMost, ne_brkWord, decode38, unreserved]

theorem Laws.RoundTrip.plMmaBlk (a b : Reg) (z : BitVec 1) :
    Laws.RoundTrip.Statement (.plMmaBlk a b z) := of_word rfl fun _ => by
  simp [decode, decodeMost, ne_brkWord, decode38, unreserved]

theorem Laws.RoundTrip.plMmtBlk (a b : Reg) (z : BitVec 1) :
    Laws.RoundTrip.Statement (.plMmtBlk a b z) := of_word rfl fun _ => by
  simp [decode, decodeMost, ne_brkWord, decode38, unreserved]

theorem Laws.RoundTrip.plTileBlk (a b : Reg) (z : BitVec 1) :
    Laws.RoundTrip.Statement (.plTileBlk a b z) := of_word rfl fun _ => by
  simp [decode, decodeMost, ne_brkWord, decode38, unreserved]

theorem Laws.RoundTrip.drCopyGp (a b : Reg) :
    Laws.RoundTrip.Statement (.drCopyGp a b) := of_word rfl fun _ => by
  simp [decode, decodeMost, ne_brkWord, decode39, unreserved]

theorem Laws.RoundTrip.drCopyPg (a b : Reg) :
    Laws.RoundTrip.Statement (.drCopyPg a b) := of_word rfl fun _ => by
  simp [decode, decodeMost, ne_brkWord, decode39, unreserved]

theorem Laws.RoundTrip.drCopyPp (a b : Reg) :
    Laws.RoundTrip.Statement (.drCopyPp a b) := of_word rfl fun _ => by
  simp [decode, decodeMost, ne_brkWord, decode39, unreserved]

theorem Laws.RoundTrip.drCopyGg (a b : Reg) :
    Laws.RoundTrip.Statement (.drCopyGg a b) := of_word rfl fun _ => by
  simp [decode, decodeMost, ne_brkWord, decode39, unreserved]

theorem Laws.RoundTrip.drGathG (a b : Reg) :
    Laws.RoundTrip.Statement (.drGathG a b) := of_word rfl fun _ => by
  simp [decode, decodeMost, ne_brkWord, decode39, unreserved]

theorem Laws.RoundTrip.drGathP (a b : Reg) :
    Laws.RoundTrip.Statement (.drGathP a b) := of_word rfl fun _ => by
  simp [decode, decodeMost, ne_brkWord, decode39, unreserved]

theorem Laws.RoundTrip.drScatG (a b : Reg) :
    Laws.RoundTrip.Statement (.drScatG a b) := of_word rfl fun _ => by
  simp [decode, decodeMost, ne_brkWord, decode39, unreserved]

theorem Laws.RoundTrip.drScatP (a b : Reg) :
    Laws.RoundTrip.Statement (.drScatP a b) := of_word rfl fun _ => by
  simp [decode, decodeMost, ne_brkWord, decode39, unreserved]

theorem Laws.RoundTrip.drFillG (a b : Reg) :
    Laws.RoundTrip.Statement (.drFillG a b) := of_word rfl fun _ => by
  simp [decode, decodeMost, ne_brkWord, decode39, unreserved]

theorem Laws.RoundTrip.drFillP (a b : Reg) :
    Laws.RoundTrip.Statement (.drFillP a b) := of_word rfl fun _ => by
  simp [decode, decodeMost, ne_brkWord, decode39, unreserved]

theorem Laws.RoundTrip.drWait (a : Reg) :
    Laws.RoundTrip.Statement (.drWait a) := of_word rfl fun _ => by
  simp [decode, decodeMost, ne_brkWord, decode39, unreserved]

theorem Laws.RoundTrip.vaddF32 (d a b : Reg) :
    Laws.RoundTrip.Statement (.vaddF32 d a b) := of_word rfl fun _ => by
  simp [decode, decodeMost, ne_brkWord, decode3C, unreserved]

theorem Laws.RoundTrip.vaddS32 (d a b : Reg) :
    Laws.RoundTrip.Statement (.vaddS32 d a b) := of_word rfl fun _ => by
  simp [decode, decodeMost, ne_brkWord, decode3C, unreserved]

theorem Laws.RoundTrip.vsubF32 (d a b : Reg) :
    Laws.RoundTrip.Statement (.vsubF32 d a b) := of_word rfl fun _ => by
  simp [decode, decodeMost, ne_brkWord, decode3C, unreserved]

theorem Laws.RoundTrip.vsubS32 (d a b : Reg) :
    Laws.RoundTrip.Statement (.vsubS32 d a b) := of_word rfl fun _ => by
  simp [decode, decodeMost, ne_brkWord, decode3C, unreserved]

theorem Laws.RoundTrip.vmulF32 (d a b : Reg) :
    Laws.RoundTrip.Statement (.vmulF32 d a b) := of_word rfl fun _ => by
  simp [decode, decodeMost, ne_brkWord, decode3C, unreserved]

theorem Laws.RoundTrip.vmulS32 (d a b : Reg) :
    Laws.RoundTrip.Statement (.vmulS32 d a b) := of_word rfl fun _ => by
  simp [decode, decodeMost, ne_brkWord, decode3C, unreserved]

theorem Laws.RoundTrip.vfmaF32 (d a b c : Reg) :
    Laws.RoundTrip.Statement (.vfmaF32 d a b c) := of_word rfl fun _ => by
  simp [decode, decodeMost, ne_brkWord, decode3C]

theorem Laws.RoundTrip.vfnmF32 (d a b c : Reg) :
    Laws.RoundTrip.Statement (.vfnmF32 d a b c) := of_word rfl fun _ => by
  simp [decode, decodeMost, ne_brkWord, decode3C]

theorem Laws.RoundTrip.vminF32 (d a b : Reg) :
    Laws.RoundTrip.Statement (.vminF32 d a b) := of_word rfl fun _ => by
  simp [decode, decodeMost, ne_brkWord, decode3C, unreserved]

theorem Laws.RoundTrip.vminS32 (d a b : Reg) :
    Laws.RoundTrip.Statement (.vminS32 d a b) := of_word rfl fun _ => by
  simp [decode, decodeMost, ne_brkWord, decode3C, unreserved]

theorem Laws.RoundTrip.vminN32 (d a b : Reg) :
    Laws.RoundTrip.Statement (.vminN32 d a b) := of_word rfl fun _ => by
  simp [decode, decodeMost, ne_brkWord, decode3C, unreserved]

theorem Laws.RoundTrip.vmaxF32 (d a b : Reg) :
    Laws.RoundTrip.Statement (.vmaxF32 d a b) := of_word rfl fun _ => by
  simp [decode, decodeMost, ne_brkWord, decode3C, unreserved]

theorem Laws.RoundTrip.vmaxS32 (d a b : Reg) :
    Laws.RoundTrip.Statement (.vmaxS32 d a b) := of_word rfl fun _ => by
  simp [decode, decodeMost, ne_brkWord, decode3C, unreserved]

theorem Laws.RoundTrip.vmaxN32 (d a b : Reg) :
    Laws.RoundTrip.Statement (.vmaxN32 d a b) := of_word rfl fun _ => by
  simp [decode, decodeMost, ne_brkWord, decode3C, unreserved]

theorem Laws.RoundTrip.vabsF32 (d a : Reg) :
    Laws.RoundTrip.Statement (.vabsF32 d a) := of_word rfl fun _ => by
  simp [decode, decodeMost, ne_brkWord, decode3C, unreserved]

theorem Laws.RoundTrip.vabsS32 (d a : Reg) :
    Laws.RoundTrip.Statement (.vabsS32 d a) := of_word rfl fun _ => by
  simp [decode, decodeMost, ne_brkWord, decode3C, unreserved]

theorem Laws.RoundTrip.vnegF32 (d a : Reg) :
    Laws.RoundTrip.Statement (.vnegF32 d a) := of_word rfl fun _ => by
  simp [decode, decodeMost, ne_brkWord, decode3C, unreserved]

theorem Laws.RoundTrip.vnegS32 (d a : Reg) :
    Laws.RoundTrip.Statement (.vnegS32 d a) := of_word rfl fun _ => by
  simp [decode, decodeMost, ne_brkWord, decode3C, unreserved]

theorem Laws.RoundTrip.vrcpF32 (d a : Reg) :
    Laws.RoundTrip.Statement (.vrcpF32 d a) := of_word rfl fun _ => by
  simp [decode, decodeMost, ne_brkWord, decode3C, unreserved]

theorem Laws.RoundTrip.vrsqF32 (d a : Reg) :
    Laws.RoundTrip.Statement (.vrsqF32 d a) := of_word rfl fun _ => by
  simp [decode, decodeMost, ne_brkWord, decode3C, unreserved]

theorem Laws.RoundTrip.vand (d a b : Reg) :
    Laws.RoundTrip.Statement (.vand d a b) := of_word rfl fun _ => by
  simp [decode, decodeMost, ne_brkWord, decode3C, unreserved]

theorem Laws.RoundTrip.vor (d a b : Reg) :
    Laws.RoundTrip.Statement (.vor d a b) := of_word rfl fun _ => by
  simp [decode, decodeMost, ne_brkWord, decode3C, unreserved]

theorem Laws.RoundTrip.vxor (d a b : Reg) :
    Laws.RoundTrip.Statement (.vxor d a b) := of_word rfl fun _ => by
  simp [decode, decodeMost, ne_brkWord, decode3C, unreserved]

theorem Laws.RoundTrip.vsll (d a b : Reg) :
    Laws.RoundTrip.Statement (.vsll d a b) := of_word rfl fun _ => by
  simp [decode, decodeMost, ne_brkWord, decode3C, unreserved]

theorem Laws.RoundTrip.vsrl (d a b : Reg) :
    Laws.RoundTrip.Statement (.vsrl d a b) := of_word rfl fun _ => by
  simp [decode, decodeMost, ne_brkWord, decode3C, unreserved]

theorem Laws.RoundTrip.vsra (d a b : Reg) :
    Laws.RoundTrip.Statement (.vsra d a b) := of_word rfl fun _ => by
  simp [decode, decodeMost, ne_brkWord, decode3C, unreserved]

theorem Laws.RoundTrip.vsel (d a b c : Reg) :
    Laws.RoundTrip.Statement (.vsel d a b c) := of_word rfl fun _ => by
  simp [decode, decodeMost, ne_brkWord, decode3C]

theorem Laws.RoundTrip.vdotF32 (d a b : Reg) :
    Laws.RoundTrip.Statement (.vdotF32 d a b) := of_word rfl fun _ => by
  simp [decode, decodeMost, ne_brkWord, decode3C, unreserved]

theorem Laws.RoundTrip.vsclF32 (d a b : Reg) :
    Laws.RoundTrip.Statement (.vsclF32 d a b) := of_word rfl fun _ => by
  simp [decode, decodeMost, ne_brkWord, decode3C, unreserved]

theorem Laws.RoundTrip.vcmpEqF32 (d a b : Reg) :
    Laws.RoundTrip.Statement (.vcmpEqF32 d a b) := of_word rfl fun _ => by
  simp [decode, decodeMost, ne_brkWord, decode3C, unreserved]

theorem Laws.RoundTrip.vcmpNeF32 (d a b : Reg) :
    Laws.RoundTrip.Statement (.vcmpNeF32 d a b) := of_word rfl fun _ => by
  simp [decode, decodeMost, ne_brkWord, decode3C, unreserved]

theorem Laws.RoundTrip.vcmpLtF32 (d a b : Reg) :
    Laws.RoundTrip.Statement (.vcmpLtF32 d a b) := of_word rfl fun _ => by
  simp [decode, decodeMost, ne_brkWord, decode3C, unreserved]

theorem Laws.RoundTrip.vcmpLeF32 (d a b : Reg) :
    Laws.RoundTrip.Statement (.vcmpLeF32 d a b) := of_word rfl fun _ => by
  simp [decode, decodeMost, ne_brkWord, decode3C, unreserved]

theorem Laws.RoundTrip.vcmpEqS32 (d a b : Reg) :
    Laws.RoundTrip.Statement (.vcmpEqS32 d a b) := of_word rfl fun _ => by
  simp [decode, decodeMost, ne_brkWord, decode3C, unreserved]

theorem Laws.RoundTrip.vcmpNeS32 (d a b : Reg) :
    Laws.RoundTrip.Statement (.vcmpNeS32 d a b) := of_word rfl fun _ => by
  simp [decode, decodeMost, ne_brkWord, decode3C, unreserved]

theorem Laws.RoundTrip.vcmpLtS32 (d a b : Reg) :
    Laws.RoundTrip.Statement (.vcmpLtS32 d a b) := of_word rfl fun _ => by
  simp [decode, decodeMost, ne_brkWord, decode3C, unreserved]

theorem Laws.RoundTrip.vcmpLeS32 (d a b : Reg) :
    Laws.RoundTrip.Statement (.vcmpLeS32 d a b) := of_word rfl fun _ => by
  simp [decode, decodeMost, ne_brkWord, decode3C, unreserved]

theorem Laws.RoundTrip.vcmpLtN32 (d a b : Reg) :
    Laws.RoundTrip.Statement (.vcmpLtN32 d a b) := of_word rfl fun _ => by
  simp [decode, decodeMost, ne_brkWord, decode3C, unreserved]

theorem Laws.RoundTrip.vcmpLeN32 (d a b : Reg) :
    Laws.RoundTrip.Statement (.vcmpLeN32 d a b) := of_word rfl fun _ => by
  simp [decode, decodeMost, ne_brkWord, decode3C, unreserved]

theorem Laws.RoundTrip.vraddF32 (d a : Reg) :
    Laws.RoundTrip.Statement (.vraddF32 d a) := of_word rfl fun _ => by
  simp [decode, decodeMost, ne_brkWord, decode3C, unreserved]

theorem Laws.RoundTrip.vraddS32 (d a : Reg) :
    Laws.RoundTrip.Statement (.vraddS32 d a) := of_word rfl fun _ => by
  simp [decode, decodeMost, ne_brkWord, decode3C, unreserved]

theorem Laws.RoundTrip.vrmaxF32 (d a : Reg) :
    Laws.RoundTrip.Statement (.vrmaxF32 d a) := of_word rfl fun _ => by
  simp [decode, decodeMost, ne_brkWord, decode3C, unreserved]

theorem Laws.RoundTrip.vrmaxS32 (d a : Reg) :
    Laws.RoundTrip.Statement (.vrmaxS32 d a) := of_word rfl fun _ => by
  simp [decode, decodeMost, ne_brkWord, decode3C, unreserved]

theorem Laws.RoundTrip.vrminF32 (d a : Reg) :
    Laws.RoundTrip.Statement (.vrminF32 d a) := of_word rfl fun _ => by
  simp [decode, decodeMost, ne_brkWord, decode3C, unreserved]

theorem Laws.RoundTrip.vrminS32 (d a : Reg) :
    Laws.RoundTrip.Statement (.vrminS32 d a) := of_word rfl fun _ => by
  simp [decode, decodeMost, ne_brkWord, decode3C, unreserved]

theorem Laws.RoundTrip.vrmaxiF32 (d a : Reg) :
    Laws.RoundTrip.Statement (.vrmaxiF32 d a) := of_word rfl fun _ => by
  simp [decode, decodeMost, ne_brkWord, decode3C, unreserved]

theorem Laws.RoundTrip.vcvtF32S32 (d a : Reg) :
    Laws.RoundTrip.Statement (.vcvtF32S32 d a) := of_word rfl fun _ => by
  simp [decode, decode3D, cause3D, refuse]

theorem Laws.RoundTrip.vcvtS32F32 (d a : Reg) :
    Laws.RoundTrip.Statement (.vcvtS32F32 d a) := of_word rfl fun _ => by
  simp [decode, decode3D, cause3D, refuse]

theorem Laws.RoundTrip.vcvtBf16F32 (d a : Reg) :
    Laws.RoundTrip.Statement (.vcvtBf16F32 d a) := of_word rfl fun _ => by
  simp [decode, decode3D, cause3D, refuse]

theorem Laws.RoundTrip.vcvtF16F32 (d a : Reg) :
    Laws.RoundTrip.Statement (.vcvtF16F32 d a) := of_word rfl fun _ => by
  simp [decode, decode3D, cause3D, refuse]

theorem Laws.RoundTrip.vcvtF32Bf16 (d a : Reg) :
    Laws.RoundTrip.Statement (.vcvtF32Bf16 d a) := of_word rfl fun _ => by
  simp [decode, decode3D, cause3D, refuse]

theorem Laws.RoundTrip.vcvtF32F16 (d a : Reg) :
    Laws.RoundTrip.Statement (.vcvtF32F16 d a) := of_word rfl fun _ => by
  simp [decode, decode3D, cause3D, refuse]

theorem Laws.RoundTrip.vcvtE4m3F32 (d a : Reg) :
    Laws.RoundTrip.Statement (.vcvtE4m3F32 d a) := of_word rfl fun _ => by
  simp [decode, decode3D, cause3D, refuse]

theorem Laws.RoundTrip.vcvtE5m2F32 (d a : Reg) :
    Laws.RoundTrip.Statement (.vcvtE5m2F32 d a) := of_word rfl fun _ => by
  simp [decode, decode3D, cause3D, refuse]

theorem Laws.RoundTrip.vcvtF32E4m3 (d a : Reg) :
    Laws.RoundTrip.Statement (.vcvtF32E4m3 d a) := of_word rfl fun _ => by
  simp [decode, decode3D, cause3D, refuse]

theorem Laws.RoundTrip.vcvtF32E5m2 (d a : Reg) :
    Laws.RoundTrip.Statement (.vcvtF32E5m2 d a) := of_word rfl fun _ => by
  simp [decode, decode3D, cause3D, refuse]

theorem Laws.RoundTrip.vpackS16 (d a b : Reg) :
    Laws.RoundTrip.Statement (.vpackS16 d a b) := of_word rfl fun _ => by
  simp [decode, decode3D, cause3D, refuse]

theorem Laws.RoundTrip.vpackN16 (d a b : Reg) :
    Laws.RoundTrip.Statement (.vpackN16 d a b) := of_word rfl fun _ => by
  simp [decode, decode3D, cause3D, refuse]

theorem Laws.RoundTrip.vpackS8 (d a b : Reg) :
    Laws.RoundTrip.Statement (.vpackS8 d a b) := of_word rfl fun _ => by
  simp [decode, decode3D, cause3D, refuse]

theorem Laws.RoundTrip.vpackN8 (d a b : Reg) :
    Laws.RoundTrip.Statement (.vpackN8 d a b) := of_word rfl fun _ => by
  simp [decode, decode3D, cause3D, refuse]

theorem Laws.RoundTrip.vunpkS16 (d a : Reg) (k : BitVec 5) :
    Laws.RoundTrip.Statement (.vunpkS16 d a k) := of_word rfl fun h => by
  simp_all [decode, decode3D, cause3D, refuse, Instr.wf]

theorem Laws.RoundTrip.vunpkN16 (d a : Reg) (k : BitVec 5) :
    Laws.RoundTrip.Statement (.vunpkN16 d a k) := of_word rfl fun h => by
  simp_all [decode, decode3D, cause3D, refuse, Instr.wf]

theorem Laws.RoundTrip.vunpkS8 (d a : Reg) (k : BitVec 5) :
    Laws.RoundTrip.Statement (.vunpkS8 d a k) := of_word rfl fun h => by
  simp_all [decode, decode3D, cause3D, refuse, Instr.wf]

theorem Laws.RoundTrip.vunpkN8 (d a : Reg) (k : BitVec 5) :
    Laws.RoundTrip.Statement (.vunpkN8 d a k) := of_word rfl fun h => by
  simp_all [decode, decode3D, cause3D, refuse, Instr.wf]

theorem Laws.RoundTrip.vbcast (d a : Reg) :
    Laws.RoundTrip.Statement (.vbcast d a) := of_word rfl fun _ => by
  simp [decode, decode3D, cause3D, refuse]

theorem Laws.RoundTrip.vext (d a : Reg) (k : BitVec 5) :
    Laws.RoundTrip.Statement (.vext d a k) := of_word rfl fun h => by
  simp_all [decode, decode3D, cause3D, refuse, Instr.wf]

theorem Laws.RoundTrip.vins (d a : Reg) (k : BitVec 5) :
    Laws.RoundTrip.Statement (.vins d a k) := of_word rfl fun h => by
  simp_all [decode, decode3D, cause3D, refuse, Instr.wf]

theorem Laws.RoundTrip.vperm (d a b : Reg) :
    Laws.RoundTrip.Statement (.vperm d a b) := of_word rfl fun _ => by
  simp [decode, decode3D, cause3D, refuse]

theorem Laws.RoundTrip.vrot (d a : Reg) (k : BitVec 5) :
    Laws.RoundTrip.Statement (.vrot d a k) := of_word rfl fun h => by
  simp_all [decode, decode3D, cause3D, refuse, Instr.wf]

theorem Laws.RoundTrip.vshfl (d a b : Reg) :
    Laws.RoundTrip.Statement (.vshfl d a b) := of_word rfl fun _ => by
  simp [decode, decode3D, cause3D, refuse]

theorem Laws.RoundTrip.ldgV (d a b : Reg) :
    Laws.RoundTrip.Statement (.ldgV d a b) := of_word rfl fun _ => by
  simp [decode, decode3D, cause3D, refuse]

theorem Laws.RoundTrip.stgV (d a b : Reg) :
    Laws.RoundTrip.Statement (.stgV d a b) := of_word rfl fun _ => by
  simp [decode, decode3D, cause3D, refuse]

theorem Laws.RoundTrip.brk :
    Laws.RoundTrip.Statement (.brk) := of_word rfl fun _ => rfl

theorem Laws.RoundTrip.illegalInstruction (w : W32) :
    Laws.RoundTrip.Statement (.illegalInstruction w) := of_event rfl

theorem Laws.RoundTrip.migrate (loc : SlotRef) :
    Laws.RoundTrip.Statement (.migrate loc) := of_event rfl

theorem Laws.RoundTrip.dispatch (loc : SlotRef) :
    Laws.RoundTrip.Statement (.dispatch loc) := of_event rfl

theorem Laws.RoundTrip.partitionChange (core : CoreRef) :
    Laws.RoundTrip.Statement (.partitionChange core) := of_event rfl

theorem Laws.RoundTrip.concurrentDispatch (h : HoldRef) (tag : Nat) :
    Laws.RoundTrip.Statement (.concurrentDispatch h tag) := of_event rfl

theorem Laws.RoundTrip.gleanCluster (core : CoreRef) :
    Laws.RoundTrip.Statement (.gleanCluster core) := of_event rfl

theorem Laws.RoundTrip.gleanHolding (die : DieId) :
    Laws.RoundTrip.Statement (.gleanHolding die) := of_event rfl

theorem Laws.RoundTrip.restoreSeedMove (loc : SlotRef) :
    Laws.RoundTrip.Statement (.restoreSeedMove loc) := of_event rfl

theorem Laws.RoundTrip.handlerWatchdog (loc : SlotRef) :
    Laws.RoundTrip.Statement (.handlerWatchdog loc) := of_event rfl

theorem Laws.RoundTrip.deliver (h : HoldRef) (n : Nat) :
    Laws.RoundTrip.Statement (.deliver h n) := of_event rfl

theorem Laws.RoundTrip.faultRecordOffer (h : HoldRef) :
    Laws.RoundTrip.Statement (.faultRecordOffer h) := of_event rfl

theorem Laws.RoundTrip.ploughGrant (die : DieId) (cl : Fin 60) :
    Laws.RoundTrip.Statement (.ploughGrant die cl) := of_event rfl

theorem Laws.RoundTrip.tileCommit (die : DieId) (cl : Fin 60) :
    Laws.RoundTrip.Statement (.tileCommit die cl) := of_event rfl

theorem Laws.RoundTrip.drillRow (core : CoreRef) :
    Laws.RoundTrip.Statement (.drillRow core) := of_event rfl

theorem Laws.RoundTrip.atsCompletion (die : DieId) (n victim : Nat) :
    Laws.RoundTrip.Statement (.atsCompletion die n victim) := of_event rfl

theorem Laws.RoundTrip.pageRequestResponse (die : DieId) (n : Nat) (ok : Bool) (victim : Nat) :
    Laws.RoundTrip.Statement (.pageRequestResponse die n ok victim) := of_event rfl

theorem Laws.RoundTrip.atsInvalidation (pasid : BitVec 20) (base size : Nat) :
    Laws.RoundTrip.Statement (.atsInvalidation pasid base size) := of_event rfl

theorem Laws.RoundTrip.uncorrectableError (line : LineRef) :
    Laws.RoundTrip.Statement (.uncorrectableError line) := of_event rfl

theorem Laws.RoundTrip.hostWrite (e : Fin 4) (addr : Nat) (bytes : List Byte) (ep : Bool) :
    Laws.RoundTrip.Statement (.hostWrite e addr bytes ep) := of_event rfl

theorem Laws.RoundTrip.hostRead (e : Fin 4) (addr len : Nat) :
    Laws.RoundTrip.Statement (.hostRead e addr len) := of_event rfl

theorem Laws.RoundTrip.lateReply (die : DieId) :
    Laws.RoundTrip.Statement (.lateReply die) := of_event rfl

theorem Laws.RoundTrip.drain (e : Fin 4) :
    Laws.RoundTrip.Statement (.drain e) := of_event rfl

theorem Laws.RoundTrip.drainWatchdog (e : Fin 4) :
    Laws.RoundTrip.Statement (.drainWatchdog e) := of_event rfl

theorem Laws.RoundTrip.headlandMove (e : Fin 4) :
    Laws.RoundTrip.Statement (.headlandMove e) := of_event rfl

theorem Laws.RoundTrip.headlandResume (e : Fin 4) :
    Laws.RoundTrip.Statement (.headlandResume e) := of_event rfl

theorem Laws.RoundTrip.gangSwitch (e : Fin 4) :
    Laws.RoundTrip.Statement (.gangSwitch e) := of_event rfl

theorem Laws.RoundTrip.timeBeacon (die : DieId) (south : Bool) (err : BitVec 5) :
    Laws.RoundTrip.Statement (.timeBeacon die south err) := of_event rfl

theorem Laws.RoundTrip.arbiterEpoch (nonPlough draw : Nat) (demand : List Nat) :
    Laws.RoundTrip.Statement (.arbiterEpoch nonPlough draw demand) := of_event rfl

theorem Laws.RoundTrip.wearUpdate (j : Fin 80) (ageing retired : BitVec 8) (eol : BitVec 16) :
    Laws.RoundTrip.Statement (.wearUpdate j ageing retired eol) := of_event rfl

theorem Laws.RoundTrip.coreFailure (core : CoreRef) :
    Laws.RoundTrip.Statement (.coreFailure core) := of_event rfl

theorem Laws.RoundTrip.retireCore (port : BitVec 1) (v : Word) :
    Laws.RoundTrip.Statement (.retireCore port v) := of_event rfl

theorem Laws.RoundTrip.launchTake (h : HoldRef) :
    Laws.RoundTrip.Statement (.launchTake h) := of_event rfl

theorem Laws.RoundTrip.launchComplete (h : HoldRef) (tag : Nat) :
    Laws.RoundTrip.Statement (.launchComplete h tag) := of_event rfl

theorem Laws.RoundTrip.walkerPush (h : HoldRef) :
    Laws.RoundTrip.Statement (.walkerPush h) := of_event rfl

theorem Laws.RoundTrip.walkerCompletion (h : HoldRef) :
    Laws.RoundTrip.Statement (.walkerCompletion h) := of_event rfl

theorem Laws.RoundTrip.ringEnable (fn : Fin 64) (ring : RingId) (v : Word) :
    Laws.RoundTrip.Statement (.ringEnable fn ring v) := of_event rfl

theorem Laws.RoundTrip.svCqHeadWrite (fn : Fin 64) (v : Word) :
    Laws.RoundTrip.Statement (.svCqHeadWrite fn v) := of_event rfl

theorem Laws.RoundTrip.kvCountWrite (fn : Fin 64) (v : Word) :
    Laws.RoundTrip.Statement (.kvCountWrite fn v) := of_event rfl

theorem Laws.RoundTrip.hlCtlWrite (port : BitVec 1) (e : Fin 4) (v : Word) :
    Laws.RoundTrip.Statement (.hlCtlWrite port e v) := of_event rfl

theorem Laws.RoundTrip.create (port : BitVec 1) (e : Fin 4) (v : Word) :
    Laws.RoundTrip.Statement (.create port e v) := of_event rfl

theorem Laws.RoundTrip.destroy (port : BitVec 1) (e : Fin 4) (v : Word) :
    Laws.RoundTrip.Statement (.destroy port e v) := of_event rfl

theorem Laws.RoundTrip.stop (port : BitVec 1) (e : Fin 4) (v : Word) (work : StopWork) :
    Laws.RoundTrip.Statement (.stop port e v work) := of_event rfl

theorem Laws.RoundTrip.start (port : BitVec 1) (e : Fin 4) (v : Word) :
    Laws.RoundTrip.Statement (.start port e v) := of_event rfl

theorem Laws.RoundTrip.switchOut (port : BitVec 1) (e : Fin 4) (v : Word) :
    Laws.RoundTrip.Statement (.switchOut port e v) := of_event rfl

theorem Laws.RoundTrip.switchIn (port : BitVec 1) (e : Fin 4) (v : Word) :
    Laws.RoundTrip.Statement (.switchIn port e v) := of_event rfl

theorem Laws.RoundTrip.setWd (port : BitVec 1) (e : Fin 4) (v : Word) :
    Laws.RoundTrip.Statement (.setWd port e v) := of_event rfl

theorem Laws.RoundTrip.resetHolding (port : BitVec 1) (e : Fin 4) (v : Word) (again : Bool) :
    Laws.RoundTrip.Statement (.resetHolding port e v again) := of_event rfl

theorem Laws.RoundTrip.estateReset (port : BitVec 1) (e : Fin 4) (v : Word) (lost : List (Nat × Byte)) (again : Bool) :
    Laws.RoundTrip.Statement (.estateReset port e v lost again) := of_event rfl

theorem Laws.RoundTrip.functionLevelReset (fn : Fin 64) (again : Bool) :
    Laws.RoundTrip.Statement (.functionLevelReset fn again) := of_event rfl

theorem Laws.RoundTrip.partitionModeWrite (port : BitVec 1) (v : Word) :
    Laws.RoundTrip.Statement (.partitionModeWrite port v) := of_event rfl

theorem Laws.RoundTrip.survey (fn : Fin 64) (port : BitVec 1) (reach again : Bool) :
    Laws.RoundTrip.Statement (.survey fn port reach again) := of_event rfl

theorem Laws.RoundTrip.svResume (fn : Fin 64) (port : BitVec 1) :
    Laws.RoundTrip.Statement (.svResume fn port) := of_event rfl

theorem Laws.RoundTrip.setDbg (fn : Fin 64) (port : BitVec 1) :
    Laws.RoundTrip.Statement (.setDbg fn port) := of_event rfl

theorem Laws.RoundTrip.stewardClaim (port : BitVec 1) (w : ClaimWrites) :
    Laws.RoundTrip.Statement (.stewardClaim port w) := of_event rfl

theorem Laws.RoundTrip.stewardResign (port : BitVec 1) (v : Word) :
    Laws.RoundTrip.Statement (.stewardResign port v) := of_event rfl

theorem Laws.RoundTrip.stewardHandover (port : BitVec 1) (v : Word) :
    Laws.RoundTrip.Statement (.stewardHandover port v) := of_event rfl

theorem Laws.RoundTrip.stwBeat (port : BitVec 1) :
    Laws.RoundTrip.Statement (.stwBeat port) := of_event rfl

theorem Laws.RoundTrip.stewardLapse (linkDown : Bool) :
    Laws.RoundTrip.Statement (.stewardLapse linkDown) := of_event rfl

theorem Laws.RoundTrip.stwStatRead (port : BitVec 1) :
    Laws.RoundTrip.Statement (.stwStatRead port) := of_event rfl

theorem Laws.RoundTrip.linkStateChange (k : Fin 16) (up : LinkReport) :
    Laws.RoundTrip.Statement (.linkStateChange k up) := of_event rfl

theorem Laws.RoundTrip.collectiveTake (h : HoldRef) :
    Laws.RoundTrip.Statement (.collectiveTake h) := of_event rfl

theorem Laws.RoundTrip.collectiveComplete (h : HoldRef) (n : Nat) (bufs : List (BitVec 48 × List Byte)) :
    Laws.RoundTrip.Statement (.collectiveComplete h n bufs) := of_event rfl

theorem Laws.RoundTrip.collectiveTimeout (h : HoldRef) (n : Nat) (part : PartDone) :
    Laws.RoundTrip.Statement (.collectiveTimeout h n part) := of_event rfl

theorem Laws.RoundTrip.abandonNotice (h : HoldRef) (n : Nat) (part : PartDone) :
    Laws.RoundTrip.Statement (.abandonNotice h n part) := of_event rfl

theorem Laws.RoundTrip.exportTicket (port : BitVec 1) (v : Word) :
    Laws.RoundTrip.Statement (.exportTicket port v) := of_event rfl

theorem Laws.RoundTrip.importTicket (port : BitVec 1) (v : Word) (path accepted : Bool) :
    Laws.RoundTrip.Statement (.importTicket port v path accepted) := of_event rfl

theorem Laws.RoundTrip.importComplete (h : HoldRef) (pulled : Bool) :
    Laws.RoundTrip.Statement (.importComplete h pulled) := of_event rfl

theorem Laws.RoundTrip.harvest (port : BitVec 1) (w : TableCommand) :
    Laws.RoundTrip.Statement (.harvest port w) := of_event rfl

theorem Laws.RoundTrip.harvestCut (cut : CutOrder) :
    Laws.RoundTrip.Statement (.harvestCut cut) := of_event rfl

theorem Laws.RoundTrip.restore (port : BitVec 1) (w : TableCommand) :
    Laws.RoundTrip.Statement (.restore port w) := of_event rfl

theorem Laws.RoundTrip.attest (port : BitVec 1) (v : Word) (reach : Bool) :
    Laws.RoundTrip.Statement (.attest port v reach) := of_event rfl

theorem Laws.RoundTrip.powerOn (rep : BootReport) :
    Laws.RoundTrip.Statement (.powerOn rep) := of_event rfl

theorem Laws.RoundTrip.registerWrite (fn : Fin 64) (port : BitVec 1) (r : HostReg) (v : Word) :
    Laws.RoundTrip.Statement (.registerWrite fn port r v) := of_event rfl

theorem Laws.RoundTrip.msiXUnmask (fn : Fin 64) (w : MaskClear) :
    Laws.RoundTrip.Statement (.msiXUnmask fn w) := of_event rfl

theorem Laws.RoundTrip.transplantTicketCheck (ticket : List Word) :
    Laws.RoundTrip.Statement (.transplantTicketCheck ticket) := of_event rfl

end Sys2Proof
end

