-- ==== Sys2Proof/Laws/Stores.lean ====
section
/-! SUPPORT. Buffered stores: what buffering leaves alone, when performing does nothing, and that a store performed at a place of
global memory changes no other byte. -/

namespace Sys2Proof.Machine

/-! ## Buffering a store changes nothing that another agent sees -/

@[simp] theorem State.mem_buffer (s : State) (r : SlotRef) (b : BufferedStore) : (s.buffer r b).mem = s.mem := rfl
@[simp] theorem State.memPoison_buffer (s : State) (r : SlotRef) (b : BufferedStore) : (s.buffer r b).memPoison = s.memPoison := rfl
@[simp] theorem State.estates_buffer (s : State) (r : SlotRef) (b : BufferedStore) : (s.buffer r b).estates = s.estates := rfl

theorem State.slot_buffer (s : State) (r : SlotRef) (b : BufferedStore) :
    (s.buffer r b).slot r = { s.slot r with stores := (s.slot r).stores ++ [b] } := by
  simp [State.buffer, State.slot, State.setSlot, vset]

@[simp] theorem State.pool_buffer (s : State) (r : SlotRef) (b : BufferedStore) (c : CoreRef) :
    ((s.buffer r b).core c).pool = (s.core c).pool := by
  by_cases e : r.core = c
  · subst e; simp [State.buffer, State.setSlot]
  · simp [State.buffer, State.setSlot, State.core_setCore_ne _ _ e]

/-! ## A slot without buffered stores has nothing to perform -/

@[simp] theorem State.drainStores_zero (s : State) (r : SlotRef) : s.drainStores r 0 = s := rfl

theorem State.flush_nil {s : State} {r : SlotRef} (h : (s.slot r).stores = []) : s.flush r = s := by
  simp [State.flush, h]

theorem State.flushFor_nil {s : State} {r : SlotRef} (h : (s.slot r).stores = []) (ls : List Loc) : s.flushFor r ls = s := by
  simp [State.flushFor, h, lastIndex]

/-- A store that shares no byte with the locations of a load stays where it is. -/
theorem lastIndex_none {α : Type} {p : α → Bool} {xs : List α} (h : ∀ x ∈ xs, p x = false) : lastIndex p xs = 0 := by
  have key : ∀ ys : List α, (∀ x ∈ ys, p x = false) → ys.takeWhile (fun x => !p x) = ys := by
    intro ys hy
    induction ys with
    | nil => rfl
    | cons y ys ih => simp [hy y (by simp), ih fun x hx => hy x (by simp [hx])]
  simp [lastIndex, key xs.reverse fun x hx => h x (List.mem_reverse.mp hx)]

theorem State.flushFor_apart {s : State} {r : SlotRef} {ls : List Loc} (h : ∀ b ∈ (s.slot r).stores, ∀ l ∈ ls, b.loc.overlaps l = false) :
    s.flushFor r ls = s := by
  have : ∀ b ∈ (s.slot r).stores, (ls.any b.loc.overlaps) = false := by
    intro b hb; rw [List.any_eq_false]; intro l hl; simp [h b hb l hl]
  simp [State.flushFor, lastIndex_none this]

/-! ## Performing a store -/

/-- The poison that a write of whole lines leaves changes no byte. -/
@[simp] theorem State.mem_stain (s : State) (l : Loc) (bad : Bool) : (s.stain l bad).mem = s.mem := by
  cases l <;> rfl

/-- The poison that a write of whole lines leaves changes no byte of a pool. -/
@[simp] theorem State.bytes_stain (s : State) (l : Loc) (bad : Bool) (c : CoreRef) : ((s.stain l bad).core c).pool.bytes = (s.core c).pool.bytes := by
  cases l with
  | mem ks p ea => rfl
  | pool d off len =>
    by_cases e : d = c
    · subst e; simp [State.stain]
    · simp [State.stain, State.core_setCore_ne _ _ e]

/-- A store performed in global memory leaves every byte outside its place alone. -/
theorem State.perform_mem_ne (s : State) (b : BufferedStore) {ks : List Nat} {p : BitVec 20} {ea k : Nat} (hb : b.loc = .mem ks p ea)
    (h : ∀ x ∈ ks, x ≠ k) : Memory.get (s.perform b).mem k = Memory.get s.mem k := by
  have hn : s.noteGuest b.home b.loc = s := by rw [hb]; unfold State.noteGuest; split <;> simp_all
  rw [State.perform, hn, hb]
  cases b.value s with
  | none => rfl
  | some bs =>
    have hw : Memory.get (s.writeLoc b.hold (.mem ks p ea) bs).mem k = Memory.get s.mem k :=
      Memory.get_writeAll_ne _ _ fun q hq => h q.1 (List.of_mem_zip hq).1
    cases b.whole <;> simp [hw]

/-- A store performed in a pool leaves global memory alone. -/
theorem State.perform_pool_mem (s : State) (b : BufferedStore) {c : CoreRef} {off len : Nat} (hb : b.loc = .pool c off len) :
    (s.perform b).mem = s.mem := by
  unfold State.perform
  cases b.value s with
  | none => rfl
  | some bs =>
    have hw : ((s.noteGuest b.home b.loc).writeLoc b.hold b.loc bs).mem = s.mem := by
      simp only [hb, State.writeLoc, State.writePool]
      unfold State.noteGuest
      split
      · split
        · split <;> rfl
        · rfl
      · rfl
    cases b.whole <;> simp [hw]

/-- A plain store writes its own bytes. -/
@[simp] theorem BufferedStore.value_plain {b : BufferedStore} (h : b.am = none) (s : State) : b.value s = some b.bytes := by
  simp [BufferedStore.value, h]

/-- A posted atomic writes what its operation gives the bytes that stand at its place when it is performed. -/
theorem BufferedStore.value_posted {b : BufferedStore} {k : AmKind} (h : b.am = some k) {s : State} (hp : s.poisoned b.loc = false) :
    b.value s = some (toBytes b.bytes.length (k.apply (8 * b.bytes.length) (ofBytes (s.readLoc b.loc)) (ofBytes b.bytes))) := by
  simp [BufferedStore.value, h, hp]

/-- Number 0 of a slot's stores is always at the oldest place and is performed as it stands; of an empty list none is. -/
theorem State.performOne_zero {s : State} {r : SlotRef} {b : BufferedStore} {bs : List BufferedStore} (h : (s.slot r).stores = b :: bs) :
    s.performOne r 0 = (s.setSlot r { s.slot r with stores := bs }).perform b := by
  simp [State.performOne, h, firstPlace, removeAt]

@[simp] theorem State.performOne_nil {s : State} {r : SlotRef} (h : (s.slot r).stores = []) (n : Nat) : s.performOne r n = s := by
  simp [State.performOne, h, firstPlace]

end Sys2Proof.Machine
end

