-- ==== Sys2Proof/Tests/Slice0.lean ====
section
/-! SUPPORT. Tests of the model: ill-formed instructions that the check of operands refuses, words written out from the opcode maps,
and, for the hypotheses of each statement, a state that meets them. -/

namespace Sys2Proof.Tests

/-! The tests are elaborated one after another: side by side they would hold a thread's stack each. -/
set_option Elab.async false
open Sys2Proof Sys2Proof.Machine Sys2Proof.Claims

/-! ## Small states -/

/-- A panel with one holding on die 0, whose core 0 runs a task in slot 0 at 0x10000, one page of translation and no other state. -/
def base : State := State.reset.withFetchWord 32 0
/-- The slot that runs. -/
abbrev me : SlotRef := base.cur
/-- The holding of that die. -/
abbrev h0 : HoldRef := ⟨0, 0⟩
/-- The task of `base` with registers changed. -/
def task (rs : List (Nat × Word)) : Task :=
  { fetchTask with g := Vector.ofFn fun i => ((rs.find? fun p => p.1 = i.val).map Prod.snd).getD 0 }
/-- `base` with a task in the slot. -/
def run (t : Task) : State := base.setTask me t
def coreOf (s : State) : Core := s.core me.core
/-- `base` with registers, and with its core changed. -/
def regs (rs : List (Nat × Word)) : State := run (task rs)
def withCore (f : Core → Core) (s : State) : State := s.setCore me.core (f (s.core me.core))

/-- A state is ready for an instruction with register sources. -/
theorem ready {s : State} {srcs : List Reg} {d : Reg} {t : Task} {vs : List Word} {c : Core}
    (h : s.task s.cur = some t ∧ s.deadPort s.cur.core (srcs ++ [d]) = none ∧ readFields t (s.core s.cur.core) srcs = some (vs, c) ∧
      s.roomFor s.cur.core d = true) : Ready s srcs d t vs c := h

/-! ## Ill-formed instructions (03 R55) -/

theorem test_illFormed : Instr.wf (.srd 1 0x0FF) = false ∧ Instr.wf (.swr 1 0x064) = false ∧ Instr.wf (.sxch 1 2 0x008) = false ∧
    Instr.wf (.slliW 1 2 32) = false ∧ Instr.wf (.srliW 1 2 63) = false ∧ Instr.wf (.sraiW 1 2 32) = false ∧ Instr.wf (.fence 0 5) = false ∧
    Instr.wf (.ldAcq 1 2 0 5) = false ∧ Instr.wf (.stRel 1 2 0 7) = false ∧ Instr.wf (.msgD 1 0 8) = false ∧ Instr.wf (.mqRd 1 0 8) = false ∧
    Instr.wf (.plGeo 1 3) = false ∧ Instr.wf (.plStacc 1 3) = false ∧ Instr.wf (.vunpkS16 1 2 2) = false ∧ Instr.wf (.vunpkN16 1 2 2) = false ∧
    Instr.wf (.vunpkS8 1 2 4) = false ∧ Instr.wf (.vunpkN8 1 2 4) = false ∧ Instr.wf (.vext 1 2 8) = false ∧ Instr.wf (.vins 1 2 8) = false ∧
    Instr.wf (.vrot 1 2 8) = false := by decide

/-! ## Witnesses: arithmetic, vectors, control (06, 08) -/

def r34 : State := regs [(3, 5), (4, 7)]

theorem witness_AluValues : ∃ srcs d f t vs c, aluRule (.add 2 3 4 0) = some (srcs, d, f) ∧ Ready r34 srcs d t vs c :=
  ⟨_, _, _, task [(3, 5), (4, 7)], [5, 7], coreOf r34, rfl, ready (by decide)⟩
theorem witness_AluWordValues : ∃ srcs d f t vs c, aluWRule (.divW 2 3 4 0) = some (srcs, d, f) ∧ Ready r34 srcs d t vs c :=
  ⟨_, _, _, task [(3, 5), (4, 7)], [5, 7], coreOf r34, rfl, ready (by decide)⟩
theorem witness_ImmediateValues : (∃ srcs d f t vs c, immRule (.addi 2 3 0xFFFF) = some (srcs, d, f) ∧ Ready r34 srcs d t vs c) ∧
    (∃ t vs c, Ready r34 [] 2 t vs c) ∧ ((10 : BitVec 4) = 8 ∨ (10 : BitVec 4) = 9 ∨ (10 : BitVec 4) = 10) ∧ 32 ≤ (32 : BitVec 6).toNat :=
  ⟨⟨_, _, _, task [(3, 5), (4, 7)], [5], coreOf r34, rfl, ready (by decide)⟩, ⟨task [(3, 5), (4, 7)], [], coreOf r34, ready (by decide)⟩, by decide, by decide⟩
theorem witness_RegisterWrite : r34.task me = some (task [(3, 5), (4, 7)]) ∧ chanOf 2 = none ∧ chanOf 26 = some .furrow ∧
    pushes r34 me.core .furrow ⟨0, 1⟩ .furrow ∧ chanOf 28 = some (.port .east) ∧ pushes r34 me.core (.port .east) ⟨0, 1⟩ (.port .west) :=
  ⟨by decide, by decide, by decide, ⟨rfl, 1, by decide, by decide, by decide, by decide, fun j _ _ => by omega⟩, by decide,
    rfl, h0, 0, ⟨1, 0⟩, by decide, by unfold besides; decide, by decide, by decide, by decide⟩
theorem witness_VectorValues : (∃ d f, laneRule (.vfmaF32 1 2 3 4) = some (d, f)) ∧ (∃ d n f, elemRule (.vpackS8 1 2 3) = some (d, n, f)) ∧
    (∃ d f, readRule (.vext 2 1 7) = some (d, f) ∧ d = 2) ∧ Ready r34 [] 0 (task [(3, 5), (4, 7)]) [] (coreOf r34) ∧
    Ready r34 [] 2 (task [(3, 5), (4, 7)]) [] (coreOf r34) ∧ Ready r34 [3] 0 (task [(3, 5), (4, 7)]) [5] (coreOf r34) :=
  ⟨⟨_, _, rfl⟩, ⟨_, _, _, rfl⟩, ⟨_, _, rfl, rfl⟩, ready (by decide), ready (by decide), ready (by decide)⟩
theorem witness_ControlFlow : (∃ o f, branchRule (.blt 3 4 0xFFFF) = some (3, 4, o, f)) ∧ Ready r34 [3, 4] 0 (task [(3, 5), (4, 7)]) [5, 7] (coreOf r34) ∧
    Ready r34 [] 0 (task [(3, 5), (4, 7)]) [] (coreOf r34) ∧ Ready r34 [] 31 (task [(3, 5), (4, 7)]) [] (coreOf r34) ∧
    Ready r34 [3] 0 (task [(3, 5), (4, 7)]) [5] (coreOf r34) ∧ Ready r34 [3] 2 (task [(3, 5), (4, 7)]) [5] (coreOf r34) :=
  ⟨⟨_, _, rfl⟩, ready (by decide), ready (by decide), ready (by decide), ready (by decide), ready (by decide)⟩
/-- A task that has migrated from core 21 of the second die of its holding. -/
def guest5 : Task := { task [(3, 5)] with home := some ⟨h0, 1, 21, 0⟩ }
theorem witness_SystemReads : Ready r34 [] 2 (task [(3, 5), (4, 7)]) [] (coreOf r34) ∧ (task [(3, 5), (4, 7)]).home = none ∧ sysRegNamed 0x063 = true ∧
    Ready (run guest5) [] 2 guest5 [] (coreOf (run guest5)) ∧ guest5.home.isSome = true :=
  ⟨ready (by decide), rfl, by decide, ready (by decide), rfl⟩
/-- The same task on core 1, which is not the supervisor core. -/
def away : State := { r34 with cur := ⟨⟨0, 1⟩, 0⟩ }.setTask ⟨⟨0, 1⟩, 0⟩ (task [(3, 5)])
theorem witness_SystemWrites : Ready r34 [3] 0 (task [(3, 5), (4, 7)]) [5] (coreOf r34) ∧ Ready r34 [3] 2 (task [(3, 5), (4, 7)]) [5] (coreOf r34) ∧
    r34.isSupervisor me.core = true ∧ away.isSupervisor away.cur.core = false ∧
    Ready away [3] 0 (task [(3, 5)]) [5] (away.core away.cur.core) ∧ Ready away [3] 2 (task [(3, 5)]) [5] (away.core away.cur.core) ∧
    Ready (run guest5) [3] 2 guest5 [5] (coreOf (run guest5)) :=
  ⟨ready (by decide), ready (by decide), by decide, by decide, ready (by decide), ready (by decide), ready (by decide)⟩
/-- Core 0 stands at the north-west corner: its north port faces no core, and its furrow is empty. Its die has the forms that a lean die lacks. -/
theorem witness_PortsAndWaits : scalarFields (.add 2 27 4 0) = some ([27, 4], 2) ∧ leanLacks (.add 2 27 4 0) = false ∧
    (∃ p, r34.deadPort me.core [27, 4, 2] = some p) ∧ scalarFields (.add 2 26 4 0) = some ([26, 4], 2) ∧ r34.deadPort me.core [26, 4, 2] = none ∧
    readFields (task [(3, 5), (4, 7)]) (coreOf r34) [26, 4] = none ∧ r34.task r34.cur = some (task [(3, 5), (4, 7)]) ∧
    scalarFields (.sowAt 27 4 0) = some ([27, 4], 0) ∧ scalarFields (.plMmtBlk 26 4 0) = some ([26, 4], 0) ∧ leanLacks (.plMmtBlk 26 4 0) = true ∧
    lean r34.cur.core.die = false :=
  ⟨rfl, rfl, ⟨_, rfl⟩, rfl, by decide, by decide, by decide, rfl, rfl, rfl, by decide⟩

/-! ## Witnesses: accesses (07, 08, 10, 11) -/

def inPage : List (Nat × Word) := [(3, 0x10100), (4, 7)]
def inPool : List (Nat × Word) := [(3, 0xFFFFFFFFFFE02000), (4, 7)]
def popped0 (rs : List (Nat × Word)) : State := popped (regs rs) (coreOf (regs rs)) (task rs)

theorem witness_LoadsAndStores : (∃ srcs d w x l, accessRule (.ld64 2 3 1) = some (srcs, d, w, x) ∧ (∃ f, loadRule (.ld64 2 3 1) = some f) ∧
      Ready (regs inPage) srcs d (task inPage) [0x10100] (coreOf (regs inPage)) ∧
      located (popped0 inPage) me (task inPage) (x [0x10100]) l ∧ ((popped0 inPage).flushFor me [l]).poisoned l = false) ∧
    (∃ srcs w x l, accessRule (.st8 4 3 0x7FFF) = some (srcs, 0, w, x) ∧ isStore (.st8 4 3 0x7FFF) = true ∧
      Ready (regs inPool) srcs 0 (task inPool) [0xFFFFFFFFFFE02000, 7] (coreOf (regs inPool)) ∧
      located (popped0 inPool) me (task inPool) (x [0xFFFFFFFFFFE02000, 7]) l) :=
  ⟨⟨_, _, _, _, _, rfl, ⟨_, rfl⟩, ready (by decide), ⟨by decide, rfl⟩, by decide⟩,
    ⟨_, _, _, _, rfl, rfl, ready (by decide), ⟨by decide, rfl⟩⟩⟩
theorem witness_Atomics : (∃ srcs d w x l, accessRule (.amCas 2 3 4 0 0) = some (srcs, d, w, x) ∧ (∃ f, atomicRule (.amCas 2 3 4 0 0) = some f) ∧
      Ready (regs inPage) srcs d (task inPage) [0x10100, 7, 0] (coreOf (regs inPage)) ∧
      located (popped0 inPage) me (task inPage) (x [0x10100, 7, 0]) l ∧ ((popped0 inPage).flush me).poisoned l = false) ∧
    ∃ srcs w x m l, accessRule (.amXorPs 3 4 0 0) = some (srcs, 0, w, x) ∧ postedRule (.amXorPs 3 4 0 0) = some m ∧
      Ready (regs inPage) srcs 0 (task inPage) [0x10100, 7] (coreOf (regs inPage)) ∧
      located (popped0 inPage) me (task inPage) (x [0x10100, 7]) l :=
  ⟨⟨_, _, _, _, _, rfl, ⟨_, rfl⟩, ready (by decide), ⟨by decide, rfl⟩, by decide⟩, _, _, _, _, _, rfl, rfl, ready (by decide), ⟨by decide, rfl⟩⟩

/-- Page 0x11000 has no translation. -/
def offPage : List (Nat × Word) := [(3, 0x11000), (4, 7)]
def at_ (a : Word) : List (Nat × Word) := [(3, a)]
/-- A lock of a started drill row on the scratchpad of core 0. -/
def locked (sp : LockSpace) (a : Nat) (s : State) : State :=
  withCore (fun c => { c with drq := [{ kind := .copyPp, started := true, locks := [⟨sp, a, a + 7, true⟩] }] }) s

theorem witness_AccessChecks : (∃ srcs d w x, accessRule (.ld64 2 3 0) = some (srcs, d, w, x) ∧
      (Ready (regs (at_ 0x10101)) srcs d (task (at_ 0x10101)) [0x10101] (coreOf (regs (at_ 0x10101))) ∧ (x [0x10101]).ea.toNat % (x [0x10101]).z ≠ 0) ∧
      (Ready (regs (at_ 0xFFFFFFFFFFE40000)) srcs d (task (at_ 0xFFFFFFFFFFE40000)) [0xFFFFFFFFFFE40000] (coreOf (regs (at_ 0xFFFFFFFFFFE40000))) ∧
        inPoolSpace 0xFFFFFFFFFFE40000 = true ∧ (popped0 (at_ 0xFFFFFFFFFFE40000)).poolRange me.core 0x3FFFC 8 = none) ∧
      (Ready (regs (at_ 0xFF000000000000)) srcs d (task (at_ 0xFF000000000000)) [0xFF000000000000] (coreOf (regs (at_ 0xFF000000000000))) ∧
        canonical 0x100000000000000 = false ∧ inPoolSpace 0x100000000000000 = false) ∧
      (Ready (regs offPage) srcs d (task offPage) [0x11000] (coreOf (regs offPage)) ∧ ∃ q, (popped0 offPage).locate me 0 0x11000 8 (x [0x11000]).need = .wait q)) ∧
    (let s := locked (.pool 0) 0x2000 (regs inPool);
      Ready s [3] 2 (task inPool) [0xFFFFFFFFFFE02000] (coreOf s) ∧
      ∃ k o, (popped s (coreOf s) (task inPool)).poolRange me.core 0x2000 8 = some (k, o) ∧
        (popped s (coreOf s) (task inPool)).lockedAt me.core (.pool k.idx) o 8 = true) ∧
    (let s := locked (.virt 0) 0x10100 (regs inPage);
      Ready s [3] 2 (task inPage) [0x10100] (coreOf s) ∧ (popped s (coreOf s) (task inPage)).lockedAt me.core (.virt 0) 0x10100 8 = true ∧
        (popped s (coreOf s) (task inPage)).locate me 0 0x10100 8 { read := true } = .trap 0x30) ∧
    (let s := { regs inPage with memPoison := [4] };
      Ready s [3] 2 (task inPage) [0x10100] (coreOf s) ∧
      ∃ l, located (popped s (coreOf s) (task inPage)) me (task inPage) ⟨0x10100, 8, { read := true }⟩ l ∧
        ((popped s (coreOf s) (task inPage)).flushFor me [l]).poisoned l = true ∧ (loadRule (.ld64 2 3 0)).isSome = true) ∧
    (let s := { regs inPage with memPoison := [4] };
      ∃ srcs d w x l, accessRule (.amAdd 2 3 4 0 0) = some (srcs, d, w, x) ∧ (atomicRule (.amAdd 2 3 4 0 0)).isSome = true ∧
        Ready s srcs d (task inPage) [0x10100, 7] (coreOf s) ∧ located (popped s (coreOf s) (task inPage)) me (task inPage) (x [0x10100, 7]) l ∧
        ((popped s (coreOf s) (task inPage)).flush me).poisoned l = true) :=
  ⟨⟨_, _, _, _, rfl, ⟨ready (by decide), by decide⟩, ⟨ready (by decide), by decide, by decide⟩, ⟨ready (by decide), by decide, by decide⟩,
      ready (by decide), _, rfl⟩,
    ⟨ready (by decide), _, _, rfl, by decide⟩, ⟨ready (by decide), by decide, by decide⟩,
    ⟨ready (by decide), _, ⟨by decide, rfl⟩, by decide, rfl⟩, _, _, _, _, _, rfl, rfl, ready (by decide), ⟨by decide, rfl⟩, by decide⟩

/-- `ldbit` and `stbit` of 32 bits from bit 31 of a word of the scratchpad. -/
def bits31 : List (Nat × Word) := [(3, 0xFFFFFFFFFFE02000), (4, 0x1F0000001F), (5, 0xFFFFFFFF)]
def placesOf : Got (List Loc) → List Loc
  | .ok ls => ls
  | _ => []
def bitLocs : List Loc := placesOf ((popped0 bits31).locateBits me (bitPlace 0xFFFFFFFFFFE02000 0x1F0000001F))
theorem witness_BitFields : ((popped0 bits31).locateBits me (bitPlace 0xFFFFFFFFFFE02000 0x1F0000001F) = .ok bitLocs ∧
      bitLocs.any ((popped0 bits31).flushFor me bitLocs).poisoned = false) ∧
    Ready (regs bits31) [3, 4] 2 (task bits31) [0xFFFFFFFFFFE02000, 0x1F0000001F] (coreOf (regs bits31)) ∧
    Ready (regs bits31) [3, 4, 5] 0 (task bits31) [0xFFFFFFFFFFE02000, 0x1F0000001F, 0xFFFFFFFF] (coreOf (regs bits31)) ∧
    (0x1F0000001F : Word).getLsbD 37 = false ∧ (0xFFFFFFFFFFE02000 : Word).toNat % 4 = 0 ∧ onePool bitLocs (.pool me.core 0x2000 8) :=
  ⟨⟨by decide +kernel, by decide +kernel⟩, ready (by decide), ready (by decide), by decide, by decide, me.core, 0x2000, .inr ⟨by decide +kernel, rfl⟩⟩
/-- A field whose second word lies in the next window. -/
def twoPools : List Loc := [.pool ⟨0, 0⟩ 0x1FFFC 4, .pool ⟨0, 1⟩ 0 4]
theorem witness_TwoPools : ∀ l, ¬onePool twoPools l := by
  rintro l ⟨c, o, ⟨h, -⟩ | ⟨h, -⟩⟩ <;> simp [twoPools] at h
/-- A slot with the store of a field of 5 bits from bit 3 of a word. -/
def fieldStore : BufferedStore := { hold := h0, home := none, loc := .pool me.core 0x2000 4, bytes := [9, 0, 0, 0], am := some (.bits 3 5) }
theorem witness_FieldPerformed : let s := r34.setSlot me { r34.slot me with stores := [fieldStore] }
    (s.slot me).stores = [] ++ fieldStore :: [] ∧ oldest [] fieldStore ∧ fieldStore.am = some (.bits 3 5) := by
  simp only [oldest]; decide
theorem witness_VectorMemory : Ready (regs inPage) [3] 0 (task inPage) [0x10100] (coreOf (regs inPage)) ∧
    (∃ l, vecPlace (popped0 inPage) me (task inPage) 0x10100 { read := true } = some l ∧
      partsClean ((popped0 inPage).flushFor me [l]) (task inPage) (fourths l)) ∧
    (∃ l, vecPlace (popped0 inPage) me (task inPage) 0x10FE0 { write := true } = some l) ∧
    (∃ ls, lanePlaces (popped0 inPage) me (task inPage) 0x10100 1 { read := true } = some ls ∧
      partsClean ((popped0 inPage).flushFor me ls) (task inPage) ls) ∧
    (∃ ls, lanePlaces (popped0 inPage) me (task inPage) 0x10100 1 { write := true } = some ls) :=
  ⟨ready (by decide), ⟨_, rfl, by unfold partsClean; decide⟩, ⟨_, rfl⟩, ⟨_, rfl, by unfold partsClean; decide⟩, ⟨_, rfl⟩⟩
/-- The slot's task stands at an `ld.v` of the page, whose third doubleword is read ahead. -/
def vload : State := (State.reset.withFetchWord 32 0x5C430000).setTask me (task inPage)
theorem witness_PartsAhead : vload.task me = some (task inPage) ∧ (vload.slot me).halted = false ∧ vload.frozenHold (vload.taskHold me (task inPage)) = false ∧
    vload.takeDue me = none ∧ (task inPage).stepped = none ∧ vload.fetch me (task inPage) = .ok 0x5C430000 ∧ decode 0x5C430000 = .ok (.ldV 2 3 0) ∧
    scalarFields (.ldV 2 3 0) = some ([3], 0) ∧ readFields (task inPage) (vload.core me.core) [3] = some ([0x10100], vload.core me.core) ∧
    ∃ ls l, loadPlaces vload me (task inPage) 0x10100 (.ldV 2 3 0) = some ls ∧ ls[2]? = some l ∧ (vload.flushFor me [l]).poisoned l = false :=
  ⟨by decide, by decide, by decide, by decide, rfl, by decide +kernel, by rfl, rfl, by decide, _, _, rfl, rfl, by decide⟩
/-- The same load with the east port as its base. -/
def vport : State := (State.reset.withFetchWord 32 0x5C5C0000).setTask me (task inPage)
theorem witness_PortBase : vport.task me = some (task inPage) ∧ vport.fetch me (task inPage) = .ok 0x5C5C0000 ∧ decode 0x5C5C0000 = .ok (.ldV 2 28 0) ∧
    scalarFields (.ldV 2 28 0) = some ([28], 0) ∧ (chanOf 28).isSome = true := ⟨by decide, by decide +kernel, by rfl, rfl, rfl⟩
/-- Parts read ahead count for a base in a register, and not for a port. -/
theorem witness_Onward : let t := { task inPage with parts := [(0, some (.pool me.core 0 8, [1]))] }; onward t 3 = t ∧ (onward t 28).parts = [] := ⟨rfl, rfl⟩
theorem witness_Fences : Ready r34 [] 0 (task [(3, 5), (4, 7)]) [] (coreOf r34) := ready (by decide)

/-! ## Witnesses: frames and rings (06, 07) -/

theorem witness_RegisterFrame : registerOnly (.add 2 3 4 0) = some ([3, 4], 2, none) ∧ Ready r34 [3, 4] 2 (task [(3, 5), (4, 7)]) [5, 7] (coreOf r34) ∧
    ∃ s', exec (.add 2 3 4 0) r34 = .next s' := ⟨rfl, ready (by decide), _, rfl⟩
theorem witness_MemoryFrame : storesNothing (.ld64 2 3 0) = true ∧ ∃ s', exec (.ld64 2 3 0) (regs inPage) = .next s' := ⟨rfl, _, rfl⟩
theorem witness_StoreFrame : ∃ srcs d w x l s', accessRule (.st64 4 3 0) = some (srcs, d, w, x) ∧ isStore (.st64 4 3 0) = true ∧
    Ready (regs inPage) srcs d (task inPage) [0x10100, 7] (coreOf (regs inPage)) ∧ located (popped0 inPage) me (task inPage) (x [0x10100, 7]) l ∧
    exec (.st64 4 3 0) (regs inPage) = .next s' :=
  ⟨_, _, _, _, _, _, rfl, rfl, ready (by decide), ⟨by decide, rfl⟩, rfl⟩
theorem witness_AtomicFrame : (∃ srcs w x m l s', accessRule (.amOrPs 3 4 0 0) = some (srcs, 0, w, x) ∧ postedRule (.amOrPs 3 4 0 0) = some m ∧
      Ready (regs inPage) srcs 0 (task inPage) [0x10100, 7] (coreOf (regs inPage)) ∧ located (popped0 inPage) me (task inPage) (x [0x10100, 7]) l ∧
      exec (.amOrPs 3 4 0 0) (regs inPage) = .next s') ∧
    ∃ srcs d w x l s', accessRule (.amOr 2 3 4 0 0) = some (srcs, d, w, x) ∧ (atomicRule (.amOr 2 3 4 0 0)).isSome = true ∧
      Ready (regs inPage) srcs d (task inPage) [0x10100, 7] (coreOf (regs inPage)) ∧ located (popped0 inPage) me (task inPage) (x [0x10100, 7]) l ∧
      ((popped0 inPage).flush me).poisoned l = false ∧ exec (.amOr 2 3 4 0 0) (regs inPage) = .next s' :=
  ⟨⟨_, _, _, _, _, _, rfl, rfl, ready (by decide), ⟨by decide, rfl⟩, rfl⟩, _, _, _, _, _, _, rfl, rfl, ready (by decide), ⟨by decide, rfl⟩, by decide, rfl⟩
theorem witness_Rings : Ready r34 [3, 4] 0 (task [(3, 5), (4, 7)]) [5, 7] (coreOf r34) ∧ Ready r34 [3] 0 (task [(3, 5), (4, 7)]) [5] (coreOf r34) ∧
    Ready r34 [] 2 (task [(3, 5), (4, 7)]) [] (coreOf r34) := ⟨ready (by decide), ready (by decide), ready (by decide)⟩

/-! ## Witnesses: seeds, events, triggers, yokes (05) -/

/-- A seed image of zeros at the start of the scratchpad's last lines, and the operand of `sow.cap`. -/
def sows : List (Nat × Word) := [(3, 0xFFFFFFFFFFE02000), (4, 0xFF00), (5, 0), (6, 0x100)]
/-- The same task, its holding two dies wide. -/
def wide2 (s : State) : State := s.modHold h0 fun x => { x with dies := 2 }
/-- The deque of core 0 is full. -/
def dequeFull (s : State) : State := withCore (fun c => { c with deque := List.replicate 32 {} }) s
def p2 (s : State) : State := flushed s (coreOf s) (task sows)

theorem witness_SowingSeeds : imageReady (p2 (regs sows)) 0xFFFFFFFFFFE02000 ∧
    legalSeed (sownSeed (p2 (regs sows)) (task sows) 0xFFFFFFFFFFE02000 0 255) 1 ∧
    Ready (regs sows) [3] 0 (task sows) [0xFFFFFFFFFFE02000] (coreOf (regs sows)) ∧
    Ready (regs sows) [3, 4] 0 (task sows) [0xFFFFFFFFFFE02000, 0xFF00] (coreOf (regs sows)) ∧
    (p2 (regs sows)).steer h0 me.core.die 0 (sownSeed (p2 (regs sows)) (task sows) 0xFFFFFFFFFFE02000 0 255) = none ∧ (p2 (regs sows)).dequeRoom me.core = true ∧
    (let s := dequeFull (regs sows);
      (p2 s).dequeRoom me.core = false ∧ (∃ j, ((p2 s).core me.core).freeSlot = some j) ∧ State.open (p2 s) h0 me.core = true ∧
      Ready s [3] 0 (task sows) [0xFFFFFFFFFFE02000] (coreOf s)) ∧
    (let s := wide2 (regs sows);
      Ready s [3, 6] 0 (task sows) [0xFFFFFFFFFFE02000, 0x100] (coreOf s) ∧
      ∃ d, (p2 s).steer h0 me.core.die 0 (sownSeed (p2 s) (task sows) 0xFFFFFFFFFFE02000 0 1) = some d ∧ (p2 s).readyRoom d = true) ∧
    (Ready (regs sows) [3, 5] 0 (task sows) [0xFFFFFFFFFFE02000, 0] (coreOf (regs sows)) ∧ (p2 (regs sows)).inGrid h0 0 0 = true ∧
      (p2 (regs sows)).retired ((p2 (regs sows)).coreAt h0 0 0) = false ∧ State.open (p2 (regs sows)) h0 ((p2 (regs sows)).coreAt h0 0 0) = true ∧
      ((List.finRange 4).find? (((p2 (regs sows)).core ((p2 (regs sows)).coreAt h0 0 0)).slotFreeUnder (coreOf (regs sows)).part)).isSome = true) := by
  refine ⟨⟨by decide, by decide⟩, by unfold legalSeed; decide, ready (by decide), ready (by decide), by decide, by decide,
    ⟨by decide, ⟨_, rfl⟩, by decide, ready (by decide)⟩, ⟨ready (by decide), _, rfl, by decide⟩, ready (by decide), by decide, by decide, by decide, by decide⟩
/-- Core 1, the target of the `sow.at`, has another partition word; it is calm, or has a task. -/
def otherPart (s : State) : State := s.setCore ⟨0, 1⟩ { s.core ⟨0, 1⟩ with part := 0x1 }
def busy1 (s : State) : State := s.setTask ⟨⟨0, 1⟩, 0⟩ (task [])
def ats : List (Nat × Word) := [(3, 0xFFFFFFFFFFE02000), (5, 1)]
def pAt (s : State) : State := flushed s (coreOf s) (task ats)
theorem witness_SowAt : (∀ s ∈ [otherPart (regs ats), busy1 (otherPart (regs ats))],
      (s.task me = some (task ats) ∧ s.deadPort me.core [3, 5, 0] = none ∧ readFields (task ats) (coreOf s) [3, 5] = some ([0xFFFFFFFFFFE02000, 1], coreOf s)) ∧
      ((pAt s).inGrid h0 1 0 = true ∧ (pAt s).coreAt h0 1 0 = ⟨0, 1⟩ ∧ (pAt s).retired ⟨0, 1⟩ = false ∧ State.open (pAt s) h0 ⟨0, 1⟩ = true) ∧
      ((pAt s).core ⟨0, 1⟩).regs.dbg.getLsbD 3 = false ∧ ((pAt s).core ⟨0, 1⟩).part ≠ (sownSeed (pAt s) (task ats) 0xFFFFFFFFFFE02000 0 255).part ∧
      ((List.finRange 4).find? (((pAt s).core ⟨0, 1⟩).slotFreeUnder (sownSeed (pAt s) (task ats) 0xFFFFFFFFFFE02000 0 255).part)).isSome = true ∧
      (pAt s).dequeRoom ⟨0, 1⟩ = true) ∧
    Claims.calm ((pAt (otherPart (regs ats))).core ⟨0, 1⟩) ∧ ¬Claims.calm ((pAt (busy1 (otherPart (regs ats)))).core ⟨0, 1⟩) := by
  refine ⟨by decide, ⟨by decide, by decide, by decide, by decide, by decide⟩, fun h => absurd (h.1 0).1 (by decide)⟩
/-- `dbg` of core 0 holds seeds, with room in its deque and without. -/
def holding (s : State) : State := withCore (fun c => { c with regs := { c.regs with dbg := 8 } }) s
theorem witness_HeldSowAt : (let s := holding (regs sows);
      Ready s [3, 5] 0 (task sows) [0xFFFFFFFFFFE02000, 0] (coreOf s) ∧ imageReady (p2 s) 0xFFFFFFFFFFE02000 ∧ (p2 s).inGrid h0 0 0 = true ∧
      legalSeed (sownSeed (p2 s) (task sows) 0xFFFFFFFFFFE02000 0 255) 1 ∧ (p2 s).coreAt h0 0 0 = me.core ∧ (p2 s).retired me.core = false ∧
      ((p2 s).core me.core).regs.dbg.getLsbD 3 = true ∧ (p2 s).dequeRoom me.core = true) ∧
    (let s := dequeFull (holding (regs sows));
      Ready s [3, 5] 0 (task sows) [0xFFFFFFFFFFE02000, 0] (coreOf s) ∧ ((p2 s).core me.core).regs.dbg.getLsbD 3 = true ∧ (p2 s).dequeRoom me.core = false) :=
  ⟨⟨ready (by decide), ⟨by decide, by decide⟩, by decide, by unfold legalSeed; decide, by decide, by decide, by decide, by decide⟩,
    ready (by decide), by decide, by decide⟩
def badSow : List (Nat × Word) := [(3, 0xFFFFFFFFFFE00000), (4, 0x10000)]
theorem witness_SowChecks : ownScratch (coreOf (regs badSow)).part 0xFFFFFFFFFFE00000 48 8 = false ∧
    Ready (regs badSow) [3] 0 (task badSow) [0xFFFFFFFFFFE00000] (coreOf (regs badSow)) ∧
    Ready (regs badSow) [3, 4] 0 (task badSow) [0xFFFFFFFFFFE00000, 0x10000] (coreOf (regs badSow)) ∧
    (let s := withCore (fun c => { c with pool := c.pool.write 0x2000 [2] }) (regs sows);
      imageReady (p2 s) 0xFFFFFFFFFFE02000 ∧ ¬legalSeed (sownSeed (p2 s) (task sows) 0xFFFFFFFFFFE02000 0 255) 1 ∧
      Ready s [3] 0 (task sows) [0xFFFFFFFFFFE02000] (coreOf s) ∧ Ready s [3, 5] 0 (task sows) [0xFFFFFFFFFFE02000, 0] (coreOf s) ∧
      (0 : Word).toNat % 2 ^ 16 < 20 * 1 ∧ (0 : Word).toNat / 2 ^ 16 < 24 ∧
      Ready s [3, 4] 0 (task sows) [0xFFFFFFFFFFE02000, 0xFF00] (coreOf s) ∧ (0xFF00 : Word).toNat / 256 = 255) :=
  ⟨by decide, ready (by decide), ready (by decide), ⟨by decide, by decide⟩, by unfold legalSeed; decide, ready (by decide), ready (by decide), by decide, by decide,
    ready (by decide), by decide⟩
theorem witness_Ending : Ready r34 [0] 0 (task [(3, 5), (4, 7)]) [0] (coreOf r34) ∧ (task [(3, 5), (4, 7)]).home = none ∧
    Ready r34 [3] 0 (task [(3, 5), (4, 7)]) [5] (coreOf r34) ∧
    (let s := regs [(3, 0x100000000000000)]; Ready s [3] 0 (task [(3, 0x100000000000000)]) [0x100000000000000] (coreOf s)) :=
  ⟨ready (by decide), rfl, ready (by decide), ready (by decide)⟩
theorem witness_Events : Ready r34 [] 0 (task [(3, 5), (4, 7)]) [] (coreOf r34) ∧ Ready r34 [3] 0 (task [(3, 5), (4, 7)]) [5] (coreOf r34) ∧
    (popped r34 (coreOf r34) (task [(3, 5), (4, 7)])).inGrid h0 5 0 = true ∧ (popped r34 (coreOf r34) (task [(3, 5), (4, 7)])).inGrid h0 20 0 = false ∧
    (let s := regs [(3, 20)]; Ready s [3] 0 (task [(3, 20)]) [20] (coreOf s)) :=
  ⟨ready (by decide), ready (by decide), by decide, by decide, ready (by decide)⟩
/-- Handler 0x10000 and the arm word of entry 7 with count 2 and priority 1. -/
def arms (b : Word) : List (Nat × Word) := [(3, 0x10000), (4, b), (5, 7), (6, 1)]
def entry7 (x : Trigger) (s : State) : State := withCore (fun c => c.setTrigger 7 x) s
theorem witness_Triggers : Ready (regs (arms 0x1000207)) [3, 4] 0 (task (arms 0x1000207)) [0x10000, 0x1000207] (coreOf (regs (arms 0x1000207))) ∧
    ((coreOf (regs (arms 0x1000207))).trigger 7).state = .idle ∧
    Ready (regs (arms 7)) [3, 4] 0 (task (arms 7)) [0x10000, 7] (coreOf (regs (arms 7))) ∧
    Ready (regs (arms 0x8000000)) [3, 4] 0 (task (arms 0x8000000)) [0x10000, 0x8000000] (coreOf (regs (arms 0x8000000))) ∧
    (let s := entry7 { state := .running } (regs (arms 0x207));
      Ready s [3, 4] 0 (task (arms 0x207)) [0x10000, 0x207] (coreOf s) ∧ ((coreOf s).trigger 7).state = .running) ∧
    (let s := entry7 { state := .armed, count := 2 } (regs (arms 0));
      Ready s [5, 6] 0 (task (arms 0)) [7, 1] (coreOf s) ∧ ((coreOf s).trigger 7).state = .armed ∧ ((coreOf s).trigger 7).ret = false ∧
      Ready s [5] 2 (task (arms 0)) [7] (coreOf s) ∧ Ready s [5] 0 (task (arms 0)) [7] (coreOf s)) :=
  ⟨ready (by decide), by decide, ready (by decide), ready (by decide), ⟨ready (by decide), by decide⟩, ready (by decide), by decide, by decide,
    ready (by decide), ready (by decide)⟩
/-- Messages of the task class that hold every place for that class. -/
def crowd : List Msg := List.replicate 8 { place := .reserved } ++ List.replicate 32 { place := .shared }
/-- An arm of count 2 that applies two pending messages, of which the second fires, and decrements that find a place and none. -/
theorem witness_Pending : (let s := entry7 { pend := [{ dec := 1 }, { dec := 1 }, {}] } (regs (arms 0x1000207));
      Ready s [3, 4] 0 (task (arms 0x1000207)) [0x10000, 0x1000207] (coreOf s) ∧ ((coreOf s).trigger 7).pend = [{ dec := 1 }, { dec := 1 }, {}] ∧
      (drained { state := .armed, count := 2 } ((coreOf s).trigger 7).pend).pend = [{}]) ∧
    (let s := entry7 { state := .idle } (regs (arms 0)); Ready s [5, 6] 0 (task (arms 0)) [7, 1] (coreOf s) ∧ ((coreOf s).trigger 7).state ≠ .armed ∧
      placeFor (coreOf s) 2 = some .reserved) ∧
    (let s := entry7 { pend := crowd } (regs (arms 0)); Ready s [5, 6] 0 (task (arms 0)) [7, 1] (coreOf s) ∧ placeFor (coreOf s) 2 = none) :=
  ⟨⟨ready (by decide), by decide, by decide⟩, ⟨ready (by decide), by decide, by decide⟩, ready (by decide), by decide⟩

/-- The partner of core 0 in a group of 2, with and without a task that waits in `yoke`. -/
abbrev mate : SlotRef := ⟨⟨0, 1⟩, 0⟩
def two : List (Nat × Word) := [(3, 2)]
def yokes : State := (regs two).setTask mate { task two with yokeN := some (2, 3), waiting := true }
theorem waits_mate : waitsForYoke yokes 2 mate := ⟨_, _, _, _, rfl, rfl, rfl, rfl⟩
theorem alone : (regs two).task mate = none ∧ (regs two).task ⟨⟨0, 1⟩, 1⟩ = none ∧ (regs two).task ⟨⟨0, 1⟩, 2⟩ = none ∧
    (regs two).task ⟨⟨0, 1⟩, 3⟩ = none ∧ yokes.task ⟨⟨0, 1⟩, 1⟩ = none ∧ yokes.task ⟨⟨0, 1⟩, 2⟩ = none ∧ yokes.task ⟨⟨0, 1⟩, 3⟩ = none ∧
    yokes.task ⟨⟨0, 0⟩, 1⟩ = none ∧ yokes.task ⟨⟨0, 0⟩, 2⟩ = none ∧ yokes.task ⟨⟨0, 0⟩, 3⟩ = none := by decide
theorem witness_Yokes : Ready (regs two) [3] 0 (task two) [2] (coreOf (regs two)) ∧ (task two).yokeN = none ∧
    (regs two).yokeRefused me (task two) 2 = false ∧ (regs two).yokeClash me 2 = [] ∧ clusterCore (clusterOf me.core.idx) 1 = 1 ∧
    Ready yokes [3] 0 (task two) [2] (coreOf yokes) ∧ yokes.yokeRefused me (task two) 2 = false ∧ yokes.yokeClash me 2 = [] ∧
    ([me, mate].map (·.core)) = (List.range 2).map (fun i => (⟨0, clusterCore (clusterOf me.core.idx) i⟩ : CoreRef)) ∧
    Ready r34 [] 0 (task [(3, 5), (4, 7)]) [] (coreOf r34) ∧ r34.yokeOf me = none ∧
    (let s := r34.setCluster 0 0 { yokes := [⟨2, 0, [(0, 0), (1, 0)], []⟩] };
      Ready s [] 0 (task [(3, 5), (4, 7)]) [] (coreOf s) ∧ s.yokeOf me = some ⟨2, 0, [(0, 0), (1, 0)], []⟩) :=
  ⟨ready (by decide), rfl, by decide, by decide, by decide, ready (by decide), by decide, by decide, by decide, ready (by decide), by decide,
    ready (by decide), by decide⟩

/-! ## Witnesses: messages, traps, the supervisor (12, 13) -/

/-- A header of one doubleword for entry 0 of core 0 (3), the same with a route that the task lacks (4), and with a bit above 51 (5). -/
def heads : List (Nat × Word) := [(3, 0x40000000000), (4, 0x8040000000000), (5, 0x10040000000000)]
def p3 : State := popped (regs heads) (coreOf (regs heads)) (task heads)
def openDraft : Draft := { header := 0x40000000000, payload := [0], closed := false, inner := false }
def drafts (n : Nat) (d : Draft) : Task := { task heads with buf := List.replicate n d }
def filled : Task := drafts 8 { openDraft with closed := true }
theorem witness_MessageHeaders : Ready (regs heads) [3] 0 (task heads) [0x40000000000] (coreOf (regs heads)) ∧
    Ready (regs heads) [3, 4] 0 (task heads) [0x40000000000, 0x8040000000000] (coreOf (regs heads)) ∧
    Ready (regs heads) [4] 0 (task heads) [0x8040000000000] (coreOf (regs heads)) ∧ Ready (regs heads) [5] 0 (task heads) [0x10040000000000] (coreOf (regs heads)) ∧
    ¬headerRefused p3 h0 0x40000000000 true ∧ ¬headerRefused p3 h0 0x8040000000000 false ∧ headerRefused p3 h0 0x10040000000000 false ∧
    routeInfo p3 (task heads) 0x40000000000 = none ∧ (routeInfo p3 (task heads) 0x8040000000000).isSome = true ∧
    (∃ d ∈ (drafts 1 openDraft).buf, d.closed = false) ∧ Ready (run (drafts 1 openDraft)) [3] 0 (drafts 1 openDraft) [0x40000000000] (coreOf (run (drafts 1 openDraft))) ∧
    8 ≤ filled.buf.length ∧ (∀ d ∈ filled.buf, d.closed = true) ∧ Ready (run filled) [3] 0 filled [0x40000000000] (coreOf (run filled)) := by
  refine ⟨ready (by decide), ready (by decide), ready (by decide), ready (by decide), ?_, ?_, ?_, by decide, by decide, by decide, ready (by decide),
    by decide, by decide, ready (by decide)⟩ <;> (unfold headerRefused; decide)
/-- A task with an open message, and one with a current message of entry 255 or of entry 7. -/
def current (e : BitVec 8) : Task := { task heads with kind := .triggered e, msg := some { payload := [5] } }
theorem witness_Messages : Ready (regs heads) [3] 0 (task heads) [0x40000000000] (coreOf (regs heads)) ∧ (∀ x ∈ (task heads).buf, x.closed = true) ∧
    (let s := run (drafts 1 openDraft);
      Ready s [3] 0 (drafts 1 openDraft) [0x40000000000] (coreOf s) ∧ Ready s [] 0 (drafts 1 openDraft) [] (coreOf s) ∧
      (drafts 1 openDraft).buf = [] ++ openDraft :: [] ∧ openDraft.closed = false) ∧
    Ready (regs heads) [] 0 (task heads) [] (coreOf (regs heads)) ∧ (task heads).msg = none ∧ Ready (regs heads) [] 2 (task heads) [] (coreOf (regs heads)) ∧
    (let s := (run (current 255)).modHold h0 fun x => { x with faultQ := [Vector.replicate 8 0] };
      Ready s [] 0 (current 255) [] (coreOf s) ∧ (popped s (coreOf s) (current 255)).supervisor h0 = some me.core) ∧
    (let s := entry7 { state := .running, pend := [{}] } (run (current 7));
      Ready s [] 0 (current 7) [] (coreOf s) ∧ ((coreOf s).trigger 7).pend = [{}]) ∧
    (let s := run (current 7); Ready s [] 0 (current 7) [] (coreOf s) ∧ ((coreOf s).trigger 7).pend = []) :=
  ⟨ready (by decide), by decide, ⟨ready (by decide), ready (by decide), rfl, rfl⟩, ready (by decide), rfl, ready (by decide),
    ⟨ready (by decide), by decide⟩, ⟨ready (by decide), by decide⟩, ready (by decide), by decide⟩
theorem witness_SoftwareTraps : Ready r34 [] 0 (task [(3, 5), (4, 7)]) [] (coreOf r34) ∧ r34.task me = some (task [(3, 5), (4, 7)]) ∧
    r34.fetch me (task [(3, 5), (4, 7)]) = .ok 0 ∧ decode 0 = .error .illegal := ⟨ready (by decide), by decide, by decide +kernel, by rfl⟩
theorem witness_TrapEntry : r34.task r34.cur = some (task [(3, 5), (4, 7)]) ∧ (task [(3, 5), (4, 7)]).home = none ∧ (task [(3, 5), (4, 7)]).caller = none ∧
    r34.retired r34.cur.core = false ∧ (∀ c ∈ [(0x50 : BitVec 8), 0x53, 0x40, 0x46, 0x4B, 0x57], (0x11 : BitVec 8) ≠ c) ∧
    (r34.hold h0).faultQ.length < 64 ∧ (r34.hold h0).faultDropped = 0 ∧ (task [(3, 5), (4, 7)]).kind = .seeded {} ∧
    (run (current 7)).task me = some (current 7) ∧ (current 7).kind = .triggered 7 := by decide
theorem witness_HaltsAndMigration : r34.retired me.core = false ∧ (r34.core me.core).trig = [] ∧ ((coreOf (run (current 7))).trigger 7).away = none ∧ r34.task r34.cur = some (task [(3, 5), (4, 7)]) ∧ (task [(3, 5), (4, 7)]).home = none ∧
    (task [(3, 5), (4, 7)]).caller = none ∧ (run (current 7)).task me = some (current 7) ∧ (current 7).home = none ∧ (current 7).caller = none := by decide
/-- Slot 1 of core 0 is parked, empty or with a halted task; `resume` names it, or slot 2, or discards. -/
def resumes : List (Nat × Word) := [(3, 0x100000000), (4, 0x500000000), (5, 0x200000000), (6, 0x800000000)]
def slot1 : SlotRef := ⟨me.core, 1⟩
def parked1 (x : Slot) : State := (regs resumes).setSlot slot1 { x with parked := true }
theorem witness_SupervisorInstructions : Ready (regs resumes) [3, 4] 0 (task resumes) [0x100000000, 0x500000000] (coreOf (regs resumes)) ∧
    (task resumes).home = none ∧ ((regs resumes).hold h0).faultQ.length < 64 ∧
    Ready (regs resumes) [6] 0 (task resumes) [0x800000000] (coreOf (regs resumes)) ∧ (0x800000000 : Word).toNat / 2 ^ 35 ≠ 0 ∧
    Ready (regs resumes) [5] 0 (task resumes) [0x200000000] (coreOf (regs resumes)) ∧ (regs resumes).isSupervisor me.core = true ∧
    ((regs resumes).slot ⟨me.core, 2⟩).parked = false ∧ (regs resumes).haltedGuest ⟨h0, 0, 0, 2⟩ = none ∧ (regs resumes).inGrid h0 0 0 = true ∧
    away.supervisor (away.holdOf away.cur.core) ≠ some away.cur.core ∧ Ready away [3] 0 (task [(3, 5)]) [5] (away.core away.cur.core) ∧
    (let s := parked1 { halted := true, task := some (task []) };
      Ready s [3] 0 (task resumes) [0x100000000] (coreOf s) ∧ (s.slot slot1).parked = true ∧ (s.slot slot1).halted = true ∧ s.task slot1 = some (task [])) ∧
    (let s := parked1 {}; Ready s [4] 0 (task resumes) [0x500000000] (coreOf s) ∧ (s.slot slot1).parked = true ∧ s.task slot1 = none) :=
  ⟨ready (by decide), rfl, by decide, ready (by decide), by decide, ready (by decide), by decide, by decide, by decide, by decide, by decide, ready (by decide),
    ⟨ready (by decide), by decide, by decide, by decide⟩, ready (by decide), by decide, by decide⟩

/-! ## Witnesses: time and barriers (14, 15, 16) -/

def five : List (Nat × Word) := [(3, 5), (4, 7)]
theorem witness_TimeAndDeferral : Ready r34 [] 2 (task five) [] (coreOf r34) ∧ Ready r34 [3] 2 (task five) [5] (coreOf r34) ∧
    Ready r34 [] 0 (task five) [] (coreOf r34) ∧ r34.draining h0 = false ∧ (r34.estate 0).deferEn.getLsbD 0 = true ∧ (task five).home = none ∧
    ((r34.setEstate 0 { r34.estate 0 with deferEn := 0xFE }).estate 0).deferEn.getLsbD 0 = false ∧
    (let s := r34.setEstate 0 { r34.estate 0 with deferEn := 0xFE }; Ready s [] 0 (task five) [] (coreOf s)) ∧
    (∃ s : State, Ready s [3] 2 (task [(3, 4)]) [4] (coreOf s)) ∧ (∃ s : State, Ready s [3] 2 (task [(3, 3)]) [3] (coreOf s)) :=
  ⟨ready (by decide), ready (by decide), ready (by decide), by decide, by decide, rfl, by decide, ready (by decide), ⟨regs [(3, 4)], ready (by decide)⟩,
    ⟨regs [(3, 3)], ready (by decide)⟩⟩
/-- Cores 0 and 1, or core 0 alone, take part in barrier 3; an operand of `bar.mask` that excuses core 1, and one beyond the grid. -/
def bars : List (Nat × Word) := [(3, 0x1000000000001), (4, 20)]
def one3 : State := withCore (fun c => { c with excused := 0xFFF7 }) (regs bars)
def two3 : State := one3.setCore mate.core { one3.core mate.core with excused := 0xFFF7 }
def arr3 (s : State) : State := withCore (fun c => { c with arrived := 8 }) s
def pb (s : State) : State := popped s (coreOf s) (task bars)
theorem witness_Barriers : Ready one3 [] 0 (task bars) [] (coreOf one3) ∧ (task bars).cw.toNat / 2 ^ 30 % 4 = 2 ∧ (task bars).home = none ∧
    (coreOf one3).excused.getLsbD 3 = false ∧ (coreOf one3).arrived.getLsbD 3 = false ∧
    (arr3 (pb one3)).members16 h0 3 ≠ [] ∧ (∀ m ∈ (arr3 (pb one3)).members16 h0 3, ((arr3 (pb one3)).core m.2).arrived.getLsbD 3 = true) ∧
    Ready two3 [] 0 (task bars) [] (coreOf two3) ∧ (∃ m ∈ (arr3 (pb two3)).members16 h0 3, ((arr3 (pb two3)).core m.2).arrived.getLsbD 3 = false) ∧
    Ready (arr3 one3) [] 0 (task bars) [] (coreOf (arr3 one3)) ∧ (coreOf (arr3 one3)).arrived.getLsbD 3 = true ∧
    Ready (regs bars) [] 0 (task bars) [] (coreOf (regs bars)) ∧ (coreOf (regs bars)).excused.getLsbD 3 = true ∧
    Ready two3 [3] 0 (task bars) [0x1000000000001] (coreOf two3) ∧ Ready (arr3 two3) [3] 0 (task bars) [0x1000000000001] (coreOf (arr3 two3)) ∧ Ready two3 [4] 0 (task bars) [20] (coreOf two3) ∧
    20 * ((pb two3).hold h0).dies ≤ (20 : Word).toNat % 2 ^ 16 + (20 : Word).toNat / 2 ^ 32 % 2 ^ 10 ∧ Ready two3 [] 2 (task bars) [] (coreOf two3) :=
  ⟨ready (by decide), by decide, rfl, by decide, by decide, by decide +kernel, by decide +kernel, ready (by decide), by decide +kernel, ready (by decide), by decide,
    ready (by decide), by decide, ready (by decide), ready (by decide), ready (by decide), by decide, ready (by decide)⟩
/-- A `bar.wait` whose arrival was taken away, and made again, while it waited. -/
theorem witness_BarrierMet : (let t := { task bars with met := true, on := some (.barrier 3) }; let s := arr3 (run t)
    Ready s [] 0 t [] (coreOf s) ∧ (coreOf s).arrived.getLsbD 3 = true ∧ t.met = true ∧ t.on = some (.barrier 3)) :=
  ⟨ready (by decide), by decide⟩

/-! ## Witnesses: stores, waits and the network (07, 11, 13, 14) -/

/-- A slot that holds one store of two bytes, to memory or to its pool. -/
def holds1 (b : BufferedStore) : State := r34.setSlot me { r34.slot me with stores := [b] }
def memStore : BufferedStore := { hold := h0, home := none, loc := .mem [0, 1] 0 0x10000, bytes := [1, 2] }
def poolStore : BufferedStore := { hold := h0, home := none, loc := .pool me.core 0x2000 2, bytes := [1, 2] }
/-- A second store of the same instruction, one of a later one, and a posted atomic. -/
def nextLane : BufferedStore := { memStore with loc := .mem [2, 3] 0 0x10002, mate := true }
def later : BufferedStore := { nextLane with mate := false }
def postedOr : BufferedStore := { memStore with am := some .or }
theorem witness_StoresPerformed : ((holds1 memStore).slot me).stores = [] ++ memStore :: [] ∧ oldest [] memStore ∧ memStore.am = none ∧
    memStore.loc = .mem [0, 1] 0 0x10000 ∧ [0, 1].Nodup ∧ Memory.wf (holds1 memStore).mem = true ∧
    ((holds1 poolStore).slot me).stores = [] ++ poolStore :: [] ∧ oldest [] poolStore ∧ poolStore.loc = .pool me.core 0x2000 poolStore.bytes.length ∧
    Memory.wf ((holds1 poolStore).core me.core).pool.bytes = true ∧ oldest [memStore] nextLane ∧ ¬oldest [memStore] later ∧
    ((holds1 postedOr).slot me).stores = [] ++ postedOr :: [] ∧ oldest [] postedOr ∧ postedOr.am = some .or ∧
    (holds1 postedOr).poisoned postedOr.loc = false ∧ ({ holds1 postedOr with memPoison := [0] } : State).poisoned postedOr.loc = true := by
  simp only [oldest]; decide
/-- A task that waits at handle 2, for filled slots or for room, or at none. -/
def waitsAt (o : Option WaitOn) (m : Bool) : Task := { task [(3, 1)] with on := o, met := m }
theorem witness_RingWaits : (let s := run (waitsAt (some (.need 2 1)) true); Ready s [3] 0 (waitsAt (some (.need 2 1)) true) [1] (coreOf s)) ∧
    (let s := run (waitsAt (some (.room 2 1)) true); Ready s [3] 0 (waitsAt (some (.room 2 1)) true) [1] (coreOf s)) ∧
    (run (waitsAt (some (.need 2 1)) false)).task me = some (waitsAt (some (.need 2 1)) false) ∧
    (run (waitsAt (some (.room 2 1)) false)).task me = some (waitsAt (some (.room 2 1)) false) ∧ (run (waitsAt none false)).task me = some (waitsAt none false) :=
  ⟨ready (by decide), ready (by decide), by decide⟩
/-- A task with one closed message, and the same where the routers from its core are full. -/
def closed1 : Task := drafts 1 { openDraft with closed := true }
def stuffed : State := (run closed1).modHold h0 fun x =>
  { x with net := List.replicate (Config.routerShared 0 0 0 + 1) ⟨⟨0, 0⟩, { header := 0x40000000000 }, false⟩ }
theorem stuffed_full (s : State) (h : (s.hold h0).net = List.replicate (Config.routerShared 0 0 0 + 1) ⟨⟨0, 0⟩, { header := 0x40000000000 }, false⟩) :
    s.netRoom h0 ⟨0, 0⟩ 0 = false := by
  have hn : (List.replicate (Config.routerShared 0 0 0 + 1) (⟨⟨0, 0⟩, { header := 0x40000000000 }, false⟩ : Packet)).filter
      (fun p => p.src = ⟨0, 0⟩ && p.msg.netClass == 0) = List.replicate (Config.routerShared 0 0 0 + 1) ⟨⟨0, 0⟩, { header := 0x40000000000 }, false⟩ :=
    List.filter_eq_self.mpr fun p hp => by rw [List.eq_of_mem_replicate hp]; simp only [decide_true, Bool.true_and]; decide
  simp only [State.netRoom, h, hn, List.length_replicate]
  simp
/-- A release, and a task with a closed message whose slot holds a store, a release and a later store. -/
def released : BufferedStore := { memStore with bytes := [3, 4], release := true }
def releases (t : Task) : State := (run t).setSlot me { (run t).slot me with stores := [memStore, released, later] }
theorem witness_EndingMessages : (let s := run closed1; let p := popped s (coreOf s) closed1;
      Ready s [0] 0 closed1 [0] (coreOf s) ∧ p.netRoom h0 (p.sender h0 me) 0 = true ∧ closed1.caller = none) ∧
    (let p := popped stuffed (coreOf stuffed) closed1;
      Ready stuffed [0] 0 closed1 [0] (coreOf stuffed) ∧ closed1.home = none ∧ p.netRoom h0 (p.sender h0 me) 0 = false) ∧
    ((closed1.buf.filter (·.closed)).map Draft.toMsg).map (·.netClass) = [0] ∧
    ((coreOf (run (current 7))).trigger 7).ret = false ∧ (current 7).kind = .triggered 7 ∧
    Ready (releases closed1) [0] 0 closed1 [0] (coreOf (releases closed1)) ∧ ((releases closed1).slot me).stores = [memStore] ++ fromRelease [memStore, released, later] ∧
    fromRelease [memStore, later] = [memStore, later] :=
  ⟨⟨ready (by decide), by decide, rfl⟩, ⟨ready ⟨rfl, rfl, rfl, rfl⟩, rfl, stuffed_full _ rfl⟩, by decide, by decide, rfl, ready (by decide), by decide, by decide⟩
/-- 11 R252, 05 R108: what a release orders is seen before the message of its task leaves, and without a message nothing is performed. -/
theorem test_end_release : (match exec (.endTask 0 0) (releases closed1) with
      | .next u => (Memory.get u.mem 0, (u.slot me).stores, (u.hold h0).net.length) | _ => (0, [], 0)) = (1, [released, later], 1) ∧
    (match exec (.endTask 0 0) (releases (task [])) with
      | .next u => (Memory.get u.mem 0, (u.slot me).stores.length) | _ => (9, 0)) = (0, 3) := by decide +kernel
/-- A slot that has yielded to slot 1, whose task stands at an `addi`. -/
def yielded : State :=
  let s := State.reset.withFetchWord 32 0x10420001
  (s.setSlot me { s.slot me with after := [1] }).setSlot ⟨me.core, 1⟩ { task := some (task []) }
theorem witness_EventsTurn : 1 ∈ (yielded.slot yielded.cur).after ∧ yielded.task yielded.cur = some fetchTask ∧ yielded.sched = [] ∧
    yielded.yokeOf yielded.cur = none ∧ yielded.takeDue yielded.cur = none ∧ hasReady yielded ⟨yielded.cur.core, 1⟩ ∧
    yielded.yokeOf ⟨yielded.cur.core, 1⟩ = none := by
  refine ⟨by decide, by decide, by decide, by decide, by decide, ⟨task [], 0x10420001, .addi 2 2 1, _, by decide, by decide, by decide, by decide +kernel, by rfl, rfl, ?_⟩,
    by decide⟩
  decide +kernel
/-- Time passes on a panel whose clocks run: 1,000 ns, or none while a region counts 10,000. -/
def passing (locals : FMap Nat) : State := { base with bootStage := 7, sched := [.elapse 1 1000 locals] }
theorem witness_TimePasses : (passing []).sched = [.elapse 1 1000 []] ∧ (passing []).canElapse 1000 [] = true ∧
    (passing [(1, 10000)]).sched = [.elapse 1 1000 [(1, 10000)]] ∧ (passing [(1, 10000)]).canElapse 1000 [(1, 10000)] = false := by decide +kernel

/-! ## Witnesses: Gaussian mailboxes and sequences (17, 18) -/

/-- Core 0 with four mailbox records and two accumulator units; its records lie at 0xFFFFFFFFFFE02000 on. -/
def boxes (rs : List (Nat × Word)) : State := withCore (fun c => { c with part := 0x40203 }) (regs rs)
/-- Bytes of the pool. -/
def bytesAt (a : Nat) (bs : List Byte) (s : State) : State := withCore (fun c => { c with pool := c.pool.write a bs }) s
/-- A live record of one dimension: η 0 and Λ 1.0. -/
def unitRec : List Byte := toBytes 8 0x400000000 ++ List.replicate 16 0 ++ toBytes 4 0x3F800000 ++ List.replicate 36 0
def recs : List (Nat × Word) := [(3, 0xFFFFFFFFFFE02000), (4, 0xFFFFFFFFFFE02040), (5, 1), (6, 4), (7, 0xFFFFFFFFFFE020C0)]
def dead : State := bytesAt 0x2000 unitRec (boxes recs)
def alive : State := bytesAt 0x2040 unitRec dead
/-- The second record has two dimensions; the first is ill-formed. -/
def plane : State := bytesAt 0x2040 [0, 0, 0, 0, 5] dead
def illRec : State := bytesAt 0x2000 [0, 0, 0, 0, 8] alive
def pr (s : State) : State := popped s (coreOf s) (task recs)
/-- The state in which locations are read: the slot's stores to them are performed. -/
def after (s : State) (ls : List Loc) : State := (pr s).flushFor s.cur ls
def okRec (s : State) : Prop :=
  Ready s [3, 4] 0 (task recs) [0xFFFFFFFFFFE02000, 0xFFFFFFFFFFE02040] (coreOf s) ∧ recordPlace (pr s) 0xFFFFFFFFFFE02000 = some (.pool me.core 0x2000 64) ∧
    recordPlace (pr s) 0xFFFFFFFFFFE02040 = some (.pool me.core 0x2040 64) ∧ (after s [.pool me.core 0x2000 64, .pool me.core 0x2040 64]).poisoned (.pool me.core 0x2000 64) = false ∧
    (after s [.pool me.core 0x2000 64, .pool me.core 0x2040 64]).poisoned (.pool me.core 0x2040 64) = false
def read0 (s : State) (o : Nat) : List Byte := (after s [.pool me.core o 64]).readLoc (.pool me.core o 64)
theorem witness_records : okRec dead ∧ okRec alive ∧ okRec plane ∧ okRec illRec :=
  ⟨⟨ready (by decide), by decide⟩, ⟨ready (by decide), by decide⟩, ⟨ready (by decide), by decide⟩, ready (by decide), by decide⟩
theorem witness_GaussianMailboxes : wellFormed (read0 dead 0x2000) ∧ wellFormed (read0 dead 0x2040) ∧ isLive (read0 dead 0x2000) ∧ ¬isLive (read0 dead 0x2040) ∧
    isLive (read0 alive 0x2000) ∧ isLive (read0 alive 0x2040) ∧ dimOf (read0 alive 0x2000) = dimOf (read0 alive 0x2040) ∧
    isLive (read0 plane 0x2040) ∧ dimOf (read0 plane 0x2000) ≠ dimOf (read0 plane 0x2040) ∧ ¬wellFormed (read0 illRec 0x2000) ∧
    Ready alive [3, 4] 2 (task recs) [0xFFFFFFFFFFE02000, 0xFFFFFFFFFFE02040] (coreOf alive) ∧ lean me.core.die = false ∧
    Ready alive [0, 5] 0 (task recs) [0, 1] (coreOf alive) ∧ mailPlace (pr alive) 1 = some (.pool me.core (mboxBase 0x40203 + 64) 64) ∧
    Ready alive [3, 5] 0 (task recs) [0xFFFFFFFFFFE02000, 1] (coreOf alive) ∧ Ready alive [3, 6] 0 (task recs) [0xFFFFFFFFFFE02000, 4] (coreOf alive) ∧
    (coreOf alive).part.toNat / 2 ^ 16 % 2 ^ 12 ≤ (4 : Word).toNat := by
  refine ⟨?_, ?_, ?_, ?_, ?_, ?_, by decide +kernel, ?_, by decide +kernel, ?_, ready (by decide), by decide, ready (by decide), by decide, ready (by decide),
    ready (by decide), by decide⟩ <;> (simp only [wellFormed, isLive]; decide +kernel)
/-- The same on a lean die, where the second task of this panel runs. -/
def onLean : State := { r34 with cur := ⟨⟨1, 0⟩, 0⟩ }.setTask ⟨⟨1, 0⟩, 0⟩ (task five)
theorem witness_lean : onLean.task onLean.cur = some (task five) ∧ lean onLean.cur.core.die = true := by decide
def msg8 : Task := { task recs with msg := some { payload := List.replicate 8 0 }, buf := [{ openDraft with payload := List.replicate 8 0 }] }
/-- Record 1 of the mailbox is poisoned, or ill-formed. -/
def badBox (s : State) : State := withCore (fun c => { c with pool := { c.pool with poison := [(mboxBase 0x40203 + 64) / 64] } }) s
def illBox (s : State) : State := bytesAt (mboxBase 0x40203 + 64) [0, 0, 0, 0, 8] s
theorem witness_Mailboxes : (let s := (boxes recs).setTask me msg8;
      Ready s [0, 5] 0 msg8 [0, 1] (coreOf s) ∧ (pr (badBox s)).poisoned (.pool me.core (mboxBase 0x40203 + 64) 64) = true ∧
      headerOf ((pr (illBox s)).readLoc (.pool me.core (mboxBase 0x40203 + 64) 64)) / 2 ^ 35 % 32 = 1 ∧ (∃ m, msg8.msg = some m ∧ m.payload.length = 8) ∧
      (∃ pre d post, msg8.buf = pre ++ d :: post ∧ d.closed = false ∧ d.payload.length = 8)) ∧ (task recs).msg = none ∧ (∀ x ∈ (task recs).buf, x.closed = true) :=
  ⟨⟨ready (by decide), by decide, by decide, ⟨_, rfl, rfl⟩, [], _, [], rfl, rfl, rfl⟩, rfl, by decide⟩
/-- A slot with a doubleword of a record, whose data were poisoned. -/
def recStore : BufferedStore := { hold := h0, home := none, loc := .pool me.core 0x2000 8, bytes := List.replicate 8 1, whole := some true }
theorem witness_RecordPerformed : let s := r34.setSlot me { r34.slot me with stores := [recStore] }
    (s.slot me).stores = [] ++ recStore :: [] ∧ oldest [] recStore ∧ recStore.am = none ∧ recStore.whole = some true := by
  simp only [oldest]; decide
/-- A joint record of two dimensions: U and W with Λ 1.0 and no cross terms; its elimination succeeds, and that of a zero block does not. -/
def joint : State := bytesAt 0x2040 unitRec (bytesAt 0x2000 unitRec (boxes recs))
def singular : State := bytesAt 0x2040 [0, 0, 0, 0, 4] (bytesAt 0x2000 [0, 0, 0, 0, 4] (boxes recs))
/-- The lines of the factor block. -/
def block : List Loc := [.pool me.core 0x2000 64, .pool me.core 0x2040 64, .pool me.core 0x2080 64]
/-- The second line of the block is poisoned. -/
def stained : State := withCore (fun c => { c with pool := { c.pool with poison := [0x81] } }) joint
def outOf (s : State) : Nat ⊕ GRec :=
  let bs := block.flatMap (after s block).readLoc
  eliminate (GRec.parse (bs.take 64)) (GRec.parse ((bs.drop 64).take 64)) (codesOf 16 (bs.drop 128)) false (lo32 (coreOf s).regs.gbpEps)
theorem witness_elimination : Ready joint [3, 7] 0 (task recs) [0xFFFFFFFFFFE02000, 0xFFFFFFFFFFE020C0] (coreOf joint) ∧
    (∀ k < 4, recordPlace (pr joint) (0xFFFFFFFFFFE02000 + word (64 * k)) = some (.pool me.core (0x2000 + 64 * k) 64)) ∧ (outOf joint).isRight = true ∧
    (outOf singular).isLeft = true ∧ Ready singular [3, 7] 0 (task recs) [0xFFFFFFFFFFE02000, 0xFFFFFFFFFFE020C0] (coreOf singular) ∧
    Ready stained [3, 7] 0 (task recs) [0xFFFFFFFFFFE02000, 0xFFFFFFFFFFE020C0] (coreOf stained) :=
  ⟨ready (by decide), by decide, by decide +kernel, by decide +kernel, ready (by decide), ready (by decide)⟩
def blockOf (s : State) (n : Nat) : List Byte := (after s block).readLoc (.pool me.core (0x2000 + 64 * n) 64)
/-- The pivot of the joint record is 1.0 and its vectors are 0; that of the zero block is refused. -/
theorem witness_Factors : (∀ s ∈ [joint, singular], wellFormed (blockOf s 0) ∧ wellFormed (blockOf s 1) ∧ isLive (blockOf s 0)) ∧ isLive (blockOf joint 1) ∧
    (∀ l ∈ block, (after joint block).poisoned l = false) ∧ (after stained block).poisoned (.pool me.core 0x2000 64) = false ∧
    (after stained block).poisoned (.pool me.core 0x2040 64) = true ∧ (0xFFFFFFFFFFE020C0 : Word).toNat / 2 % 32 = 0 ∧
    (let be := blockOf joint 1; let dg : Nat → W32 := fun _ => 0x3F800000; let no : Nat → Nat → W32 := fun _ _ => 0
      dimOf be = 1 ∧ factored 1 1 (BitVec.ofNat 32 (coreOf joint).regs.gbpEps.toNat) (fun j i => fieldAt be (lamAt j i)) no no dg ∧
      substituted 1 1 no no (fieldAt be) dg (fun _ => 0) no no) ∧
    badPivot (BitVec.ofNat 32 (coreOf singular).regs.gbpEps.toNat) (lessProducts (fun _ => 0) (fun _ => 0) 0 (fieldAt (blockOf singular 1) (lamAt 0 0))) := by
  have pivot : fieldAt (blockOf joint 1) (lamAt 0 0) = 0x3F800000 ∧ fieldAt (blockOf joint 1) 0 = 0 ∧ dimOf (blockOf joint 1) = 1 := by decide
  refine ⟨by unfold wellFormed isLive; decide, by unfold isLive; decide, by decide, by decide, by decide, by decide, ⟨pivot.2.2, fun j hj => ?_, fun i hi => ?_⟩, by unfold badPivot; decide +kernel⟩
  · obtain rfl : j = 0 := by omega
    exact ⟨pivot.1.symm, by unfold badPivot; decide +kernel, fun i a b => absurd b (by omega)⟩
  · obtain rfl : i = 0 := by omega
    refine ⟨pivot.2.1.symm, fun c hc => ?_⟩
    obtain rfl : c = 0 := by omega
    exact ⟨rfl, by decide +kernel⟩

/-- The serving resources of the holding changed. -/
def serve (f : Serving → Serving) (s : State) : State := s.modHold h0 fun x => { x with serving := f x.serving }
/-- `sq.admit` into slot 5 (3), into the lowest free slot (4), and with a reserved bit (5); a key-value page (6). -/
def sqs : List (Nat × Word) := [(3, 5), (4, 0x1000), (5, 0x2000), (6, 0x10000)]
def rqOn : Serving → Serving := fun v => { v with rq := { v.rq with en := true, tail := 1, base := 0x10000 } }
def noSlot : Serving → Serving := fun v => { rqOn v with seqs := [(5, { active := true })] }
def ps (s : State) : State := popped s (coreOf s) (task sqs)
/-- The host has a translation of the page at 0x10000. -/
def mapped (s : State) : State := { s with iommu := [⟨0, .k4, 0x10, 0, true, true, true, false⟩] }
def request : List Byte := List.replicate 34 0 ++ [1] ++ List.replicate 29 0
def asking (bs : List Byte) (f : Serving → Serving) : State := let s := mapped (serve (fun v => f (rqOn v)) (regs sqs)); { s with mem := Memory.write s.mem (stackAddr 4 0 0) bs }
def asked : State := asking request id
/-- A request of no pages, which is ill-formed, with room for its completion and with none. -/
def refusedRequest : List Byte := List.replicate 64 0
def noted (n : Nat) : State := asking refusedRequest fun v => { v with waitingCq := List.replicate n ⟨3, 0, 0, 0, 0, 0⟩ }
theorem witness_RefusedRequests : requestRefused refusedRequest ∧
    (Ready (noted 0) [3] 2 (task sqs) [5] (coreOf (noted 0)) ∧ (ps (noted 0)).sysRead 0 0 0x10000 64 = some refusedRequest ∧
      ((ps (noted 0)).hold h0).serving.waitingCq.length < 64 ∧ (((ps (noted 0)).hold h0).serving.seq 5).active = false) ∧
    (Ready (noted 64) [3] 2 (task sqs) [5] (coreOf (noted 64)) ∧ (ps (noted 64)).sysRead 0 0 0x10000 64 = some refusedRequest ∧
      64 ≤ ((ps (noted 64)).hold h0).serving.waitingCq.length) :=
  ⟨by unfold requestRefused; decide, ⟨ready (by decide +kernel), by decide +kernel, by decide +kernel, by decide +kernel⟩,
    ready (by decide +kernel), by decide +kernel, by decide +kernel⟩
def launch0 : Launch := ⟨0, 9, 0, #v[1, 2, 3, 4], 0, 3, [], [], 1, []⟩
theorem witness_SequenceAdmission : Ready (regs sqs) [3] 2 (task sqs) [5] (coreOf (regs sqs)) ∧ Ready (regs sqs) [5] 2 (task sqs) [0x2000] (coreOf (regs sqs)) ∧
    (ps (regs sqs)).launchOf h0 (task sqs).tag = none ∧ ((regs sqs).hold h0).serving.rq.en = false ∧
    (let s := serve noSlot (regs sqs); Ready s [3] 2 (task sqs) [5] (coreOf s) ∧ ((s.hold h0).serving.seq 5).active = true) ∧
    (let s := serve rqOn (regs sqs); Ready s [3] 2 (task sqs) [5] (coreOf s) ∧ (s.hold h0).serving.rq.en = true ∧ ((s.hold h0).serving.seq 5).active = false ∧
      (ps s).sysRead 0 0 0x10000 64 = none) ∧
    Ready asked [3] 2 (task sqs) [5] (coreOf asked) ∧ (ps asked).sysRead 0 0 0x10000 64 = some request ∧ ¬requestRefused request ∧
    (let s := serve (fun v => { v with launches := [launch0] }) (run { task [(3, 3)] with tag := some 0 });
      Ready s [3] 2 { task [(3, 3)] with tag := some 0 } [3] (coreOf s) ∧ s.launchOf h0 (some 0) = some launch0) :=
  ⟨ready (by decide), ready (by decide), by decide, by decide, ⟨ready (by decide), by decide⟩, ⟨ready (by decide), by decide, by decide, by decide⟩,
    ready (by decide), by decide +kernel, by unfold requestRefused; decide, ready (by decide), by decide⟩
/-- Slot 5 is a sequence of generation 0 with the stop token 7, a limit and pages. -/
def seq5 (x : SeqSlot) (v : Serving) : Serving := { v with seqs := [(5, x)], kvFree := [1], kvCount := 2 }
def stops : List (Nat × Word) := [(3, 5), (4, 7), (5, 8), (6, 0x10000), (7, 0x1005), (8, 0x20000)]
def st (x : SeqSlot) : State := serve (seq5 x) (regs stops)
theorem witness_SequencesAndPages : Ready (st { active := true, stops := [7] }) [3, 4] 2 (task stops) [5, 7] (coreOf (st { active := true, stops := [7] })) ∧
    handled ((st { active := true, stops := [7] }).hold h0).serving 5 ∧ ¬handled ((st {}).hold h0).serving 5 ∧
    Ready (st { active := true, stops := [7] }) [3, 5] 2 (task stops) [5, 8] (coreOf (st { active := true, stops := [7] })) ∧
    Ready (st { active := true, tlimit := 1 }) [3, 5] 2 (task stops) [5, 8] (coreOf (st { active := true, tlimit := 1 })) ∧
    Ready (st {}) [7, 5] 2 (task stops) [0x1005, 8] (coreOf (st {})) ∧ Ready (st {}) [3, 5] 2 (task stops) [5, 8] (coreOf (st {})) ∧
    Ready (st {}) [3] 0 (task stops) [5] (coreOf (st {})) ∧ Ready (st { active := true }) [3] 0 (task stops) [5] (coreOf (st { active := true })) ∧
    Ready (st {}) [7] 0 (task stops) [0x1005] (coreOf (st {})) ∧ Ready (st { active := true, plimit := 1 }) [3] 2 (task stops) [5] (coreOf (st { active := true, plimit := 1 })) ∧
    Ready (st { active := true }) [3] 2 (task stops) [5] (coreOf (st { active := true })) ∧
    Ready (st { active := true, pages := [1] }) [3, 6] 0 (task stops) [5, 0x10000] (coreOf (st { active := true, pages := [1] })) ∧
    Ready (st {}) [3, 8] 0 (task stops) [5, 0x20000] (coreOf (st {})) ∧ Ready (st {}) [3, 6] 0 (task stops) [5, 0x10000] (coreOf (st {})) := by
  refine ⟨ready (by decide), by unfold handled; decide, by unfold handled; decide, ready (by decide), ready (by decide), ready (by decide), ready (by decide),
    ready (by decide), ready (by decide), ready (by decide), ready (by decide), ready (by decide), ready (by decide), ready (by decide), ready (by decide)⟩

/-! ## Witnesses: plough and drill (09, 10) -/

/-- Core 0 with four accumulator units, a result of one row and one column of one term, and lines of A and B in the scratchpad. -/
def plCore (f : CoreRegs → CoreRegs) : Core → Core := fun c =>
  { c with part := 0x403, regs := f { c.regs with geo0 := 0x100010001, geo2 := 0x10001 } }
def plRegs : List (Nat × Word) := [(3, 0x8000), (4, 0x9000), (5, 3), (6, 4), (7, 0x100000000000000)]
def plS : State := withCore (plCore id) (regs plRegs)
def plP : State := popped plS (coreOf plS) (task plRegs)
theorem at_one {P : Nat → Prop} {n : Nat} (h : n = 1) (p : P 0) : ∀ r, r < n → P r := by
  intro r hr; obtain rfl : r = 0 := by omega
  exact p
def geo : CoreRegs := (coreOf plS).regs
def zacc1 : PlOp := { kind := .zacc, tiles := 1 }
/-- What a form makes of the operands 0x8000 and 0x9000, at the tile of a coordinate. -/
def ops (kind : PlKind) (out : BitVec 2) (xy : Coord) (A : Word) : List (Word × (Nat → Prop) × Nat) := descOperands geo xy kind false out A 0x9000
theorem operands_fit : operandsFit plP (ops .mmt 0 ⟨0, 0⟩ 0x8000) ∧ operandsFit plP (ops .ldacc 0 ⟨0, 0⟩ 0x8000) ∧
    operandsFit plP (ops .stacc 1 ⟨0, 0⟩ 0x8000) ∧ operandsFit plP (ops .zacc 0 ⟨0, 0⟩ 0x8000) ∧ operandsFit plP (ops .tile 0 ⟨1, 0⟩ 0x8000) := by
  refine ⟨?_, ?_, ?_, ?_, ?_⟩
  · rintro x (_ | ⟨_, _ | ⟨_, ⟨⟩⟩⟩)
    · exact ⟨by decide, by decide, fun r h => at_one (P := fun r => plP.rowOk _ (rowAddr 0x8000 r) _ = true) (by decide) (by decide) r h.2⟩
    · exact ⟨by decide, by decide, fun r h => at_one (P := fun r => plP.rowOk _ (rowAddr 0x9000 r) _ = true) (by decide) (by decide) r h.2⟩
  · rintro x (_ | ⟨_, ⟨⟩⟩)
    exact ⟨by decide, by decide, at_one (by decide) (by decide)⟩
  · rintro x (_ | ⟨_, ⟨⟩⟩)
    exact ⟨by decide, by decide, at_one (by decide) (by decide)⟩
  · rintro x ⟨⟩
  · rintro x (_ | ⟨_, _ | ⟨_, ⟨⟩⟩⟩)
    · exact ⟨by decide, by decide, fun r h => absurd (h.1 rfl) (by decide)⟩
    · exact ⟨by decide, by decide, fun r h => absurd (h.1 rfl) (by decide)⟩
theorem tile_fits : operandsFit plP (ops .tile 0 ⟨0, 0⟩ 0x8000) := by
  have zero : ∀ b (P : Nat → Prop), P 0 → ∀ r, rowsFor geo ⟨0, 0⟩ .tile r b → P r := by
    intro b P p r h
    obtain rfl : r = 0 := by cases b <;> exact Nat.lt_one_iff.mp h.2.2
    exact p
  rintro x (_ | ⟨_, _ | ⟨_, ⟨⟩⟩⟩)
  · exact ⟨by decide, by decide, fun r h => zero _ (fun r => plP.rowOk _ (rowAddr 0x8000 r) _ = true) (by decide) r h.2⟩
  · exact ⟨by decide, by decide, fun r h => zero _ (fun r => plP.rowOk _ (rowAddr 0x9000 r) _ = true) (by decide) r h.2⟩
/-- A reserved bit, and a row that lies outside the scratchpad, in the first and in the second operand. -/
theorem operands_bad : operandsBad plP (ops .mmt 0 ⟨0, 0⟩ 0x2000000000000000) 0 ∧
    operandsBad plP (ops .ldacc 0 ⟨0, 0⟩ 0) 0xFFFFFFFFFFE00000 ∧ operandsBad plP (descOperands geo ⟨0, 0⟩ .mmt false 0 0x8000 0) 0xFFFFFFFFFFE00000 := by
  refine ⟨⟨[], _, _, rfl, by rintro x ⟨⟩, ?_⟩, ⟨[], _, _, rfl, by rintro x ⟨⟩, ?_⟩, ⟨[_], _, _, rfl, ?_, ?_⟩⟩
  · unfold Claims.descBad; rw [if_pos (by decide)]
  · unfold Claims.descBad; rw [if_neg (by decide)]
    exact ⟨0, by decide, by decide, by omega, by decide⟩
  · rintro x (_ | ⟨_, ⟨⟩⟩)
    exact ⟨by decide, by decide, fun r h => at_one (P := fun r => plP.rowOk _ (rowAddr 0x8000 r) _ = true) (by decide) (by decide) r h.2⟩
  · unfold Claims.descBad; rw [if_neg (by decide)]
    exact ⟨0, ⟨by decide, show 0 < geoN geo by decide⟩, by decide, by omega, by decide⟩
/-- A `pl.zacc` of no unit under records that are fine, and under a reserved code in each. -/
def noUnits (a b : Word) : State := withCore (plCore fun r => { r with fmtA := a, fmtB := b }) (regs [(3, 3)])
theorem witness_PloughSettles : (∀ f ∈ [((0 : Word), (0 : Word)), (9, 0), (0, 9)], let s := noUnits f.1 f.2;
      Ready s [3, 0] 0 (task [(3, 3)]) [3, 0] (coreOf s) ∧ ¬geoRefused (coreOf s).regs 4 .zacc 3 0 ∧ (coreOf s).plq = [] ∧ (coreOf s).locks = [] ∧
      (popped s (coreOf s) (task [(3, 3)])).suspended me.core = false ∧ (popped s (coreOf s) (task [(3, 3)])).frozen 0 = false ∧
      (captured (coreOf s).regs ⟨0, 0⟩ .zacc false 0 0 3 0).tiles = 0 ∧ (s.slot me).halted = false) ∧
    ¬recordIll zacc1 { operandA zacc1 with fmt := 0 } ∧ recordIll zacc1 { operandA zacc1 with fmt := 9 } ∧
    (captured geo ⟨1, 0⟩ .tile false 0 0 0x8000 0x9000).tiles = 0 ∧ (captured geo ⟨0, 0⟩ .tile false 0 0 0x8000 0x9000).tiles = 1 := by
  refine ⟨?_, by unfold recordIll accepted; decide, by unfold recordIll accepted; decide, by decide, by decide⟩
  rintro f (_ | ⟨_, _ | ⟨_, _ | ⟨_, ⟨⟩⟩⟩⟩) <;>
    exact ⟨ready (by decide), by unfold geoRefused; decide, by decide, by decide, by decide, by decide, by decide, by decide⟩
theorem witness_PloughIssues : (∃ k b z o l, ploughForm (.plMmt 3 4 1) = some (k, b, z, o, l) ∧ Ready plS l 0 (task plRegs) [0x8000, 0x9000] (coreOf plS) ∧
      ¬geoRefused geo 4 k 0x8000 0x9000 ∧ geoRefused geo 0 k 0x8000 0x9000) ∧
    (∃ k z o l, ploughForm (.plTileBlk 3 4 1) = some (k, true, z, o, l)) ∧ lean onLean.cur.core.die = true ∧ onLean.task onLean.cur = some (task five) ∧
    lean plS.cur.core.die = false ∧ (coreOf plS).part.toNat / 2 ^ 8 % 2 ^ 7 = 4 ∧ plP.taskCoord me (task plRegs) = ⟨0, 0⟩ ∧
    ((PlOp.needs (captured geo ⟨0, 0⟩ .mmt false 1 0 0x8000 0x9000) me.core geo).length ≤ 16 ∧ (coreOf plS).plq = []) ∧
    Ready plS [] 0 (task plRegs) [] (coreOf plS) ∧ ((task plRegs).group 2 (geoM geo * rowLen false geo.fmtA (geoK geo))).isSome = true ∧
    groupBad 31 33 ∧ groupBad 0 257 ∧ ¬groupBad 2 (geoM geo * rowLen false geo.fmtA (geoK geo)) :=
  ⟨⟨_, _, _, _, _, rfl, ready (by decide), by unfold geoRefused; decide, by unfold geoRefused; decide⟩, ⟨_, _, _, _, rfl⟩, by decide, by decide, by decide,
    by decide, by decide, by decide, ready (by decide), by decide, by unfold groupBad; decide, by unfold groupBad; decide, by unfold groupBad; decide⟩
theorem witness_PloughControl : Ready plS [7] 0 (task plRegs) [0x100000000000000] (coreOf plS) ∧ Ready plS [3] 0 (task plRegs) [0x8000] (coreOf plS) ∧
    Ready plS [] 0 (task plRegs) [] (coreOf plS) ∧
    (let s := withCore (fun c => { c with plq := [{ kind := .zacc, tiles := 1, started := true, origin := { seq := 1 } }, { kind := .zacc, tiles := 1 }] }) plS;
      Ready s [] 0 (task plRegs) [] (coreOf s) ∧ (∀ o ∈ (coreOf s).plq, o.tiles ≠ 0) ∧ ((coreOf s).plq.map (·.origin.seq)).Nodup) :=
  ⟨ready (by decide), ready (by decide), ready (by decide), ready (by decide), by decide, by decide⟩
def ploughs (o : PlOp) : State := withCore (fun c => { c with plq := [o] }) plS
/-- The state in which the tile of core 0 is committed. -/
def commits : State := let s := ploughs { zacc1 with started := true }; s.setCluster 0 0 { s.cluster 0 0 with running := some 0 }
/-- Core 0 is picked where it alone has an operation. -/
theorem picks_first {s : State} {o : PlOp} {cr : Nat} (h : ¬(0 < (s.cluster 0 0).cr ∧ (s.ready (coreIn 0 0 (s.cluster 0 0).p)).isSome = true) ∧
    (0 : Fin 8).val = ((s.cluster 0 0).p.val + 1 + 0) % 8 ∧ s.ready (coreIn 0 0 0) = some o ∧ cr = (s.core (coreIn 0 0 0)).regs.plWt.toNat % 16 - 1 ∧
    (s.core (coreIn 0 0 0)).plq = [o]) : picked s 0 0 0 cr o [] := by
  obtain ⟨h0, h1, h2, h3, h4⟩ := h
  refine ⟨?_, h2, h4, by simp⟩
  unfold chosen
  rw [if_neg h0]
  exact ⟨0, by decide, h1, by simp [h2], fun j hj => absurd hj (by omega), h3⟩
/-- Operations that have not started: under a reserved code in each record; with a register group that is too short; with misplaced scales. -/
def ill (a b : Word) : State := withCore (fun c => { c with regs := { c.regs with fmtA := a, fmtB := b } }) (ploughs zacc1)
def short1 : PlOp := { kind := .mma, m := 1, n := 1, k := 1, tiles := 1, a := .regs [], b := .regs [] }
def scaled1 : PlOp := { kind := .mmt, m := 1, n := 1, k := 1, tiles := 1, a := .desc 0x8000, b := .desc 0x9000 }
def scaledS : State := withCore (fun c => { c with regs := { c.regs with fmtA := 5, fmtB := 5, sclB := 0x8000 } }) (ploughs scaled1)
theorem witness_PloughStarts : (∀ f ∈ [((9 : Word), (0 : Word)), (0, 9)], picked (ill f.1 f.2) 0 0 0 0 zacc1 []) ∧
    startFails (ill 9 0) (coreIn 0 0 0) (sampled ((ill 9 0).core (coreIn 0 0 0)) zacc1) 0x20 9 0 ∧
    startFails (ill 0 9) (coreIn 0 0 0) (sampled ((ill 0 9).core (coreIn 0 0 0)) zacc1) 0x20 41 0 ∧
    picked (ploughs short1) 0 0 0 0 short1 [] ∧
    startFails (ploughs short1) (coreIn 0 0 0) (sampled ((ploughs short1).core (coreIn 0 0 0)) short1) 0x32 0 0 ∧
    picked scaledS 0 0 0 0 scaled1 [] ∧
    startFails scaledS (coreIn 0 0 0) (sampled (scaledS.core (coreIn 0 0 0)) scaled1) 0x32 0 0xFFFFFFFFFFE00000 := by
  refine ⟨?_, .inl ⟨rfl, rfl, .inl ⟨?_, by decide⟩⟩, .inl ⟨rfl, rfl, .inr ⟨?_, ?_, by decide⟩⟩, picks_first (by decide), .inr ⟨rfl, rfl, by decide, ?_, ?_,
    .inl ⟨.inl ⟨[], rfl, by decide⟩, rfl⟩⟩, picks_first (by decide), .inr ⟨rfl, rfl, by decide, ?_, ?_, .inr ⟨?_, ?_, .inl ⟨by unfold usesScales; decide, 0, ?_, by decide,
    by omega, by decide⟩⟩⟩⟩
  · rintro f (_ | ⟨_, _ | ⟨_, ⟨⟩⟩⟩) <;> exact picks_first (by decide)
  all_goals first
    | (unfold recordIll accepted; decide)
    | (rintro ⟨bs, h, -⟩; cases h)
    | (unfold startRows inRows inCols; decide)
theorem witness_PloughTiles : (let s := ploughs zacc1;
      (s.cluster 0 0).running = none ∧ s.frozen 0 = false ∧ picked s 0 0 0 0 zacc1 [] ∧ startable s (coreIn 0 0 0) zacc1) ∧
    (commits.cluster 0 0).running = some 0 ∧ (commits.core (coreIn 0 0 0)).plq = [{ zacc1 with started := true }] ∧
    ∃ v, State.runTile { commits.setCluster 0 0 { commits.cluster 0 0 with running := none } with freshCount := commits.freshCount + 1 }
      (coreIn 0 0 0) { zacc1 with started := true } = .inr v := by
  refine ⟨⟨by decide, by decide, picks_first (by decide), .inr ?_⟩, by decide, by decide, _, rfl⟩
  rintro cause info a (⟨-, -, ⟨h, -⟩ | ⟨-, h, -⟩⟩ | ⟨-, -, h, -⟩)
  · exact absurd h (by unfold recordIll accepted; decide)
  · exact absurd h (by unfold recordIll accepted; decide)
  · exact absurd h (by decide)
/-- An operation of one row, one column and one term, and the state in which its tile is committed, lines of the pool being poisoned. -/
def one (kind : PlKind) (fmtA : Word) (z : Bool) (out : BitVec 2) : PlOp :=
  { kind, blk := decide (fmtA ≠ 0), m := 1, n := 1, k := 1, a := .desc 0x8000, b := .desc 0x9000, z, out, tiles := 1, started := true, fmtA, fmtB := fmtA }
def oneS (o : PlOp) (lines : List Nat) (s : State) : State :=
  let s := withCore (fun c => { c with plq := [o], pool := { c.pool with poison := lines } }) s
  { s.setCluster 0 0 { s.cluster 0 0 with running := some 0 } with freshCount := s.freshCount + 1 }
abbrev core0 : CoreRef := coreIn 0 0 0
theorem one_rows {o : PlOp} (h : o.kind ≠ .tile ∧ o.m = 1 ∧ o.n = 1 ∧ o.next = 0) (r : Nat) : (inRows o r ↔ r = 0) ∧ (inCols o r ↔ r = 0) := by
  simp only [inRows, inCols, tileCorner, if_neg h.1, h.2]
  constructor <;> (constructor <;> intro g) <;> omega
theorem one_cols {o : PlOp} (h : o.kind ≠ .tile ∧ o.m = 1 ∧ o.n = 1 ∧ o.next = 0) (m : Nat) : inCols o m ↔ 0 ≤ m ∧ m < 0 + 1 := by
  rw [(one_rows h m).2]; omega
theorem one_len {o : PlOp} {n len : Nat} (h : o.kind ≠ .tile ∧ o.m = 1 ∧ o.n = 1 ∧ o.next = 0) (i : inCols o n) (g : ∀ m, inCols o m ↔ n ≤ m ∧ m < n + len) : n = 0 ∧ len = 1 := by
  obtain rfl := (one_rows h n).2.1 i
  have a := (g 0).1 i
  have b := mt (g 1).2 (fun h' => absurd ((one_rows h 1).2.1 h') (by decide))
  exact ⟨rfl, by omega⟩
theorem clean_row {s : State} {x : Operand} (h : ∃ d, x.side = .desc d ∧ s.poolPoison core0 (rowAddr d 0) (rowBytes (x.fmt.toNat % 2 ^ 5) x.k) = none)
    (hs : x.fmt.toNat % 2 ^ 5 ∉ [5, 6, 7, 8]) : Claims.clean s core0 x 0 := fun a g => by
  obtain ⟨d, hd, hp⟩ := h
  simp only [poisonedAt, hd, hp, usesScales] at g
  rcases g with g | ⟨-, g, -⟩
  · cases g
  · exact hs g
theorem good {s : State} {x : Operand} {rows : Nat → Prop} (hr : ∀ r, rows r → r = 0) (hk : x.k = 1)
    (h : (∃ d, x.side = .desc d ∧ s.poolPoison core0 (rowAddr d 0) (rowBytes (x.fmt.toNat % 2 ^ 5) x.k) = none) ∧ x.fmt.toNat % 2 ^ 5 ∉ [5, 6, 7, 8] ∧
      operandElem s core0 x 0 0 ≠ none) : sideGood s core0 x rows := by
  intro r hrow
  obtain rfl := hr r hrow
  refine ⟨clean_row h.1 h.2.1, fun k hk' => ?_⟩
  obtain rfl : k = 0 := by omega
  exact h.2.2
theorem acc_clean {s : State} {o : PlOp} (h : o.kind ≠ .tile ∧ o.m = 1 ∧ o.n = 1 ∧ o.next = 0) (hp : s.poolPoison core0 (accAt o 0 0) 4 = none) : accClean s core0 o := by
  rintro r hr a ⟨n, len, i, g, hs⟩
  obtain rfl := (one_rows h r).1.1 hr
  obtain ⟨rfl, rfl⟩ := one_len h i g
  simp only [Nat.mul_one] at hs
  rw [hp] at hs; cases hs
theorem acc_poison {s : State} {o : PlOp} {a : Word} (h : o.kind ≠ .tile ∧ o.m = 1 ∧ o.n = 1 ∧ o.next = 0) (hp : s.poolPoison core0 (accAt o 0 0) 4 = some a) :
    inRows o 0 ∧ accPoison s core0 o 0 a ∧ ∀ q < 0, inRows o q → ∀ b, ¬accPoison s core0 o q b :=
  ⟨(one_rows h 0).1.2 rfl, ⟨0, 1, (one_rows h 0).2.2 rfl, one_cols h, hp⟩, fun q hq => absurd hq (by omega)⟩
abbrev dot : PlOp := one .mmt 0 false 0
abbrev dotB : PlOp := one .mmt 0x12 true 0
/-- A tile that is good, and tiles whose A or B is poisoned, whose A holds a reserved exponent, or whose accumulator is poisoned. -/
theorem witness_Tiles : (accepted dot.blk (operandA dot) ∧ accepted dotB.blk (operandA dotB)) ∧
    (let s := oneS dot [] plS; (s.cluster 0 0).running = some 0 ∧ (s.core core0).plq = [dot] ∧ dot.started = true ∧ dot.next < dot.tiles ∧
      sideGood s core0 (operandA dot) (inRows dot) ∧ sideGood s core0 (operandB dot) (inCols dot) ∧ accClean s core0 dot) ∧
    tileFails (oneS dot [0x8000 / 64] plS) core0 dot 0x52 0xFFFFFFFFFFE08000 ∧ tileFails (oneS dot [0x9000 / 64] plS) core0 dot 0x52 0xFFFFFFFFFFE09000 ∧
    tileFails (oneS dot [0] plS) core0 dot 0x52 0xFFFFFFFFFFE00000 ∧
    tileFails (oneS dotB [] (bytesAt 0x8000 (List.replicate 9 0xFF) plS)) core0 dotB 0x21 0 := by
  have row : ∀ r, inRows dot r → r = 0 := fun r => (one_rows (by decide) r).1.1
  have rowB : ∀ r, inRows dotB r → r = 0 := fun r => (one_rows (by decide) r).1.1
  have col : ∀ r, inCols dot r → r = 0 := fun r => (one_rows (by decide) r).2.1
  refine ⟨by unfold accepted; decide, ⟨by decide, by decide, by decide, by decide, good row rfl ⟨⟨_, rfl, by decide⟩, by decide, nofun⟩,
    good col rfl ⟨⟨_, rfl, by decide⟩, by decide, nofun⟩, acc_clean (by decide) (by decide)⟩, .inl (.inl ⟨rfl, 0, (one_rows (by decide) 0).1.2 rfl, .inl (by decide), fun q hq => absurd hq (by omega)⟩),
    .inr (.inl ⟨good row rfl ⟨⟨_, rfl, by decide⟩, by decide, nofun⟩, .inl ⟨rfl, 0, (one_rows (by decide) 0).2.2 rfl, .inl (by decide), fun q hq => absurd hq (by omega)⟩⟩),
    .inr (.inr ⟨good row rfl ⟨⟨_, rfl, by decide⟩, by decide, nofun⟩, good col rfl ⟨⟨_, rfl, by decide⟩, by decide, nofun⟩, rfl, rfl, 0, acc_poison (by decide) (by decide)⟩),
    .inl (.inr ⟨rfl, rfl, fun r hr => by obtain rfl := rowB r hr; exact clean_row ⟨_, rfl, by decide⟩ (by decide), 0, 0, (one_rows (by decide) 0).1.2 rfl, by decide, by decide⟩)⟩
abbrev ldO : PlOp := one .ldacc 0 false 0
abbrev stO : PlOp := one .stacc 0 false 1
theorem witness_UnitMoves : (inCols ldO 0 ∧ (∀ m, inCols ldO m ↔ 0 ≤ m ∧ m < 0 + 1) ∧ ldO.a = .desc 0x8000 ∧ inRows ldO 0 ∧
      (oneS ldO [] plS).poolPoison core0 (rowAddr 0x8000 0) 4 = none ∧ ∃ a, (oneS ldO [0x8000 / 64] plS).poolPoison core0 (rowAddr 0x8000 0) 4 = some a) ∧
    (inCols stO 0 ∧ (∀ m, inCols stO m ↔ 0 ≤ m ∧ m < 0 + 1) ∧ stO.a = .desc 0x8000 ∧ stO.out ≠ 3 ∧ accClean (oneS stO [] plS) core0 stO ∧
      (∀ r, inRows stO r → (oneS stO [] plS).rowOk core0 (rowAddr 0x8000 r) 2 = true) ∧ (∀ r x, inRows stO r → inRows stO x → r ≠ x → False) ∧
      ∃ a, inRows stO 0 ∧ accPoison (oneS stO [0] plS) core0 stO 0 a ∧ ∀ q < 0, inRows stO q → ∀ b, ¬accPoison (oneS stO [0] plS) core0 stO q b) := by
  have h : ldO.kind ≠ .tile ∧ ldO.m = 1 ∧ ldO.n = 1 ∧ ldO.next = 0 := by decide
  have g : stO.kind ≠ .tile ∧ stO.m = 1 ∧ stO.n = 1 ∧ stO.next = 0 := by decide
  refine ⟨⟨(one_rows h 0).2.2 rfl, one_cols h, rfl, (one_rows h 0).1.2 rfl, by decide, _, rfl⟩, (one_rows g 0).2.2 rfl, one_cols g, rfl, by decide, acc_clean g (by decide), ?_, ?_, _, acc_poison g rfl⟩
  · intro r hr; obtain rfl := (one_rows g r).1.1 hr; decide
  · intro r x hr hx e; exact e (((one_rows g r).1.1 hr).trans ((one_rows g x).1.1 hx).symm)

/-- A `dr.copy.pp` of two rows of 8 bytes within the scratchpad, described at its start. -/
def drDesc (dst src len rings : Nat) : List Byte := toBytes 8 dst ++ toBytes 8 src ++ toBytes 4 len ++ toBytes 4 64 ++ toBytes 4 64 ++ toBytes 2 rings ++ List.replicate 18 0
def drRegs : List (Nat × Word) := [(3, 0xFFFFFFFFFFE02000), (4, 2), (5, 0xFFFFFFFFFFE00000)]
def drS (len : Nat) : State := bytesAt 0x2000 (drDesc 0xFFFFFFFFFFE03000 0xFFFFFFFFFFE04000 len 0) (regs drRegs)
def drP (len : Nat) : State := popped (drS len) (coreOf (drS len)) (task drRegs)
def drBytes (len : Nat) : List Byte := Memory.read ((drP len).core me.core).pool.bytes 0x2000 48
def drO : DrOp := drCaptured .copyPp 0 2 (drBytes 8) []
theorem witness_DrillIssues : (∃ w, drillForm (.drCopyPp 3 4) = some (.copyPp, w, 3, 4)) ∧
    Ready (drS 8) [3, 4] 0 (task drRegs) [0xFFFFFFFFFFE02000, 2] (coreOf (drS 8)) ∧ imageReady (drP 8) 0xFFFFFFFFFFE02000 ∧ ¬drRefused drO (drBytes 8) 2 ∧
    ringsFit (coreOf (drS 8)) drO ∧
    (∀ j < 2, (drO.sring = none → rowFits (drP 8) .pool (drO.srcAddr j) drO.len) ∧ (drO.dring = none → rowFits (drP 8) .pool (drO.dstAddr j) drO.len)) ∧
    (drO.needs me.core).length ≤ 16 ∧ (coreOf (drS 8)).drq = [] ∧
    imageReady (drP 0) 0xFFFFFFFFFFE02000 ∧ drRefused (drCaptured .copyPp 0 2 (drBytes 0) []) (drBytes 0) 2 ∧
    Ready (drS 8) [5, 4] 0 (task drRegs) [0xFFFFFFFFFFE00000, 2] (coreOf (drS 8)) ∧ ownScratch (coreOf (drS 8)).part 0xFFFFFFFFFFE00000 48 8 = false := by
  refine ⟨⟨_, rfl⟩, ready (by decide), ⟨by decide, by decide⟩, ?_, ⟨fun k h => ?_, fun k h => ?_⟩, ?_, by decide +kernel, by decide, ⟨by decide, by decide⟩, ?_,
    ready (by decide), by decide⟩
  · unfold drRefused; decide +kernel
  · rw [(by decide +kernel : drO.dring = none)] at h; cases h
  · rw [(by decide +kernel : drO.sring = none)] at h; cases h
  · unfold rowFits; decide +kernel
  · unfold drRefused; decide +kernel
/-- The first of two rows of that copy, and a drill without rows. -/
def rowOf (n : Nat) : DrOp := { drO with n := n }
def rows (n : Nat) : State := withCore (fun c => { c with drq := [rowOf n] }) (regs drRegs)
/-- A fill of one global row, whose page is not mapped. -/
def fillO : DrOp := { kind := .fillG, n := 1, dst := 0x7000000, len := 8, pat := 0x0807060504030201 }
def fillS (stage : AtsStage) : State :=
  let s := withCore (fun c => { c with drq := [fillO] }) (regs drRegs)
  s.setDie 0 { s.die 0 with ats := [⟨.drill 0, 0, 0x7000000, false, true, false, stage⟩] }
/-- A row that is read from a ring. -/
def ringO : DrOp := { rowOf 2 with sring := some 3 }
theorem witness_DrillRows : (∀ n ∈ [0, 2], ((rows n).core me.core).drq = [rowOf n] ∧ (rows n).drillPaused 0 = false ∧
      blockedBy (rowOf n).locks (rowOf n).origin.seq (((rows n).core me.core).plq.map fun x => (x.origin.seq, x.locks)) = false) ∧
    (∃ src, rowSource (rows 2) me.core (rowOf 2) (some src)) ∧ (∃ dst, rowTarget (rows 2) me.core (rowOf 2) dst) ∧ ringsGo ((rows 2).core me.core) (rowOf 2) ∧
    ¬ringsGo ((rows 2).core me.core) ringO ∧ rowSource (fillS (.failed 0x15)) me.core fillO none ∧
    rowFails (fillS (.failed 0x15)) me.core fillO 0x15 0x7000000 ∧ ((fillS (.failed 0x15)).core me.core).drq = [fillO] ∧ (fillS (.failed 0x15)).drillPaused 0 = false ∧
    Ready (regs drRegs) [4] 0 (task drRegs) [2] (coreOf (regs drRegs)) :=
  ⟨by decide +kernel, ⟨_, .inr (.inl ⟨by decide +kernel, rfl, rfl⟩)⟩, ⟨_, .inr (.inl ⟨by decide +kernel, rfl, rfl⟩)⟩,
    ⟨fun k h => absurd h (by decide +kernel +revert), fun k h => absurd h (by decide +kernel +revert)⟩, fun h => h.2 3 rfl (by decide +kernel), ⟨rfl, rfl⟩,
    .inr ⟨⟨none, rfl, rfl⟩, rfl, rfl, 0, by decide, by omega, by decide, by decide⟩, by decide, by decide, ready (by decide)⟩
/-- 10 R226, R236: a row of 8 bytes takes the bytes of its source, and the poison of their line; nothing before it changes. -/
theorem test_drill_row : (let s := withCore (fun c => { c with pool := { (c.pool.write 0x4000 [1, 2, 3, 4, 5, 6, 7, 8]) with poison := [0x100] } }) (rows 2);
    match exec (.drillRow me.core) s with
    | .next u => (Memory.read (u.core me.core).pool.bytes 0x3000 8, (u.core me.core).pool.poison, (u.core me.core).drq.map (·.next))
    | _ => ([], [], [])) = ([1, 2, 3, 4, 5, 6, 7, 8], [0xC0, 0x100], [1]) := by decide +kernel

/-! ## Witnesses: dispatch, gleaning, delivery, memory events (05, 10, 13) -/

/-- A seed of any die, of domain 3 and class 0. -/
def seedA : Seed := { pc := 0x10000, cw := 0xFF0C000000 }
abbrev c0 : CoreRef := me.core
abbrev c1 : CoreRef := ⟨0, 1⟩
theorem picks_one {c : Core} {i p : Nat} (h : c.candidates = [(i, p)]) (hi : i ≤ 256) : picks c i :=
  ⟨hi, p, by simp [h], by simp [h], fun j hj => by simp_all⟩
/-- A free slot of core 0. -/
abbrev free1 : SlotRef := ⟨c0, 1⟩
def runnable7 : State := entry7 { state := .runnable, fire := some {} } r34
def dequeA : State := withCore (fun c => { c with deque := [seedA] }) r34
/-- One seed in the ready queue of die 0, and core 0 next to be served. -/
def readyA (x : Seed) : State := r34.setImage 0 { r34.image 0 with ready := [x], served := 479 }
/-- A launch of one seed with a reserved slot on core 0, whose seed waits in the ready queue. -/
def conc : State :=
  let s := withCore (fun c => { c with slots := c.slots.set 1 { c.slots[1] with reserved := some 0 } }) (readyA { seedA with waits := true, tag := some 0, bound := some 0 })
  serve (fun v => { v with launches := [{ launch0 with seeds := [⟨0, 0⟩] }] }) s
theorem witness_Dispatching : r34.holdAt 0 = some (h0, 0) ∧ r34.open h0 c0 = true ∧
    (runnable7.open h0 c0 = true ∧ (runnable7.core c0).slotFree 1 = true ∧ picks (runnable7.core c0) 7) ∧
    (dequeA.open h0 c0 = true ∧ (dequeA.core c0).slotFree 1 = true ∧ picks (dequeA.core c0) 256 ∧ (dequeA.core c0).deque = [] ++ [seedA] ∧
      dequeA.steer h0 0 0 seedA = none ∧ seedA.part = (dequeA.core c0).part ∧ seedA.shipped = false) ∧
    (let s := readyA seedA; (s.core c0).candidates = [] ∧ s.serves 0 = some c0 ∧ s.firstOffer c0 = some (0, seedA) ∧
      s.offerSeed c0 seedA = .start h0 ∧ (s.core c0).slotFreeUnder seedA.part 1 = true) ∧
    (let x := { seedA with part := 0x103 }; let s := readyA x; (s.core c1).quiescent = true ∧ s.firstOffer c1 = some (0, x) ∧
      s.offerSeed c1 x = .start h0 ∧ x.part ≠ (s.core c1).part ∧ s.open h0 c1 = true) ∧
    ((conc.hold h0).serving.launches.find? fun l => l.key = 0) = some { launch0 with seeds := [⟨0, 0⟩] } ∧
    (∀ p ∈ [(⟨0, 0⟩ : Coord)], conc.concReady h0 0 p = true) :=
  ⟨by decide, by decide, ⟨by decide, by decide, picks_one (p := 0) (by decide) (by decide)⟩,
    ⟨by decide, by decide, picks_one (p := 0) (by decide) (by decide), by decide, by decide, by decide, by decide⟩,
    ⟨by decide, by decide +kernel, by decide, by decide, by decide⟩, ⟨by decide, by decide, by decide, by decide, by decide⟩, by decide, by decide⟩

/-- A seed in the deque of core 0, and core 1 idle. -/
def restored (x : Seed) : State := r34.setSlot free1 { (r34.slot free1) with restore := [x] }
def home0 : HomeRef := ⟨h0, 0, 0, 1⟩
def moving : Seed := { seedA with mig := some ⟨home0, 1, none, none⟩ }
def migrates : State := r34.setSlot free1 { (r34.slot free1) with migrating := some moving }
/-- The second die of the holding has a seed in its ready queue. -/
def gleans : State := let s := wide2 r34; s.setImage 1 { s.image 1 with ready := [seedA] }
theorem witness_SeedMoves : (dequeA.holdAt 0 = some (h0, 0) ∧ dequeA.open h0 c1 = true ∧ (dequeA.core c1).candidates = [] ∧ dequeA.firstOffer c1 = none ∧
      (dequeA.core c1).freeSlot.isSome = true ∧ dequeA.gleanVictim c1 = some (c0, 0) ∧ (dequeA.core c0).deque[0]? = some seedA ∧
      ((List.finRange 4).find? ((dequeA.core c1).slotFreeUnder seedA.part)) = some 0 ∧ dequeA.steer h0 0 0 seedA = none) ∧
    (gleans.holdAt 0 = some (h0, 0) ∧ (gleans.image 0).ready = [] ∧ gleans.open h0 ⟨0, 1⟩ = true ∧ (gleans.core ⟨0, 1⟩).freeSlot.isSome = true ∧
      ((gleanNeighbours 0 (gleans.hold h0).dies (gleans.image 0).gleanUp).find? fun y =>
        (gleans.image (gleans.dieOf h0 y.1)).ready.any (farGleanable y.1)) = some (1, false)) ∧
    (r34.holdAt 0 = some (h0, 0) ∧ (restored seedA).frozenHold h0 = false ∧ (restored seedA).retired c0 = false ∧
      ((restored seedA).slot free1).restore = [seedA] ∧ ((restored seedA).slot free1).parked = false) ∧
    (r34.task me = some (task [(3, 5), (4, 7)]) ∧ (r34.slot me).parked = false) ∧
    ((migrates.slot free1).migrating = some moving ∧ (migrates.core c0).plq = [] ∧ (migrates.core c0).drq = [] ∧ migrates.frozenHold h0 = false ∧
      (migrates.image ((migrates.fullDie h0 0).getD 0)).ready.length < 4096) := by decide

/-- A message to entry 7 of core 0, and one to its ring 2, in the network of the holding. -/
def toEntry : Packet := ⟨⟨0, 0⟩, { header := 0x70000, dec := 1 }, false⟩
def toRing : Packet := ⟨⟨0, 0⟩, { header := 0x400000020000, payload := [9] }, false⟩
def inNet (p : Packet) (s : State) : State := s.modHold h0 fun x => { x with net := [p] }
def ring2 : Handle := { init := true, base := 0xFFFFFFFFFFE02000, size := 8, slots := 4, prod := 1 }
def rung : State := inNet toRing (withCore (fun c => c.setHandle 2 ring2) r34)
def gone : State := let s := inNet toEntry r34; s.setDie 0 { s.die 0 with retired := [0] }
def record0 : Record := #v[0x31, 0, 0, 0, 0, 0, 0, 0]
def faulted : State := withCore (fun c => c.setTrigger 255 { state := .armed, count := 1 }) (r34.modHold h0 fun x => { x with faultQ := [record0] })
theorem witness_Deliveries : (let s := inNet toEntry (entry7 { state := .armed, count := 2 } r34);
      offered s h0 0 toEntry c0 ∧ s.retired c0 = false ∧ toEntry.msg.header.getLsbD 46 = false ∧ consumed ((s.core c0).trigger 7) toEntry.msg) ∧
    (let s := inNet toEntry r34; offered s h0 0 toEntry c0 ∧ ¬consumed ((s.core c0).trigger 7) toEntry.msg ∧
      (placeFor (s.core c0) toEntry.msg.cls).isSome = true) ∧
    (offered rung h0 0 toRing c0 ∧ rung.retired c0 = false ∧ toRing.msg.header.getLsbD 46 = true ∧ (rung.core c0).handle 2 = ring2) ∧
    (offered gone h0 0 toEntry c0 ∧ gone.retired c0 = true ∧ (gone.hold h0).faultQ.length < 64) ∧
    (faulted.supervisor h0 = some c0 ∧ (faulted.hold h0).faultQ = [record0] ∧ (faulted.hold h0).placed = true ∧ faulted.frozenHold h0 = false ∧
      ((faulted.core c0).trigger 255).state = .armed ∧ ((faulted.core c0).trigger 255).ret = false) := by
  simp only [offered, consumed]; decide +kernel

/-- Requests of die 0: for a page that the host maps, and for one that it does not. -/
def askA (st : AtsStage) : AtsReq := ⟨.gone, 0, 0x10000, true, false, false, st⟩
def asks (st : AtsStage) : State :=
  let s := r34.setDie 0 { r34.die 0 with ats := [askA st] }
  s.setFn (s.dieFn 0) { s.fn (s.dieFn 0) with priAlloc := 1 }
theorem witness_MemoryEvents : (asksHost (mapped (asks .asked)) 0 0 (askA .asked) ∧ ∃ t, (mapped (asks .asked)).answer (askA .asked) = .inl t) ∧
    (asksHost (asks .asked) 0 0 (askA .asked) ∧ (∃ c, (asks .asked).answer (askA .asked) = .inr c) ∧
      (asks .asked).pageRequests ((asks .asked).dieFn 0) < ((asks .asked).fn ((asks .asked).dieFn 0)).priAlloc.toNat) ∧
    (let q : AtsReq := { askA .repeated with who := .slot c0.idx 0 }; let s := r34.setDie 0 { r34.die 0 with ats := [q] };
      asksHost s 0 0 q ∧ (∃ c, s.answer q = .inr c) ∧ q.who ≠ .gone) ∧
    (let q : AtsReq := { askA (.paging 0x15 0) with who := .slot c0.idx 0 }; let s := r34.setDie 0 { r34.die 0 with ats := [q] };
      (s.die 0).ats[0]? = some q ∧ q.stage = .paging 0x15 0 ∧ q.who ≠ .gone) ∧
    (3 : Fin 4).val < (4 : Nat) ∧ (0 : Fin 4).val < r34.mode.toNat ∧ 0x10000 + 64 ≤ capacity r34.mode 0 :=
  ⟨⟨by simp only [asksHost]; decide, _, rfl⟩, ⟨by simp only [asksHost]; decide, ⟨_, rfl⟩, by decide⟩, ⟨by simp only [asksHost]; decide, ⟨_, rfl⟩, by decide⟩, by decide,
    by decide, by decide, by decide⟩

/-! ## Witnesses: headlands and holdings (16, 19) -/

/-- Port 0 is steward and the panel is at stage 7. -/
def led (s : State) : State := { s with bootStage := 7, numVfs := 63, steward := { s.steward with valid := true, port := 0, key := 5, deadline := 1000000 } }
def est0 (f : Estate → Estate) (s : State) : State := s.setEstate 0 (f (s.estate 0))
def modH (i : Fin 8) (f : Holding → Holding) (s : State) : State := s.modHold ⟨0, i⟩ f
/-- The panel without a task. -/
def calm : State := led (State.setSlot base me {})
/-- Regions whose time is 100. -/
def at100 (s : State) : State := { s with dies := s.dies.map fun x => { x with north := { x.north with count := 100 }, south := { x.south with count := 100 } } }
def pend (op : Nat) (f : Command → Command) (s : State) : State := est0 (fun x => { x with pending := some (f { op := op, hold := 0, time := 0, begun := true }) }) s
def phased (p : Phase) (s : State) : State := est0 (fun x => { x with phase := p }) s
/-- No ESTATE-RESET of estate 0 is under way. -/
theorem noReset {s : State} (h : (s.estate 0).pending.all (fun c => !(c.op == 9 && c.begun)) = true) : ¬estateResets s 0 := by
  rintro ⟨c, hc, ho, hb⟩
  simp [hc, ho, hb] at h
theorem witness_HeadlandsAndSwitches : (let s := est0 (fun x => { x with due := 0 }) calm; headlandDue s 0 ∧ s.deferring 0 = [] ∧ (s.estate 0).pending = none) ∧
    calm.panelNs < (calm.estate 0).due ∧
    (let s := phased (.draining 0 0 true [] []) calm; (s.estate 0).phase = .draining 0 0 true [] [] ∧ s.pausedTasks 0 = [] ∧ s.pmNext = none ∧
      (s.estate 0).saving = false ∧ (0 : Fin 4).val < s.mode.toNat) ∧
    (let s := at100 (phased (.moved 0 true [] []) calm); (s.estate 0).phase = .moved 0 true [] [] ∧ (s.estate 0).pending = none ∧ nothingHeld s 0 ∧
      s.timePassed 0 = true) ∧
    (let s := phased (.moved 0 true [] []) calm; 0 ∈ courseDies s.mode 0 ∧ (s.coreTime ⟨0, 0⟩).toNat < 32) ∧
    (calm.isOpen = true ∧ calm.isSteward 0 = true) ∧
    (let s := pend 5 id calm; (s.estate 0).phase = .running ∧ (s.estate 0).pending = some { op := 5, hold := 0, time := 0, begun := true } ∧
      s.panelNs + 15604 < (s.estate 0).due ∧ (s.estate 0).saving = false) ∧
    (let s := pend 5 id (phased (.draining 0 0 false [0] []) calm); (s.estate 0).phase = .draining 0 0 false [0] [] ∧ s.pausedTasks 0 = [] ∧ nothingHeld s 0) ∧
    estateResets (pend 9 id calm) 0 := by
  refine ⟨⟨⟨by decide +kernel, by decide +kernel⟩, by decide +kernel, by decide +kernel⟩, by decide +kernel, by decide +kernel,
    ⟨by decide +kernel, by decide +kernel, by unfold nothingHeld; decide +kernel, by decide +kernel⟩, by decide +kernel, by decide +kernel, by decide +kernel,
    ⟨by decide +kernel, by decide +kernel, by unfold nothingHeld; decide +kernel⟩, ⟨_, rfl, rfl, rfl⟩⟩

/-- HM.ARG with function 2, one die, watchdog 12, group `j` and share. -/
def arg2 (j share : Nat) : Estate → Estate := fun x => { x with hmArg := word (2 + 2 ^ 8 + 12 * 2 ^ 16 + 2 ^ 24 * j + 2 ^ 27 * share) }
theorem clean (s : State) (h : (s.estate 0).hmArg = 0) : argClean s 0 := ⟨0, 0, 0, 0, 0, 0, by simp [argIs, h]⟩
theorem steward_commands {s : State} {op : Nat} {i : Fin 8} {v : Word} (h : v.toNat = op + 2 ^ 8 * i.val ∧ s.isOpen = true ∧ s.isSteward 0 = true ∧
    (0 : Fin 4).val < s.mode.toNat ∧ (s.estate 0).phase = .running ∧ ((s.estate 0).pending = none ∨ op = 9) ∧ (s.estate 0).resetHeld = false ∧ s.pmNext = none ∧
    s.transplant.target ≠ some ⟨0, i⟩ ∧ s.harvest.stat.pending = false) : commands s 0 0 op i v := h
def hState (x : HoldState) (s : State) : State := modH 0 (fun h => { h with state := x }) s
/-- Function 2 is bound nowhere, and index 1 is ABSENT. -/
theorem created (s : State) (m : 1 ≤ courseLen s.mode 0 ∧ (s.hold ⟨0, 1⟩).state = .absent)
    (h : ∀ e i, (s.hold ⟨e, i⟩).state ≠ .absent → (s.hold ⟨e, i⟩).vf.toNat ≠ 2) : creates s 0 1 2 1 12 :=
  ⟨by unfold goodW; decide, by decide, m.1, by decide, by decide, m.2, fun g => h g.est g.ix⟩
theorem witness_HoldingManagement : (let s := est0 (arg2 0 0) calm;
      commands s 0 0 1 1 0x101 ∧ argIs s 0 2 1 12 0 0 0 ∧ creates s 0 1 2 1 12 ∧ (s.findRun 0 1).isSome = true) ∧
    (let s := est0 (arg2 0 1) calm; commands s 0 0 1 1 0x101 ∧ argIs s 0 2 1 12 0 1 0 ∧ creates s 0 1 2 1 12 ∧ (s.hold ⟨0, 0⟩).state ≠ .absent ∧ (s.hold ⟨0, 0⟩).dies = 1) ∧
    (let s := hState .stopped calm; commands s 0 0 2 0 2 ∧ commands s 0 0 4 0 4 ∧ argClean s 0 ∧ (s.hold ⟨0, 0⟩).state = .stopped) ∧
    (commands calm 0 0 5 0 5 ∧ argClean calm 0 ∧ (calm.hold ⟨0, 0⟩).state = .running) ∧
    (let s := hState .out calm; commands s 0 0 6 0 6 ∧ (s.hold ⟨0, 0⟩).state = .out ∧
      (let p := (s.hold ⟨0, 0⟩).position; s.runFallow 0 p 1 = true)) ∧
    (let s := est0 (arg2 0 0) calm; commands s 0 0 7 0 7 ∧ goodW 12 ∧ (s.hold ⟨0, 0⟩).state ≠ .absent) ∧
    (let s := pend 3 id calm; (s.estate 0).pending = some { op := 3, hold := 0, time := 0, begun := true } ∧ s.isOpen = true ∧ s.isSteward 0 = true) ∧
    (let s := led State.reset; s.isOpen = true ∧ s.isSteward 0 = true ∧ s.mode ≠ 1 ∧ s.pmNext = none ∧ (∀ e, (s.estate e).phase.gang = false) ∧
      ∀ e i, (s.hold ⟨e, i⟩).state = .absent) ∧
    ((calm.hold h0).state = .running ∧ (calm.hold h0).dies ≤ 8 ∧ (∀ e i, (⟨e, i⟩ : HoldRef) ≠ h0 → (calm.hold ⟨e, i⟩).state = .absent)) := by
  refine ⟨⟨steward_commands (by decide +kernel), ?_, ?_, by decide +kernel⟩, ⟨steward_commands (by decide +kernel), ?_, ?_, by decide +kernel⟩,
    ⟨steward_commands (by decide +kernel), steward_commands (by decide +kernel), clean _ (by decide +kernel), by decide +kernel⟩,
    ⟨steward_commands (by decide +kernel), clean _ (by decide +kernel), by decide +kernel⟩,
    ⟨steward_commands (by decide +kernel), by decide +kernel⟩, ⟨steward_commands (by decide +kernel), by unfold goodW; decide, by decide +kernel⟩,
    by decide +kernel, by decide +kernel, by decide +kernel⟩
  · unfold argIs; decide +kernel
  · exact created _ (by decide +kernel) (by decide +kernel)
  · unfold argIs; decide +kernel
  · exact created _ (by decide +kernel) (by decide +kernel)

theorem witness_HoldingResets : (commands calm 0 0 3 0 3 ∧ argClean calm 0 ∧ (calm.hold h0).state = .running) ∧
    (let s := pend 3 id calm; carries s 0 3 0 ∧ (s.hold h0).state = .running ∧ s.busy h0 = false ∧ s.enginesBusy h0 = false ∧ (s.serving h0).walker = []) ∧
    (commands calm 0 0 8 0 8 ∧ (calm.hold h0).state ≠ .absent ∧ (calm.hold h0).state ≠ .resetting) ∧
    (let s := pend 8 id (hState .resetting calm); carries s 0 8 0 ∧ (s.hold h0).state = .resetting ∧ s.enginesBusy h0 = false ∧ (s.hold h0).net = []) ∧
    commands calm 0 0 9 0 9 ∧ (let s := pend 9 id (hState .resetting calm); carries s 0 9 0 ∧
      (∀ k, (s.hold ⟨0, k⟩).state = .absent ∨ ((s.hold ⟨0, k⟩).state = .resetting ∧ s.enginesBusy ⟨0, k⟩ = false)) ∧
      s.fitSlices 0 [] = true) ∧
    (calm.holdOfFn 1 = some h0 ∧ (calm.hold h0).state ≠ .resetting ∧ (calm.estate 0).phase = .running) ∧
    (let s := phased (.draining 0 0 true [] []) calm; s.holdOfFn 1 = some h0 ∧ s.paused h0 = true) ∧
    (let s := hState .resetting calm; s.holdOfFn 1 = some h0 ∧ (s.hold h0).state = .resetting ∧ s.enginesBusy h0 = false ∧ (s.estate 0).pending = none) := by
  refine ⟨⟨steward_commands (by decide +kernel), clean _ (by decide +kernel), by decide +kernel⟩, ⟨⟨rfl, _, rfl, rfl, rfl, rfl⟩, by decide +kernel⟩,
    ⟨steward_commands (by decide +kernel), by decide +kernel⟩, ⟨⟨rfl, _, rfl, rfl, rfl, rfl⟩, by decide +kernel⟩, steward_commands (by decide +kernel),
    ⟨⟨rfl, _, rfl, rfl, rfl, rfl⟩, by decide +kernel⟩, by decide +kernel, by decide +kernel, by decide +kernel⟩

/-! ## Witnesses: launches and rings (18) -/

/-- A launch of the queue at 0x10000 is being loaded; two large pages are translated, the second with permissions of its own. -/
def entryAt (rec img kind : Nat) : List Byte := toBytes 8 rec ++ toBytes 8 img ++ toBytes 8 9 ++ toBytes 4 kind ++ List.replicate 36 0
/-- The header of a record of one core and four bytes of code, with a class, a partition word and a number of relocations. -/
def headerOf1 (cls part relocs : Nat) : List Byte := toBytes 8 0x14F4A4C4A ++ List.replicate 40 0 ++ [1] ++ toBytes 7 cls ++ toBytes 8 0x10001 ++ toBytes 8 part ++ toBytes 8 4 ++
  toBytes 8 4096 ++ List.replicate 16 0 ++ toBytes 8 relocs ++ List.replicate 128 0
def pages (read write : Bool) (s : State) : State :=
  { s with iommu := [⟨0, .m2, 0, 0, true, true, true, false⟩, ⟨0, .m2, 1, 0x200000, read, write, true, false⟩] }
def l0 : Loading := ⟨0, 0x10000, 0⟩
/-- Queue 0, whose one entry stands at 0x10000, and the entry as it is taken or while it is being loaded. -/
def lqOne : Serving → Serving := fun v => { v with lq := v.lq.set 0 { v.lq[0] with en := true, tail := 1, base := 0x10000 } }
def loadS (s : State) (at_ img kind : Nat) (header : List Byte) : State :=
  let s := serve (fun v => { lqOne v with loading := some l0 }) s
  { s with mem := Memory.write (Memory.write s.mem (stackAddr 4 0 0x10000) (entryAt at_ img kind)) (stackAddr 4 0 at_) header }
theorem mapM_some {α β : Type} (f : α → Option β) : ∀ l : List α, (∀ x ∈ l, f x ≠ none) → ∃ ys, l.mapM f = some ys ∧ ys.length = l.length
  | [], _ => ⟨[], rfl, rfl⟩
  | x :: l, h => by
    obtain ⟨y, hy⟩ := Option.ne_none_iff_exists'.1 (h x (by simp))
    obtain ⟨ys, hys, n⟩ := mapM_some f l fun z hz => h z (by simp [hz])
    exact ⟨y :: ys, by simp [List.mapM_cons, hy, hys], by simp [n]⟩
theorem sysRead_some {s : State} {e : Fin 4} {p : BitVec 20} {a n : Nat} (h : ∀ i < n, s.sysByte e p false ((a + i) % 2 ^ 64) ≠ none) :
    ∃ bs, s.sysRead e p a n = some bs ∧ bs.length = n := by
  obtain ⟨ks, hk, hl⟩ := mapM_some (fun i => s.sysByte e p false ((a + i) % 2 ^ 64)) (List.range n) (by simpa using h)
  exact ⟨ks.map s.getSys, by rw [State.sysRead, State.sysBytes, hk]; rfl, by simpa using hl⟩
theorem sysWrite_some {s : State} {e : Fin 4} {p : BitVec 20} {a : Nat} {bs : List Byte} (h : ∀ i < bs.length, s.sysByte e p true ((a + i) % 2 ^ 64) ≠ none) :
    ∃ ks, s.sysWrite e p a bs = some (s.putSys ks) := by
  obtain ⟨ks, hk, _⟩ := mapM_some (fun i => s.sysByte e p true ((a + i) % 2 ^ 64)) (List.range bs.length) (by simpa using h)
  exact ⟨ks.zip bs, by rw [State.sysWrite, State.sysBytes, hk]; rfl⟩
/-- What a write of bytes leaves as it is. -/
def Stays {α : Type} (f : State → α) : Prop := ∀ s ws, f (s.putSys ws) = f s
theorem stays_byte (e : Fin 4) (p : BitVec 20) (w : Bool) (a : Nat) : Stays fun s => s.sysByte e p w a := fun s ws => by
  unfold State.putSys; cases hostWrites ws <;> rfl
theorem stays_ats : Stays fun s => (s.die (s.dieOf h0 0)).ats := fun s ws => by unfold State.putSys; cases hostWrites ws <;> rfl
theorem copied_some {e : Fin 4} {p : BitVec 20} : ∀ (bs : List Byte) (dst : Nat) (s : State),
    (∀ i < bs.length, s.sysByte e p true ((dst + i) % 2 ^ 64) ≠ none) →
    ∃ q, copied e p dst bs s q ∧ ∀ {α : Type} (f : State → α), Stays f → f q = f s
  | [], _, s, _ => ⟨s, rfl, fun _ _ => rfl⟩
  | b :: bs, dst, s, h => by
    obtain ⟨ks, hk⟩ := sysWrite_some (s := s) (e := e) (p := p) (a := dst % 2 ^ 64) (bs := [b]) fun i hi => by
      obtain rfl : i = 0 := by simpa using hi
      rw [Nat.add_zero, Nat.mod_mod]; exact h 0 (by simp)
    obtain ⟨q, hq, eq⟩ := copied_some bs (dst + 1) (s.putSys ks) fun i hi => by
      have k := h (i + 1) (by simpa using hi)
      rw [← Nat.add_assoc, Nat.add_right_comm] at k
      exact fun z => k ((stays_byte e p true _ s ks).symm.trans z)
    exact ⟨q, ⟨_, hk, hq⟩, fun f hf => by rw [eq f hf, hf]⟩
/-- A resident entry whose record follows it, of a class. -/
def resS (cls : Nat) : State := pages true true (loadS calm 0x10040 0 1 (headerOf1 cls 3 0))
/-- An entry whose image is copied to the second page, its record's header at `at_`. -/
def copied0 (s : State) (at_ relocs : Nat) : State := loadS s at_ 0x200000 0 (headerOf1 0 3 relocs)
theorem wordsOf_one (n : Nat) (bs : List Byte) (P : Word → Prop) (h : (wordsOf n bs).length = n ∧ n ≤ 1 ∧ P ((wordsOf n bs).headD 0)) : ∀ w ∈ wordsOf n bs, P w := by
  obtain ⟨l, n1, p⟩ := h
  revert l p
  cases wordsOf n bs with
  | nil => simp
  | cons w ws => cases ws with
    | nil => simp
    | cons => simp; omega
theorem reading {s : State} {bs hd rel : List Byte} (h : (s.sysRead 0 0 0x10000 64 = some bs ∧ ¬entryBad bs ∧ s.sysRead 0 0 (field bs 0 8) 240 = some hd ∧
    recordBad hd (s.hold h0).dies = false) ∧ s.sysRead 0 0 (field bs 0 8 + 240) (8 * (parseRecord hd).relocs) = some rel ∧
    ((wordsOf (parseRecord hd).relocs rel).length = (parseRecord hd).relocs ∧ (parseRecord hd).relocs ≤ 1 ∧
      (parseRecord hd).relocBad ((wordsOf (parseRecord hd).relocs rel).headD 0).toNat = false)) : recordRead s h0 l0 bs hd rel :=
  ⟨⟨⟨h.1.1, h.1.2.1⟩, h.1.2.2⟩, h.2.1, wordsOf_one _ _ _ h.2.2⟩
/-- A byte of the first large page, and one of the second that is readable and writable, is translated. -/
theorem sysByte_pages {s : State} {r w : Bool} (hm : s.mode = 4) (write : Bool) {a : Nat} (h : a < 2 ^ 21 ∨ (a < 2 ^ 22 ∧ (if write then w else r) = true)) :
    (pages r w s).sysByte 0 0 write (a % 2 ^ 64) ≠ none := by
  have c : 2 ^ 22 < capacity s.mode 0 := by rw [hm]; decide
  rw [Nat.mod_eq_of_lt (show a < 2 ^ 64 by omega)]
  unfold State.sysByte State.iommuMap
  by_cases l : a < 2 ^ 21
  · simp [pages, TlbEntry.covers, entryOf, pageBytes, show a < 2097152 by omega, show a < capacity s.mode 0 by omega]
  · have g : (if write then w else r) = true := (h.resolve_left l).2
    have b : a < 2 ^ 22 := h.elim (fun x => by omega) And.left
    simp [pages, TlbEntry.covers, entryOf, pageBytes, show ¬a < 2097152 by omega, show 2097152 ≤ a by omega, show a < 2097152 + 2097152 by omega, g,
      show a < capacity s.mode 0 by omega]
/-- The image of such an entry is read, and copied where the second page is writable. -/
theorem image_copied {s : State} {r w : Bool} (hm : s.mode = 4) (ea : Nat) (h : ea + 4096 ≤ 2 ^ 21) :
    ∃ rest, (pages r w s).sysRead 0 0 ea 4096 = some rest ∧ rest.length = 4096 ∧ (w = true → ∃ n, copied 0 0 0x200000 rest (pages r w s) n ∧
      ∀ {α : Type} (f : State → α), Stays f → f n = f (pages r w s)) := by
  obtain ⟨rest, hr, hl⟩ := sysRead_some (s := pages r w s) (e := 0) (p := 0) (a := ea) (n := 4096) fun i hi => sysByte_pages hm false (.inl (by omega))
  exact ⟨rest, hr, hl, fun hw => copied_some _ _ _ fun i hi => sysByte_pages hm true (.inr ⟨by omega, hw⟩)⟩
def relWord : List Byte := List.replicate 8 0
def lone : State := copied0 calm 0x10040 1
theorem lone_reading (r w : Bool) : recordRead (pages r w lone) h0 l0 (entryAt 0x10040 0x200000 0) (headerOf1 0 3 1) relWord := by
  refine reading ?_
  revert r w; unfold entryBad; decide +kernel
/-- An entry that is resident, its launch of a class, and one whose image is copied to the second page and relocated. -/
theorem witness_LaunchPlaces : (∀ cls ∈ [0, 2], ∃ bs hd, takesEntry (resS cls) h0 l0 (resS cls) ∧ recordRead (resS cls) h0 l0 bs hd [] ∧
      (resS cls).launchRoom h0 (parseRecord hd) = true ∧ (parseRecord hd).cls.toNat = cls ∧
      (∀ c ∈ (resS cls).regionCores h0 (parseRecord hd), illFormed (launchSeed (resS cls) h0 l0 bs hd c) ((resS cls).hold h0).dies = false) ∧
      concurrentFits (resS cls) h0 (parseRecord hd) ∧ (((resS cls).regionCores h0 (parseRecord hd)).map fun c => (resS cls).coreAt h0 c.hx c.hy).Nodup ∧
      field bs 24 4 = 1 ∧ ∀ x ∈ ((resS cls).serving h0).launches, x.key ≠ (resS cls).nextId) ∧
    (let s := pages true true lone; ∃ bs hd rel rest m, takesEntry s h0 l0 s ∧ recordRead s h0 l0 bs hd rel ∧ s.launchRoom h0 (parseRecord hd) = true ∧
      (∀ c ∈ s.regionCores h0 (parseRecord hd), illFormed (launchSeed s h0 l0 bs hd c) (s.hold h0).dies = false) ∧ (parseRecord hd).cls ≠ 2 ∧
      imageLoaded s m h0 l0 bs hd rel rest ∧ field bs 24 4 = 0 ∧ ∀ x ∈ (s.serving h0).launches, x.key ≠ s.nextId) := by
  constructor
  · have all : ∀ cls ∈ [0, 2], takes (resS cls) h0 ∧ ((resS cls).serving h0).loading = some l0 := by unfold takes; decide +kernel
    intro cls hc
    refine ⟨entryAt 0x10040 0 1, headerOf1 cls 3 0, ⟨(all cls hc).1, .inl ⟨(all cls hc).2, rfl⟩⟩, reading ?_, ?_⟩
    · revert cls; unfold entryBad; decide +kernel
    · revert cls; unfold concurrentFits; decide +kernel
  · have t : takes (pages true true lone) h0 ∧ ((pages true true lone).serving h0).loading = some l0 := by unfold takes; decide +kernel
    obtain ⟨rest, hr, hl, hc⟩ := image_copied (s := lone) (r := true) (w := true) (by decide) 0x10138 (by decide)
    obtain ⟨n, hn, eq⟩ := hc rfl
    have byte : ∀ w, ∀ i < 8, n.sysByte 0 0 w ((0x200000 + i) % 2 ^ 64) ≠ none := fun w i hi => by
      rw [show n.sysByte 0 0 w ((0x200000 + i) % 2 ^ 64) = _ from eq _ (stays_byte 0 0 w _)]
      exact sysByte_pages (s := lone) (by decide) w (.inr ⟨by omega, by cases w <;> rfl⟩)
    obtain ⟨old, ho, -⟩ := sysRead_some (byte false)
    obtain ⟨ks, hk⟩ := sysWrite_some (s := n) (e := 0) (p := 0) (a := 0x200000) (bs := bytesOf [word (ofBytes old + 0x200000)]) fun i hi => byte true i (by simpa [bytesOf, toBytes] using hi)
    refine ⟨entryAt 0x10040 0x200000 0, headerOf1 0 3 1, relWord, rest, n.putSys ks, ⟨t.1, .inl ⟨t.2, rfl⟩⟩, lone_reading true true, by decide +kernel, by decide +kernel,
      by decide +kernel, ⟨fun h => absurd h (by decide), fun _ => ⟨hr, n, ?_, ?_⟩⟩, by decide, by decide +kernel⟩
    · exact hn
    · exact ⟨old, _, ho, hk, rfl⟩
/-- The loader's request of a page has failed. -/
def failed0 (page : Nat) : AtsReq := ⟨.loader h0, 0, page, true, true, false, .failed 0x15⟩
def denied (page : Nat) (s : State) : State := s.setDie 0 { s.die 0 with ats := [failed0 page] }
theorem denies {m : State} {x : Nat} {w : Bool} (h : (m.die (m.dieOf h0 0)).ats = [failed0 (page4k x)]) : neverMapped m h0 l0 x w :=
  .inl ⟨[], failed0 (page4k x), [], 0x15, h, by simp, ⟨rfl, rfl, rfl⟩, rfl⟩
theorem misses {m : State} {x len : Nat} {w : Bool} (h : 0 < len ∧ x % 2 ^ 64 = x ∧ m.sysByte 0 0 w x = none) : firstMiss m 0 0 w x len x :=
  ⟨0, h.1, by rw [Nat.add_zero]; exact h.2.1.symm, h.2.2, fun j hj => absurd hj (by omega)⟩
/-- A record whose entry, class or relocation is ill-formed, and a concurrent launch on a core whose four slots are reserved. -/
def badS (kind cls rel : Nat) : State := pages true true (loadS calm 0x10040 0 kind (headerOf1 cls 3 1 ++ toBytes 8 rel))
def reservedS : State := pages true true (loadS (withCore (fun c => { c with slots := c.slots.map fun x => { x with reserved := some 9 } }) calm) 0x10040 0 1 (headerOf1 2 3 0))
theorem witness_LaunchRefusals : ((badS 2 0 0).sysRead 0 0 l0.entry 64 = some (entryAt 0x10040 0 2) ∧ entryBad (entryAt 0x10040 0 2) ∧ takes (badS 2 0 0) h0 ∧
      ((badS 2 0 0).serving h0).loading = some l0) ∧
    ((badS 1 3 0).sysRead 0 0 l0.entry 64 = some (entryAt 0x10040 0 1) ∧ (badS 1 3 0).sysRead 0 0 0x10040 240 = some (headerOf1 3 3 1) ∧
      recordBad (headerOf1 3 3 1) ((badS 1 3 0).hold h0).dies = true) ∧
    ((badS 1 0 4).sysRead 0 0 l0.entry 64 = some (entryAt 0x10040 0 1) ∧ ¬entryBad (entryAt 0x10040 0 1) ∧ (badS 1 0 4).sysRead 0 0 0x10040 240 = some (headerOf1 0 3 1) ∧
      recordBad (headerOf1 0 3 1) ((badS 1 0 4).hold h0).dies = false ∧ (badS 1 0 4).sysRead 0 0 (0x10040 + 240) 8 = some (toBytes 8 4) ∧
      wordsOf 1 (toBytes 8 4) = [4] ∧ (parseRecord (headerOf1 0 3 1)).relocBad 4 = true) ∧
    (takes reservedS h0 ∧ (reservedS.serving h0).loading = some l0 ∧ recordRead reservedS h0 l0 (entryAt 0x10040 0 1) (headerOf1 2 3 0) [] ∧
      (parseRecord (headerOf1 2 3 0)).cls = 2 ∧ ¬concurrentFits reservedS h0 (parseRecord (headerOf1 2 3 0)) ∧ field (entryAt 0x10040 0 1) 24 4 = 1) := by
  refine ⟨?_, by decide +kernel, ?_, ?_, ?_, reading ?_, by decide, ?_, by decide⟩ <;> (try simp only [entryBad, takes, concurrentFits]) <;> decide +kernel
/-- The loader comes to an entry, a header, relocations and an image that it can never read, and to an image that it can never write or relocate. -/
theorem witness_EntryFaults : (let s := denied 0x10000 (loadS calm 0x10040 0 1 (headerOf1 0 3 0)); (takes s h0 ∧ (s.serving h0).loading = some l0) ∧
      comesToRead s h0 l0 0 0x10000 64 ∧ firstMiss s 0 0 false 0x10000 64 0x10000 ∧ neverMapped s h0 l0 0x10000 false) ∧
    (let s := pages false true (denied 0x200000 (loadS calm 0x200000 0 0 [])); (takes s h0 ∧ (s.serving h0).loading = some l0) ∧
      comesToRead s h0 l0 9 0x200000 240 ∧ firstMiss s 0 0 false 0x200000 240 0x200000 ∧ neverMapped s h0 l0 0x200000 false) ∧
    (let s := pages false true (denied 0x200000 (copied0 calm 0x1FFF10 1)); (takes s h0 ∧ (s.serving h0).loading = some l0) ∧
      comesToRead s h0 l0 9 0x200000 8 ∧ firstMiss s 0 0 false 0x200000 8 0x200000 ∧ neverMapped s h0 l0 0x200000 false) ∧
    (let s := { copied0 calm 0x1FFF10 0 with iommu := [⟨0, .m2, 0, 0, true, true, true, false⟩, ⟨0, .m2, 1, 2 ^ 48, true, true, true, false⟩] }; (takes s h0 ∧ (s.serving h0).loading = some l0) ∧
      comesToRead s h0 l0 9 0x200000 4096 ∧ firstMiss s 0 0 false 0x200000 4096 0x200000 ∧ neverMapped s h0 l0 0x200000 false) := by
  refine ⟨⟨?_, .inl ⟨rfl, rfl, rfl⟩, misses (by decide +kernel), denies (by decide +kernel)⟩,
    ⟨?_, .inr (.inl ⟨entryAt 0x200000 0 0, ⟨?_, ?_⟩, by decide, by decide, rfl⟩), misses (by decide +kernel), denies (by decide +kernel)⟩,
    ⟨?_, .inr (.inr (.inl ⟨entryAt 0x1FFF10 0x200000 0, headerOf1 0 3 1, ⟨⟨?_, ?_⟩, ?_, ?_⟩, by decide, by decide, by decide⟩)), misses (by decide +kernel), denies (by decide +kernel)⟩,
    ⟨?_, .inr (.inr (.inr ⟨entryAt 0x1FFF10 0x200000 0, headerOf1 0 3 0, [], reading ?_, ?_, by decide, by decide, by decide⟩)), misses (by decide +kernel), .inr ⟨?_, ?_⟩⟩⟩
  all_goals try (unfold takes; decide +kernel)
  all_goals try (unfold entryBad; decide +kernel)
  all_goals try decide +kernel
theorem witness_ImageFaults : (let s := pages true false (denied 0x200000 lone); ∃ m tag, (takes s h0 ∧ (s.serving h0).loading = some l0) ∧
      comesToWrite s m h0 l0 tag 0x200000 true ∧ neverMapped m h0 l0 0x200000 true) ∧
    (let s := pages false true (denied 0x200000 lone); ∃ m tag, (takes s h0 ∧ (s.serving h0).loading = some l0) ∧
      comesToWrite s m h0 l0 tag 0x200000 false ∧ neverMapped m h0 l0 0x200000 false) := by
  have rd : ∀ r w, recordRead (pages r w (denied 0x200000 lone)) h0 l0 (entryAt 0x10040 0x200000 0) (headerOf1 0 3 1) relWord := fun r w => by
    refine reading ?_
    revert r w; unfold entryBad; decide +kernel
  have room : ∀ r w, (pages r w (denied 0x200000 lone)).launchRoom h0 (parseRecord (headerOf1 0 3 1)) = true := by decide +kernel
  constructor
  · obtain ⟨rest, hr, hl, -⟩ := image_copied (s := denied 0x200000 lone) (r := true) (w := false) (by decide) 0x10138 (by decide)
    obtain ⟨b, post, e⟩ : ∃ b post, rest = b :: post := by
      cases rest with
      | nil => cases hl
      | cons b post => exact ⟨b, post, rfl⟩
    refine ⟨_, 9, by unfold takes; decide +kernel, ⟨_, _, _, rest, rd true false, fun _ => room _ _, by decide, by decide, hr, .inl ⟨[], b, post, e, rfl, rfl, rfl, by decide +kernel⟩⟩,
      denies (by decide +kernel)⟩
  · obtain ⟨rest, hr, hl, hc⟩ := image_copied (s := denied 0x200000 lone) (r := false) (w := true) (by decide) 0x10138 (by decide)
    obtain ⟨n, hn, eq⟩ := hc rfl
    refine ⟨n, 9, by unfold takes; decide +kernel, ⟨_, _, _, rest, rd false true, fun _ => room _ _, by decide, by decide, hr,
      .inr ⟨n, [], 0, [], by decide, hn, rfl, misses ⟨by decide, by decide, ?_⟩, by simp⟩⟩, denies ?_⟩
    · exact (eq _ (stays_byte 0 0 false 0x200000)).trans (by decide +kernel)
    · exact (eq _ stays_ats).trans (by decide +kernel)
/-- The one queue with an entry is chosen, and its head advances. -/
def choosing : State := serve lqOne calm
theorem witness_LaunchChoice : ∃ s1, takesEntry choosing h0 l0 s1 := by
  have t : takes choosing h0 ∧ (choosing.serving h0).loading = none := by unfold takes; decide +kernel
  have c : ((choosing.hold h0).chooseQueue.map fun p => (⟨p.1, p.2.serving.lq[p.1].base.toNat + 64 * p.2.serving.lq[p.1].head.toNat, p.2.serving.lq[p.1].pasid⟩ : Loading)) = some l0 := by
    decide +kernel
  match e : (choosing.hold h0).chooseQueue with
  | none => rw [e] at c; cases c
  | some (q, x) =>
    rw [e] at c
    exact ⟨_, t.1, .inr ⟨t.2, q, x, e, (Option.some.inj c).symm, rfl⟩⟩
theorem witness_LaunchEnds : (let s := serve (fun v => { v with launches := [launch0] }) calm; ((s.serving h0).launches.find? fun x => x.key = launch0.key) = some launch0 ∧
      s.work h0 launch0 = false ∧ (s.serving h0).waitingCq.length < 64) ∧
    (let v : Serving := { lq := Vector.ofFn fun i => if i.val < 2 then { en := true, tail := 1 } else {} }; v.contenders = [0, 1] ∧
      v.lq[0].pasid = v.lq[1].pasid ∧ v.lq[0].prio = v.lq[1].prio ∧ 0 < v.lq[0].tickets.toNat ∧ 0 < v.lq[1].tickets.toNat) ∧
    ownsRegister calm 1 h0 ∧ (word 0x10000).getLsbD 16 = true ∧ ((calm.serving h0).ring .completion).en = false ∧ (calm.serving h0).waitingCq = [] ∧
    (let x : Retirement := ⟨5, 1, 2, 0, 0, [4], 0, 0, none⟩; ((serve (fun v => { v with walker := [x] }) calm).serving h0).walker = [x] ∧ x.left = [4]) ∧
    (let x : Retirement := ⟨5, 1, 2, 0, 0, [], 0, 0, none⟩; let cq : Ring := { en := true, base := 0x10000 };
      let s := mapped (serve (fun v => { v with cq := cq, walker := [x] }) calm);
      (s.serving h0).walker = [x] ∧ (s.serving h0).cq = cq ∧ (s.serving h0).cqStuck = false ∧ ringNext cq cq.tail ≠ cq.head ∧
      (s.sysWrite 0 0 0x10000 (List.replicate 32 0)).isSome = true) := by
  refine ⟨by decide +kernel, by decide +kernel, ?_, by decide, by decide +kernel, by decide +kernel, by decide +kernel, by decide +kernel⟩
  unfold ownsRegister; decide +kernel

/-! ## Witnesses: the host (20, 21) -/

theorem witness_StewardAndRegisters : calm.isOpen = true ∧ calm.isSteward 0 = true ∧ calm.isSteward 1 = false ∧ calm.steward.key = 5 ∧
    (word 5).extractLsb' 0 16 = calm.steward.key ∧ ownsRegister calm 1 h0 ∧ (0 : Fin 4).val < calm.mode.toNat ∧
    (let s := calm.setFn 1 { calm.fn 1 with vecPend := vset (Vector.replicate 3 false) 2 true }; (s.fn 1).fnMask = false ∧
      (s.fn 1).vecPend = vset (Vector.replicate 3 false) 2 true) := by
  unfold ownsRegister; decide +kernel
/-- HC.ARG of function 1 names core (0, 0) and slot 1. -/
def hcS (k : Nat) (s : State) : State := s.setFn 1 { s.fn 1 with hcArg := word (2 ^ 32 * k), hcLen := 4096 }
def parkedAt1 (t : Option Task) : State := calm.setSlot free1 { task := t, parked := true, halted := t.isSome }
theorem hc_names (s : State) (k : Nat) (h : (s.fn 1).hcArg.toNat = 2 ^ 32 * k ∧ (s.hold h0).placed = true ∧ s.inGrid h0 0 0 = true ∧ s.retired (s.coreAt h0 0 0) = false) :
    hcNames s 1 h0 0 0 k := ⟨⟨0, 0, by decide, by decide, by omega⟩, by decide, by decide, h.2⟩
theorem witness_HostCommands : (let s := hcS 1 calm; hcReady s 1 0 h0 ∧ hcNames s 1 h0 0 0 1 ∧ (s.slot free1).parked = false ∧
      s.haltedGuest ⟨h0, 0, 0, 1⟩ = none ∧ s.coreAt h0 0 0 = c0) ∧
    (let s := hcS 1 (parkedAt1 (some (task []))); hcReady s 1 0 h0 ∧ hcNames s 1 h0 0 0 1 ∧ (s.slot free1).parked = true ∧ (s.slot free1).halted = true ∧
      s.task free1 = some (task [])) ∧
    (let s := hcS 5 (parkedAt1 none); hcReady s 1 0 h0 ∧ hcNames s 1 h0 0 0 5 ∧ (s.slot free1).parked = true ∧ s.task free1 = none) ∧
    (let s := hcS 0 calm; hcReady s 1 0 h0 ∧ (s.fn 1).hcArg = 0 ∧ (s.estate 0).inPause = false ∧ (s.hold h0).placed = true ∧ s.parkedOf h0 = [] ∧
      512 + 32 * (s.hold h0).dies ≤ (s.fn 1).hcLen.toNat) ∧
    (let s := hcS 0 (phased (.draining 0 0 true [] []) calm); hcReady s 1 0 h0 ∧ (s.estate 0).inPause = true) ∧
    (let s := calm.setFn 1 { calm.fn 1 with hcPending := true }; hcReaches s 1 0 h0 ∧ (s.fn 1).hcPending = true) := by
  refine ⟨⟨?_, hc_names _ _ (by decide +kernel), by decide +kernel⟩, ⟨?_, hc_names _ _ (by decide +kernel), by decide +kernel⟩,
    ⟨?_, hc_names _ _ (by decide +kernel), by decide +kernel⟩, ⟨?_, by decide +kernel⟩, ⟨?_, by decide +kernel⟩, ?_, by decide +kernel⟩ <;>
    (simp only [hcReady, hcReaches, ownsRegister]; decide +kernel)
theorem witness_Services : (List.replicate 32 500).length = 32 ∧
    (List.replicate 32 500000).foldl (· + ·) 0 > 1000 * calm.power.env.toNat - 0 ∧ calm.retired c0 = false ∧
    (calm.estate (estOf calm.mode c0.die.val)).inPause = false ∧
    (let s := phased (.draining 0 0 true [] []) calm; (s.estate (estOf s.mode c0.die.val)).inPause = true ∧ s.retired c0 = false) ∧
    calm.isOpen = true ∧ calm.isSteward 0 = true ∧ calm.health.stat.pending = false ∧ hlthNames 0 c0 ∧
    (let s := calm.setDie 0 { calm.die 0 with retired := [0] }; s.retired c0 = true) ∧ (2 : BitVec 2) ≠ 3 :=
  ⟨by decide, by decide +kernel, by decide +kernel, by decide +kernel, by decide +kernel, by decide +kernel, by decide +kernel, by decide +kernel,
    ⟨0, 0, 0, by decide, by decide, by decide, by decide, by decide⟩, by decide +kernel, by decide⟩

/-! ## Witnesses: collectives, transplants, harvests (20) -/

def linkUp (s : State) : State := { s with links := s.links.set 2 { s.links[2] with state := 2 } }
/-- A SUM of one FP32 element with peer 7 over link 2, at 0x10000; its descriptor at 0x10040, the peer list at 0x10080, the tail at 0x10088. -/
def descBytes : List Byte := [0, 1, 4, 0] ++ toBytes 4 1 ++ toBytes 8 0x10000 ++ toBytes 8 0 ++ toBytes 8 0x10080 ++ List.replicate 32 0
def coll : Collective := ⟨0, 0, 4, 1, 0x10000, 0, [7], 0, 0⟩
def ringCr : Serving → Serving := fun v => { v with cr := { v.cr with en := true, base := 0x10040 }, crTaddr := 0x10088 }
def crS : State := let s := mapped (serve ringCr calm); { s with mem := Memory.write s.mem (stackAddr 4 0 64) (descBytes ++ toBytes 8 7 ++ toBytes 8 1) }
def inColl (s : State) : State := mapped (serve (fun v => { v with collectives := [coll] }) s)
theorem witness_Collectives : (let v := crS.serving h0; v.cr.en = true ∧ (crS.hold h0).state ≠ .resetting ∧ crS.sysRead 0 v.cr.pasid v.crTaddr.toNat 8 = some (toBytes 8 1) ∧
      v.cr.head ≠ v.cr.index (word (ofBytes (toBytes 8 1))) ∧ ringNext v.cr v.cr.head = v.cr.index (word (ofBytes (toBytes 8 1))) ∧ v.collectives.length < 8 ∧
      crS.sysRead 0 v.cr.pasid (v.cr.base.toNat + 64 * v.cr.head.toNat) 64 = some descBytes ∧ descBad descBytes = false ∧
      crS.sysRead 0 v.cr.pasid (field descBytes 24 8) (8 * field descBytes 1 1) = some (toBytes 8 7) ∧ peersBad (wordsOf 1 (toBytes 8 7)) = false) ∧
    ((inColl calm).serving h0).collectives[0]? = some coll ∧ (inColl calm).linksUp coll = false ∧ (inColl (linkUp calm)).linksUp coll = true ∧
    (∀ p ∈ coll.peers, ∃ b ∈ [((7 : BitVec 48), toBytes 4 0x3F800000)], b.1 = p ∧ b.2.length = 4 * coll.count) ∧
    (∃ own, (inColl (linkUp calm)).sysRead 0 coll.pasid coll.buffer.toNat 4 = some own) ∧
    (∃ s1, (inColl (linkUp calm)).sysWrite 0 coll.pasid coll.buffer.toNat [0, 0, 128, 63] = some s1) ∧
    (inColl calm).panelNs < coll.since + 1000000 * (inColl calm).collTmo.toNat ∧
    (let s := { inColl calm with panelNs := 1000000000 }; coll.since + 1000000 * s.collTmo.toNat ≤ s.panelNs) ∧
    (∃ c : Collective, c.op = 2 ∧ c.count = 1) :=
  ⟨by decide +kernel, by decide +kernel, by decide +kernel, by decide +kernel, fun p h => ⟨(7, toBytes 4 0x3F800000), by simp, by simp_all [coll], by decide⟩,
    ⟨_, rfl⟩, ⟨_, rfl⟩, by decide +kernel, by decide +kernel, { coll with op := 2 }, rfl, rfl⟩

def trS (f : Transplant → Transplant) (s : State) : State := { s with transplant := f s.transplant }
def ticket0 : Vector Word 4 := #v[1, 0x10000, 2, 3]
def outside : Peer := { pkg := 1, ticket := ticket0, hold := { state := .stopped, vf := 9, dies := 1 } }
/-- Index 1 is ABSENT, a link is up, and the ticket's holding has one die. -/
def arriving : State := trS (fun x => { x with ticket := ticket0 }) (linkUp calm)
theorem witness_TransplantsAndHarvests : (let s := hState .stopped calm; engineCommand s 0 1 h0 1 ∧ s.transplant.stat.pending = false ∧ (s.hold h0).state = .stopped ∧
      (s.hold h0).dies < 256) ∧
    (engineCommand calm 0 1 h0 1 ∧ (calm.hold h0).state ≠ .stopped) ∧
    (let s := modH 0 (fun x => { x with state := .stopped, exported := some ticket0 }) (trS (fun x => { x with ticket := ticket0 }) calm); (s.hold h0).exported = some ticket0) ∧
    (engineCommand arriving 0 2 ⟨0, 1⟩ 0x102 ∧ arriving.transplant.stat.pending = false ∧ (arriving.hold ⟨0, 1⟩).state = .absent ∧
      (arriving.findRun 0 ((arriving.transplant.ticket[1]).toNat / 2 ^ 16 % 2 ^ 8)).isSome = true ∧ ∃ k : Fin 16, (arriving.links[k]).state = 2) ∧
    (let s := trS (fun x => { x with target := some ⟨0, 1⟩ }) { arriving with peers := [outside] };
      s.transplant.target = some ⟨0, 1⟩ ∧ (s.peers.find? fun p => p.ticket = s.transplant.ticket) = some outside ∧
      (∀ e i, (s.hold ⟨e, i⟩).state ≠ .absent → (s.hold ⟨e, i⟩).vf ≠ outside.hold.vf) ∧ (s.findRun 0 1).isSome = true) ∧
    (let s := modH 0 (fun x => { x with state := .stopped, exported := some ticket0, granted := true }) calm;
      s.transplant.target ≠ some h0 ∧ (s.hold h0).granted = true ∧ (s.hold h0).exported.isSome = true ∧ (s.hold h0).state = .stopped) := by
  simp only [engineCommand]; decide +kernel

/-- A row of a harvest table of one content of 8 bytes, its entry, and a state in which the table stands in the host's memory. -/
def hvRow (kind shard shards src dest : Nat) : List Byte := toBytes 4 kind ++ toBytes 2 shard ++ toBytes 2 shards ++ toBytes 8 8 ++ toBytes 8 src ++ toBytes 8 dest
def hvE (kind shard shards src dest : Nat) : HvEntry := ⟨kind, 0, 0, shard, shards, 8, src, dest⟩
def hvS (rows : List (List Byte)) (s : State) : State :=
  { s with hostMem := Memory.write s.hostMem 0x1000 rows.flatten, harvest := { s.harvest with tab := 0x1000, n := BitVec.ofNat _ rows.length } }
def rowA : List Byte := hvRow 1 0 1 0x10200 0x10000
def entryA : HvEntry := hvE 1 0 1 0x10200 0x10000
def cutting (rows : List (List Byte)) (s : State) : State := let s := hvS rows s; { s with harvest := { s.harvest with cut := some h0, ready := true } }
theorem witness_Harvests : (let s := hvS [rowA] (mapped calm); engineCommand s 0 1 h0 1 ∧ s.harvest.stat.pending = false ∧ (s.estate 0).pending = none ∧
      (s.estate 0).resetHeld = false ∧ (s.hold h0).state = .running ∧ s.hvTable = [entryA]) ∧
    ((est0 (fun x => { x with resetHeld := true }) calm).estate 0).resetHeld = true ∧ ¬malformed entryA ∧
    (let s := hvS [hvRow 4 0 1 0x10200 0x10000] calm; s.hvTable = [hvE 4 0 1 0x10200 0x10000] ∧ malformed (hvE 4 0 1 0x10200 0x10000)) ∧
    ((hState .out calm).hold h0).state = .out ∧
    (let s := cutting [rowA] (mapped calm); s.harvest.cut = some h0 ∧ s.harvest.ready = true ∧ s.hvTable = [entryA] ∧ ∃ m, harvested 0 s.harvest.step [entryA] s m) ∧
    (let s := cutting [rowA] calm; s.harvest.cut = some h0 ∧ s.harvest.ready = true ∧ s.hvTable = [] ++ entryA :: [] ∧ harvested 0 s.harvest.step [] s s ∧
      stopsHarvest 0 s.harvest.step entryA s) ∧ (hvS [rowA] calm).harvest.ready = false := by
  refine ⟨⟨?_, by decide +kernel, by decide +kernel, by decide +kernel, by decide +kernel, by decide +kernel⟩, by decide +kernel, by unfold malformed; decide, ⟨by decide +kernel, by unfold malformed; decide⟩, by decide +kernel,
    ⟨by decide +kernel, by decide +kernel, by decide +kernel, ?_⟩, ⟨by decide +kernel, by decide +kernel, by decide +kernel, rfl, ?_⟩, by decide +kernel⟩
  · simp only [engineCommand]; decide +kernel
  · have r : (cutting [rowA] (mapped calm)).sysRead 0 entryA.pasid entryA.source entryA.length = some (List.replicate 8 0) := by decide +kernel
    have w : ((cutting [rowA] (mapped calm)).sysWrite 0 entryA.pasid entryA.dest (sheafOf entryA (cutting [rowA] (mapped calm)).harvest.step (List.replicate 8 0))).isSome = true := by
      decide +kernel
    obtain ⟨m, hm⟩ := Option.isSome_iff_exists.1 w
    exact ⟨m, _, m, r, hm, rfl⟩
  · have r : (cutting [rowA] calm).sysRead 0 entryA.pasid entryA.source entryA.length = none := by decide +kernel
    simp only [stopsHarvest, r]
theorem sysBytes_mem (s : State) (m : Memory) (e : Fin 4) (p : BitVec 20) (w : Bool) (a n : Nat) :
    State.sysBytes { s with mem := m } e p w a n = s.sysBytes e p w a n := rfl
theorem getSys_stack (s : State) (ks : List Nat) : (ks.map SysByte.stack).map s.getSys = ks.map (Memory.get s.mem) := by
  simp [State.getSys, Function.comp_def]
theorem get_cons_ne {m : Memory} {j : Nat} {v : Byte} : ∀ {ks : List Nat}, j ∉ ks → ks.map (Memory.get ((j, v) :: m)) = ks.map (Memory.get m) := by
  intro ks h
  refine List.map_congr_left fun k hk => ?_
  simp only [Memory.get]
  rw [if_neg (by rintro rfl; exact h hk)]
theorem get_zip : ∀ (ks : List Nat) (bs : List Byte), ks.Nodup → ks.length = bs.length → ks.map (Memory.get (ks.zip bs)) = bs
  | [], [], _, _ => rfl
  | k :: ks, b :: bs, h, hl => by
    rw [List.nodup_cons] at h
    rw [List.zip_cons_cons, List.map_cons, get_cons_ne h.1, get_zip ks bs h.2 (by simpa using hl)]
    simp [Memory.get]
def content8 : List Byte := [1, 2, 3, 4, 5, 6, 7, 8]
/-- The head of a sheaf (step, shard, shards), the sheaf, and two of them at 0x10000 and 0x10100. -/
def headB (a : Nat × Nat × Nat) : List Byte := toBytes 4 0x53484546 ++ [1, 0, 1, 0] ++ toBytes 8 a.1 ++ toBytes 2 a.2.1 ++ toBytes 2 a.2.2 ++ toBytes 4 0 ++ toBytes 8 8
def sheafB (a : Nat × Nat × Nat) (f : Nat → Byte) : List Byte := headB a ++ (List.range 32).map f ++ content8
def keys144 : List Nat := (List.range 72).map (stackAddr 4 0) ++ (List.range 72).map fun i => stackAddr 4 0 (0x100 + i)
def stoppedHv : State := mapped (hState .stopped calm)
def sheavesS (rows : List (List Byte)) (a b : Nat × Nat × Nat) (f : Nat → Byte) : State :=
  { hvS rows stoppedHv with mem := keys144.zip (sheafB a f ++ sheafB b f) }
theorem sheaf_keys : stoppedHv.sysBytes 0 0 false 0x10000 64 = some ((keys144.take 64).map .stack) ∧
    stoppedHv.sysBytes 0 0 false 0x10040 8 = some (((keys144.drop 64).take 8).map .stack) ∧
    stoppedHv.sysBytes 0 0 false 0x10100 64 = some (((keys144.drop 72).take 64).map .stack) ∧
    stoppedHv.sysBytes 0 0 false 0x10140 8 = some (((keys144.drop 136).take 8).map .stack) ∧
    (stoppedHv.sysBytes 0 0 true 0x10200 8).isSome = true ∧ keys144.Nodup := by decide +kernel
theorem headB_length (a : Nat × Nat × Nat) : (headB a).length = 32 := by simp [headB, toBytes]
theorem sheaves_bytes (rows : List (List Byte)) (a b : Nat × Nat × Nat) (f : Nat → Byte) : keys144.map (Memory.get (sheavesS rows a b f).mem) = sheafB a f ++ sheafB b f :=
  get_zip keys144 _ sheaf_keys.2.2.2.2.2 (by simp [sheafB, headB_length, content8, keys144])
theorem slice (pre mid post : List Byte) {n m : Nat} (hn : pre.length = n) (hm : mid.length = m) : ((pre ++ (mid ++ post)).drop n).take m = mid := by
  rw [← hn, ← hm, List.drop_left, List.take_left]
theorem sheaf_read (rows : List (List Byte)) (a b : Nat × Nat × Nat) (f : Nat → Byte) : let s := sheavesS rows a b f
    s.sysRead 0 0 0x10000 64 = some (headB a ++ (List.range 32).map f) ∧ s.sysRead 0 0 0x10040 8 = some content8 ∧
    s.sysRead 0 0 0x10100 64 = some (headB b ++ (List.range 32).map f) ∧ s.sysRead 0 0 0x10140 8 = some content8 ∧
    (s.sysWrite 0 0 0x10200 content8).isSome = true := by
  have all := sheaves_bytes rows a b f
  have same : ∀ w ea n, (sheavesS rows a b f).sysBytes 0 0 w ea n = stoppedHv.sysBytes 0 0 w ea n := fun _ _ _ => rfl
  have lh : ∀ a, (headB a ++ (List.range 32).map f).length = 64 := fun a => by simp [headB_length]
  have ls : ∀ a, (sheafB a f).length = 72 := fun a => by simp [sheafB, headB_length, content8]
  refine ⟨?_, ?_, ?_, ?_, ?_⟩ <;> simp only [State.sysRead, State.sysWrite, same, sheaf_keys, show content8.length = 8 from rfl, Option.map_some, Option.isSome_map, getSys_stack, List.map_take, List.map_drop, all]
  · exact congrArg some ((congrArg (List.take 64) (List.append_assoc ..)).trans (slice [] _ _ rfl (lh a)))
  · have e : sheafB a f ++ sheafB b f = (headB a ++ (List.range 32).map f) ++ (content8 ++ sheafB b f) := by simp [sheafB]
    rw [e]
    exact congrArg some (slice _ content8 _ (lh a) rfl)
  · exact congrArg some (slice _ _ content8 (ls a) (lh b))
  · have e : sheafB a f ++ sheafB b f = (sheafB a f ++ (headB b ++ (List.range 32).map f)) ++ (content8 ++ []) := by simp [sheafB]
    rw [e]
    exact congrArg some (slice _ content8 [] (by rw [List.length_append, ls, lh]) rfl)
theorem headB_fits {e : HvEntry} {a : Nat × Nat × Nat} {l : List Byte} (h : headerFits e (headB a)) : headerFits e (headB a ++ l) := by
  have f : ∀ i n, i + n ≤ 32 → field (headB a ++ l) i n = field (headB a) i n := fun i n hi => by
    have e := headB_length a
    rw [field, List.drop_append_of_le_length (by omega), List.take_append_of_le_length (by simp only [List.length_drop]; omega)]; rfl
  unfold headerFits
  rw [f 0 4 (by decide), f 4 2 (by decide), f 6 1 (by decide), f 16 2 (by decide), f 18 2 (by decide), f 24 8 (by decide)]
  exact h
theorem headB_digest (a : Nat × Nat × Nat) (f : Nat → Byte) : ((headB a ++ (List.range 32).map f).drop 32).take 32 = (List.range 32).map f := by
  have := slice (headB a) ((List.range 32).map f) [] (headB_length a) (by simp : _ = 32)
  rwa [List.append_nil] at this
theorem headB_step (a : Nat × Nat × Nat) (l : List Byte) : field (headB a ++ l) 8 8 = field (headB a) 8 8 := by
  have e := headB_length a
  rw [field, List.drop_append_of_le_length (by omega), List.take_append_of_le_length (by simp only [List.length_drop]; omega)]; rfl
def digestAt (i : Nat) : Byte := (Config.sm3 content8).getD i 0
/-- The sheaves of two entries, as candidates. -/
def cand (a : Nat × Nat × Nat) (src dest : Nat) : Sheaf := ⟨hvE 1 a.2.1 a.2.2 src dest, a.1, content8⟩
theorem first_sheaf {rows : List (List Byte)} {a b : Nat × Nat × Nat} {src : Nat} (h : ¬malformed (cand a src 0x10000).entry ∧ headerFits (cand a src 0x10000).entry (headB a) ∧
    a.1 = field (headB a) 8 8) : isSheaf (sheavesS rows a b digestAt) 0 (cand a src 0x10000) :=
  ⟨h.1, _, (sheaf_read rows a b digestAt).1, headB_fits h.2.1, by rw [headB_step]; exact h.2.2, (sheaf_read rows a b digestAt).2.1, headB_digest a _⟩
theorem second_sheaf {rows : List (List Byte)} {a b : Nat × Nat × Nat} {src : Nat} (h : ¬malformed (cand b src 0x10100).entry ∧ headerFits (cand b src 0x10100).entry (headB b) ∧
    b.1 = field (headB b) 8 8) : isSheaf (sheavesS rows a b digestAt) 0 (cand b src 0x10100) :=
  ⟨h.1, _, (sheaf_read rows a b digestAt).2.2.1, headB_fits h.2.1, by rw [headB_step]; exact h.2.2, (sheaf_read rows a b digestAt).2.2.2.1, headB_digest b _⟩
/-- The state is one in which RESTORE of a STOPPED holding is written, its table naming these entries. -/
theorem witness_RestoreCommands (rows : List (List Byte)) (a b : Nat × Nat × Nat) (f : Nat → Byte) : let s := sheavesS rows a b f
    engineCommand s 0 2 h0 2 ∧ s.harvest.stat.pending = false ∧ (s.estate 0).pending = none ∧ (s.hold h0).state = .stopped :=
  ⟨⟨by decide, show stoppedHv.isOpen = true by decide +kernel, show stoppedHv.isSteward 0 = true by decide +kernel, show 0 < stoppedHv.mode.toNat by decide +kernel⟩, rfl, rfl, rfl⟩
theorem witness_RestoreTables : (hvS [rowA] stoppedHv).hvTable = [entryA] ∧ (hvS [hvRow 1 0 1 0x20000 0x10000] stoppedHv).hvTable = [hvE 1 0 1 0x20000 0x10000] ∧
    (hvS [hvRow 1 0 2 0x10200 0x10000] stoppedHv).hvTable = [hvE 1 0 2 0x10200 0x10000] ∧
    (hvS [rowA, hvRow 1 0 1 0x10300 0x10100] stoppedHv).hvTable = [entryA, hvE 1 0 1 0x10300 0x10100] := by decide +kernel
theorem readable {s : State} {x : HvEntry} {hd bs : List Byte} (h : s.sysRead 0 x.pasid x.dest 64 = some hd ∧ s.sysRead 0 x.pasid (x.dest + 64) x.length = some bs) :
    ¬unreadable s 0 x := by
  simp [unreadable, h.1, h.2]
theorem unread {s : State} {x : HvEntry} (h : s.sysRead 0 x.pasid x.dest 64 = none) : unreadable s 0 x := by
  simp [unreadable, h]
theorem digests_differ : (List.range 32).map (fun i => digestAt i + 1) ≠ digest content8 := fun h => by
  have : digestAt 0 + 1 = digestAt 0 := Option.some.inj (congrArg List.head? h)
  bv_omega
theorem witness_RestoreRefusals (b : Nat × Nat × Nat) : (let s := hvS [rowA] (hState .stopped calm); s.hvTable = [entryA] ∧ unreadable s 0 entryA) ∧
    (let s := sheavesS [rowA] (5, 0, 1) b fun i => digestAt i + 1; ¬unreadable s 0 entryA ∧ mismatched s 0 entryA) := by
  have fit := sheaf_read [rowA] (5, 0, 1) b fun i => digestAt i + 1
  exact ⟨⟨by decide +kernel, unread (by decide +kernel)⟩, readable ⟨fit.1, fit.2.1⟩, _, fit.1, .inr (.inr ⟨content8, fit.2.1, by rw [headB_digest]; exact digests_differ⟩)⟩
theorem sheaves_ok : ∀ a ∈ [(5, 0, 1), (6, 0, 1), (5, 0, 2)], ∀ src ∈ [0x10200, 0x10300, 0x20000], ∀ dest ∈ [0x10000, 0x10100],
    ¬malformed (cand a src dest).entry ∧ headerFits (cand a src dest).entry (headB a) ∧ a.1 = field (headB a) 8 8 := by unfold malformed headerFits; decide
theorem witness_Restores (b : Nat × Nat × Nat) : (let s := sheavesS [rowA] (5, 0, 1) b digestAt; isSheaf s 0 (cand (5, 0, 1) 0x10200 0x10000) ∧
      ∃ m, Claims.restored 0 [cand (5, 0, 1) 0x10200 0x10000] s m) ∧
    (let s := sheavesS [hvRow 1 0 1 0x20000 0x10000] (5, 0, 1) b digestAt; isSheaf s 0 (cand (5, 0, 1) 0x20000 0x10000) ∧ s.sysWrite 0 0 0x20000 content8 = none) ∧
    (let s := sheavesS [rowA, hvRow 1 0 1 0x10300 0x10100] (5, 0, 1) (6, 0, 1) digestAt; isSheaf s 0 (cand (5, 0, 1) 0x10200 0x10000) ∧ isSheaf s 0 (cand (6, 0, 1) 0x10300 0x10100)) ∧
    (let s := sheavesS [hvRow 1 0 2 0x10200 0x10000] (5, 0, 2) b digestAt; isSheaf s 0 (cand (5, 0, 2) 0x10200 0x10000)) := by
  refine ⟨⟨first_sheaf (sheaves_ok _ (by decide) _ (by decide) _ (by decide)), ?_⟩, ⟨first_sheaf (sheaves_ok _ (by decide) _ (by decide) _ (by decide)), ?_⟩,
    ⟨first_sheaf (sheaves_ok _ (by decide) _ (by decide) _ (by decide)), second_sheaf (sheaves_ok _ (by decide) _ (by decide) _ (by decide))⟩,
    first_sheaf (sheaves_ok _ (by decide) _ (by decide) _ (by decide))⟩
  · obtain ⟨m, hm⟩ := Option.isSome_iff_exists.1 (sheaf_read [rowA] (5, 0, 1) b digestAt).2.2.2.2
    exact ⟨m, m, hm, rfl⟩
  · have k : (sheavesS [hvRow 1 0 1 0x20000 0x10000] (5, 0, 1) b digestAt).sysBytes 0 0 true 0x20000 content8.length = none :=
      show stoppedHv.sysBytes 0 0 true 0x20000 8 = none by decide +kernel
    rw [State.sysWrite, k]; rfl
theorem witness_Steps : wholeAt [cand (5, 0, 1) 0x10200 0x10000] 5 ∧ wholeAt [cand (5, 0, 1) 0x20000 0x10000] 5 ∧ ¬wholeAt [cand (5, 0, 2) 0x10200 0x10000] 5 := by
  unfold wholeAt; decide

/-! ## Witnesses: pauses, resets and the host's clocks (14, 16, 19 to 21) -/

/-- A drain that finds a gang switch under way, one that saves every holding, and one that waits for a deferral or for stage 6. -/
theorem witness_HeadlandDrains : (let s := est0 (fun x => { x with due := 0 }) (phased (.draining 0 0 false [0] []) calm); headlandDue s 0 ∧ s.deferring 0 = [] ∧ gangOut s 0 0) ∧
    (let s := est0 (fun x => { x with due := 0, saving := true }) calm; headlandDue s 0 ∧ (s.estate 0).saving = true ∧ (s.hold h0).placed = true) ∧
    (let s := est0 (fun x => { x with due := 0 }) (led ((State.setTask base me { task [] with deferring := true }))); (s.estate 0).due ≤ s.panelNs ∧
      s.deferring 0 ≠ [] ∧ s.panelNs < (s.estate 0).due + 15604) ∧
    (let s := { est0 (fun x => { x with due := 0 }) calm with harvest := { calm.harvest with cut := some h0 } }; headlandDue s 0 ∧ s.harvest.cut = some h0) ∧
    State.reset.bootStage.toNat < 6 ∧
    (let s := phased (.draining 0 16384 true [] []) calm; (s.estate 0).phase = .draining 0 16384 true [] []) ∧
    leaves (modH 1 (fun _ => { state := .out, dies := 1 }) calm) 0 0 := by
  refine ⟨⟨⟨by decide +kernel, by decide +kernel⟩, by decide +kernel, _, _, _, _, rfl, by decide⟩, ⟨⟨by decide +kernel, by decide +kernel⟩,
    by decide +kernel⟩, by decide +kernel, ⟨⟨by decide +kernel, by decide +kernel⟩, by decide +kernel⟩, by decide, rfl, ?_⟩
  simp only [leaves]; decide +kernel
/-- A SWITCH-OUT whose tasks are gone, and a SWITCH-IN before and after the regions have passed the stop. -/
theorem witness_GangSwitches : (let s := pend 5 id (phased (.draining 0 0 false [0] []) calm); (s.estate 0).phase = .draining 0 0 false [0] [] ∧
      (s.estate 0).pending = some { op := 5, hold := 0, time := 0, begun := true } ∧ (s.hold h0).state = .running ∧ nothingHeld s 0) ∧
    (let s := pend 6 id (phased (.draining 0 0 false [] [0]) (hState .out calm)); (s.estate 0).phase = .draining 0 0 false [] [0] ∧ s.pausedTasks 0 = [] ∧
      nothingHeld s 0 ∧ s.timePassed 0 = false) ∧
    (let s := at100 (pend 6 id (phased (.draining 0 0 false [] [0]) (hState .out calm))); (s.estate 0).phase = .draining 0 0 false [] [0] ∧ s.pausedTasks 0 = [] ∧
      (s.estate 0).pending = some { op := 6, hold := 0, time := 0, begun := true } ∧ nothingHeld s 0 ∧ s.timePassed 0 = true ∧ (s.hold h0).state = .out ∧
      s.runFallow 0 (s.hold h0).position (s.hold h0).dies = true) ∧
    (let s := pend 5 (fun c => { c with time := 1 }) calm; (s.estate 0).phase = .running ∧ s.panelNs < 1) := by
  simp only [nothingHeld]; decide +kernel
/-- An estate of 8 holdings, and one whose dies are all placed: CREATE finds no run. -/
def eight : State := est0 (arg2 0 0) { calm with estates := calm.estates.set 0 { calm.estates[0] with holdings := Vector.replicate 8 { state := .out, vf := 9, dies := 1 } } }
def crowded : State := est0 (arg2 0 0) (modH 0 (fun x => { x with dies := 8 }) calm)
theorem witness_NoRun : commands eight 0 0 1 1 0x101 ∧ argIs eight 0 2 1 12 0 0 0 ∧ goodW 12 ∧ 1 ≤ courseLen eight.mode 0 ∧ (∀ k, (eight.hold ⟨0, k⟩).state ≠ .absent) ∧
    commands crowded 0 0 1 1 0x101 ∧ argIs crowded 0 2 1 12 0 0 0 ∧ creates crowded 0 1 2 1 12 ∧ crowded.findRun 0 1 = none := by
  refine ⟨steward_commands (by decide +kernel), ?_, by unfold goodW; decide, by decide, by decide +kernel, steward_commands (by decide +kernel), ?_,
    created _ (by decide +kernel) (by decide +kernel), by decide +kernel⟩ <;> (unfold argIs; decide +kernel)
/-- No store waits on the panel without a task. -/
theorem calm_stores0 : noStores calm (calm.diesOf h0) := by unfold noStores; decide +kernel
theorem calm_stores : noStores calm (courseDies calm.mode 0) := fun d _ k i => by
  by_cases h : d ∈ calm.diesOf h0
  · exact calm_stores0 d h k i
  · have e : calm.image d = {} := by revert d; decide +kernel
    simp only [State.slot, State.core, e]
    simp [Image.core, FMap.get, Image.unlisted]
/-- Nothing waits on the panel: no store, no task and no migrating seed. -/
theorem calm_bare : ∀ d : DieId, d ≠ 0 → calm.image d = {} := by decide +kernel
theorem calm_noStores : ∀ r, (calm.slot r).stores = [] := fun ⟨⟨d, k⟩, i⟩ => by
  by_cases h : d = 0
  · subst h; exact calm_stores0 0 (by decide +kernel) k i
  · simp only [State.slot, State.core, calm_bare d h]
    simp [Image.core, FMap.get, Image.unlisted]
/-- No seed waits to migrate. -/
theorem calm_noSeedsOn {s : State} (h : s.images = calm.images) (g : HoldRef) (d : DieId) : noMigrantsOn s g d := by
  have all : ∀ d, (calm.image d).ready = [] ∧ ∀ k i, (calm.slot ⟨⟨d, k⟩, i⟩).migrating = none := fun d => by
    by_cases hd : d = 0
    · subst hd; decide +kernel
    · simp only [State.slot, State.core, calm_bare d hd]
      simp [Image.core, FMap.get, Image.unlisted]
  have e : s.image d = calm.image d := by rw [State.image, h]; rfl
  refine ⟨fun x hx => ?_, fun k i x m hx => ?_⟩
  · rw [e, (all d).1] at hx; cases hx
  · rw [show s.slot ⟨⟨d, k⟩, i⟩ = calm.slot ⟨⟨d, k⟩, i⟩ by simp only [State.slot, State.core, e], (all d).2] at hx
    cases hx
theorem calm_noSeeds {s : State} (h : s.images = calm.images) (g : HoldRef) : noMigrants s g := calm_noSeedsOn h g
theorem witness_Withdrawals : (let s := hState .stopped calm; ∀ r, (s.slot r).stores = []) ∧
    (let s := hState .out calm; commands s 0 0 2 0 2 ∧ argClean s 0 ∧ (s.hold h0).state = .out ∧ s.slotsOf h0 = [] ∧ noMigrants s h0) ∧
    (let s := phased (.draining 0 0 true [] []) calm; (word 9).toNat = 9 + 2 ^ 8 * 0 ∧ s.isOpen = true ∧ s.isSteward 0 = true ∧ s.pmNext = none ∧
      s.harvest.stat.pending = false ∧ argClean s 0 ∧ (s.estate 0).phase = .draining 0 0 true [] []) :=
  ⟨calm_noStores, ⟨steward_commands (by decide +kernel), clean _ (by decide +kernel), by decide +kernel, by decide +kernel, calm_noSeeds rfl _⟩,
    by decide, by decide +kernel, by decide +kernel, by decide +kernel, by decide +kernel, clean _ (by decide +kernel), rfl⟩
/-- The panel without a task has none, on any die, and no migrating seed. -/
theorem calm_noTasks : ∀ r, calm.task r = none := fun ⟨⟨d, k⟩, i⟩ => by
  by_cases h : d = 0
  · subst h
    have : ∀ k i, calm.task ⟨⟨0, k⟩, i⟩ = none := by decide +kernel
    exact this k i
  · simp only [State.task, State.slot, State.core, calm_bare d h]
    simp [Image.core, FMap.get, Image.unlisted]
theorem calm_atHome {s : State} (h : s.images = calm.images) : allAtHome s h0 :=
  ⟨fun r t ht => absurd ht (by rw [show s.task r = calm.task r by simp only [State.task, State.slot, State.core, State.image, h], calm_noTasks]; simp),
    fun d _ => calm_noSeedsOn h _ d⟩
/-- A SWITCH-OUT whose tasks are gone, and a switch that waits for a change of mode. -/
theorem witness_SwitchOuts : (let s := pend 5 id (phased (.draining 0 0 false [0] []) calm); (s.estate 0).phase = .draining 0 0 false [0] [] ∧ s.pausedTasks 0 = [] ∧
      (s.estate 0).pending = some { op := 5, hold := 0, time := 0, begun := true } ∧ (s.hold h0).state = .running ∧ nothingHeld s 0 ∧ allAtHome s h0) ∧
    (let s := { pend 5 id calm with pmNext := some 2 }; (s.estate 0).phase = .running ∧ (s.estate 0).pending = some { op := 5, hold := 0, time := 0, begun := true } ∧
      s.pmNext.isSome = true) ∧
    (let s := pend 5 id calm; (s.estate 0).phase = .running ∧ (s.estate 0).pending = some { op := 5, hold := 0, time := 0, begun := true } ∧ 0 ≤ s.panelNs ∧
      s.panelNs + 15604 < (s.estate 0).due ∧ (s.estate 0).saving = false ∧ s.pmNext = none ∧ (0 : Fin 4).val < s.mode.toNat) := by
  refine ⟨⟨rfl, by decide +kernel, rfl, by decide +kernel, ?_, calm_atHome rfl⟩, by decide +kernel, by decide +kernel⟩
  unfold nothingHeld; decide +kernel
/-- A move in which no command and no change of mode waits. -/
theorem witness_HeadlandMoves : (let s := phased (.draining 0 0 true [] []) calm; (0 : Fin 4).val < s.mode.toNat ∧ (s.estate 0).phase = .draining 0 0 true [] [] ∧ s.pausedTasks 0 = [] ∧
      (s.estate 0).saving = false ∧ (s.estate 0).pending = none ∧ s.pmNext = none) := by decide +kernel
/-- A migrated task with a current message, of entry 7 or, on the supervisor core, of entry 255 with a report in the queue. -/
def guest7 (e : BitVec 8) : Task := { current e with home := some ⟨h0, 0, 1, 0⟩ }
theorem witness_MessagesAway : (let s := run (guest7 7); Ready s [] 0 (guest7 7) [] (coreOf s) ∧ (guest7 7).home.isSome = true) ∧
    (let s := (run (guest7 255)).modHold h0 fun x => { x with faultQ := [Vector.replicate 8 0] };
      Ready s [] 0 (guest7 255) [] (coreOf s) ∧ (popped s (coreOf s) (guest7 255)).supervisor h0 = some me.core ∧ (guest7 255).home.isSome = true) :=
  ⟨⟨ready (by decide), rfl⟩, ready (by decide), by decide, rfl⟩
/-- An outstanding request that an invalidation has made stale, and a slot with a store of another owner. -/
theorem witness_Invalidations : (let q : AtsReq := askA .stale; let s := r34.setDie 0 { r34.die 0 with ats := [q] }; (s.die 0).ats[0]? = some q ∧ q.stage = .stale ∧ (s.die 0).outstanding 0 = true) ∧
    (∀ (r : SlotRef), ∀ b ∈ (calm.slot r).stores, ∀ ks ea, b.loc ≠ .mem ks 5 ea) :=
  ⟨by decide, fun r b h => absurd h (by rw [calm_noStores]; simp)⟩
/-- A store waits on the supervisor core when its slot 1 is released. -/
def keptStore : State := let s := hcS 1 (parkedAt1 (some (task []))); s.setSlot me { s.slot me with stores := [memStore] }
theorem witness_Release : hcReady keptStore 1 0 h0 ∧ hcNames keptStore 1 h0 0 0 1 ∧ (keptStore.slot free1).parked = true ∧ (keptStore.slot free1).halted = true ∧
    keptStore.task free1 = some (task []) ∧ keptStore.supervisor h0 = some c0 ∧ (keptStore.slot ⟨c0, 0⟩).stores = [memStore] := by
  refine ⟨?_, hc_names _ _ (by decide +kernel), by decide +kernel⟩
  simp only [hcReady, hcReaches, ownsRegister]; decide +kernel
/-- A wear entry whose second has passed, and one whose second has not; reads of NumVFs, and of a function that port 1 does not present. -/
def worn : State := { calm with health := { calm.health with wear := calm.health.wear.set 3 { calm.health.wear[3] with since := 1000000000 } } }
theorem witness_WearAndReads : 1000000000 ≤ (worn.health.wear[3]).since ∧ (worn.health.wear[4]).since < 1000000000 ∧
    (let s := { calm with sched := [.numVfsRead 1] }; s.sched = .numVfsRead 1 :: []) ∧
    (let s := { calm with sched := [.mmioRead 1 1 0x18] }; s.sched = .mmioRead 1 1 0x18 :: [] ∧ (1 : Fin 64) ≠ 0 ∧ s.vfOpen 1 1 = false) := by decide +kernel
/-- The other command that ESTATE-RESET ends, and a function-level reset while the holding is in a pause. -/
theorem witness_ResetsInPause : (let s := pend 3 id calm; commands s 0 0 9 0 9 ∧ argClean s 0 ∧ (s.estate 0).pending ≠ none) ∧
    (let s := phased (.draining 0 0 true [] []) calm; s.holdOfFn 1 = some h0 ∧ (s.hold h0).state ≠ .resetting ∧ s.paused h0 = true) :=
  ⟨⟨steward_commands (by decide +kernel), clean _ (by decide +kernel), by decide +kernel⟩, by decide +kernel⟩
/-- PM.CTL of mode 2: refused while a holding runs, or waiting for the estate to save it, drain set. -/
theorem witness_PartitionModes : (word 2).toNat % 2 ^ 3 = (2 : BitVec 3).toNat ∧ (word 2).getLsbD 8 = false ∧ (word 0x102).toNat % 2 ^ 3 = (2 : BitVec 3).toNat ∧
    (word 0x102).getLsbD 8 = true ∧ calm.isOpen = true ∧ calm.isSteward 0 = true ∧ (2 : BitVec 3) ≠ calm.mode ∧ calm.pmNext = none ∧ (calm.estate 0).phase = .running ∧
    (phased (.draining 0 0 false [0] []) calm).pmNext = none ∧ ((phased (.draining 0 0 false [0] []) calm).estate 0).phase.gang = true := by decide +kernel
/-- A panel without a steward, one whose lease has expired, and a claim. -/
def leaderless : State := { calm with steward := { calm.steward with valid := false } }
def expired : State := { calm with panelNs := 1000000 }
theorem witness_Stewardship : leaderless.led = false ∧ leaderless.steward.valid = false ∧ expired.led = false ∧ expired.steward.valid = true ∧
    expired.steward.deadline ≤ expired.panelNs ∧ calm.led = true ∧ (word 0x10005).getLsbD 16 = true ∧ (word 5).getLsbD 16 = false ∧ (word 0x100).getLsbD 8 = true ∧
    calm.isSteward 1 = false := by decide +kernel
/-- A panel before stage 7. -/
def early : State := { calm with bootStage := 6 }
theorem witness_HostRegisters : early.isOpen = false ∧ early.isSteward 1 = false ∧ early.bootStage.toNat < 7 ∧ calm.vfOpen 1 0 = true ∧ (word 63).toNat % 2 ^ 16 ≤ 63 ∧
    calm.vfOpen 1 1 = false ∧ (let s := { calm with numVfs := 0 }; s.numVfs.toNat < (1 : Fin 64).val) ∧
    (let s := calm.setFn 1 { calm.fn 1 with vecPend := vset (Vector.replicate 3 false) 2 true }; s.vfOpen 1 0 = true ∧ (s.fn 1).fnMask = false) ∧
    (word 1).getLsbD 0 = true ∧ (∃ r : BootReport, r.firmwareOk = false) ∧ (∃ r : BootReport, r.firmwareOk = true ∧ r.stopAt = 4) ∧
    ∃ r : BootReport, r.firmwareOk = true ∧ r.stopAt = 0 ∧ (40, 2) ∈ r.failed ∧ (r.failed.map (·.1)).Nodup := by
  refine ⟨by decide +kernel, by decide +kernel, by decide +kernel, by decide +kernel, by decide, by decide +kernel, by decide +kernel, by decide +kernel, by decide, ?_, ?_, ?_⟩
  · exact ⟨⟨false, 0, [], [], 0, 0, []⟩, rfl⟩
  · exact ⟨⟨true, 4, [], [], 0, 0, []⟩, rfl, rfl⟩
  · exact ⟨⟨true, 0, [], [(40, 2)], 0, 0, []⟩, rfl, rfl, by simp, by simp⟩
/-- Moments at which the arbiter and a beacon act, and a draw above the limit whose dies have no duty left to give. -/
def aged : State := { calm with power := { calm.power with since := 2000, saturated := 499 }, dies := calm.dies.map fun x =>
  { x with north := { x.north with beacon := 4096 }, south := { x.south with beacon := 4095 } } }
theorem witness_ServiceTimes : calm.power.since < 2000 ∧ 2000 ≤ aged.power.since ∧ 499 ≤ aged.power.saturated ∧ 4096 ≤ (aged.die 0).north.beacon ∧ (aged.die 0).south.beacon < 4096 ∧
    1000 * aged.power.env.toNat < 20000000 ∧ (20000000 : Nat) / 1000 ≤ 32767 ∧ (∀ i : Fin 32, (calm.die i).duty.toNat ≤ 16) ∧
    calm.health.warn.toNat ≤ 0xFFFF ∧ 2 ^ 14 ≤ (word 0x4000).toNat ∧ hlthNames 0 c0 ∧
    (match exec (.arbiterEpoch 0 20000000 (List.replicate 32 0)) aged with
      | .next u => decide (∀ i : Fin 32, (u.die i).duty.toNat ≤ 1)
      | _ => false) = true :=
  ⟨by decide +kernel, by decide +kernel, by decide +kernel, by decide +kernel, by decide +kernel, by decide +kernel, by decide, by decide +kernel, by decide +kernel, by decide,
    ⟨0, 0, 0, by decide, by decide, by decide, by decide, by decide⟩, by decide +kernel⟩
/-- A write to the tail's line wakes the engine, or none does; and a collective past its deadline, whose peer has sent its element. -/
def late : State := { inColl calm with panelNs := 1000000000 }
theorem witness_CollectiveEnds : ({ crS with rung := [h0] } : State).rung.contains h0 = true ∧ crS.rung.contains h0 = false ∧
    (late.serving h0).collectives[0]? = some coll ∧ coll.since + 1000000 * late.collTmo.toNat ≤ late.panelNs ∧
    (∀ p ∈ coll.peers, (([((7 : BitVec 48), toBytes 4 0x3F800000)].find? fun b => b.1 = p && decide (4 * 1 ≤ b.2.length)).map fun b => (b.1, b.2.take 4)).isSome = true) ∧
    (late.sysRead 0 coll.pasid coll.buffer.toNat 4).isSome = true ∧ (late.sysWrite 0 coll.pasid coll.buffer.toNat [0, 0, 128, 63]).isSome = true :=
  ⟨by decide +kernel, by decide +kernel, by decide +kernel, by decide +kernel, fun p h => by rw [show p = 7 by simpa [coll] using h]; rfl, by decide +kernel, by decide +kernel⟩
/-- A collective of one element with a peer that is not this package; its buffer is in the second large page. -/
def joint1 (op : Fin 4) (b : Bool) : Collective := { coll with op := BitVec.ofNat 8 op.val, peers := [if b then 7 else 8], buffer := 0x200000 }
def joining (op : Fin 4) (b r w : Bool) : State := pages r w (serve (fun v => { v with collectives := [joint1 op b] }) (linkUp calm))
def zeros (op : Fin 4) : List Byte := List.replicate (elemSize (joint1 op true)) 0
theorem two_members {c : Collective} {p : BitVec 48} (z : List Byte) (hp : c.peers = [p]) (ne : ownId ≠ p) :
    ∃ bs, bs.map (·.2) = [z, z] ∧ ∀ sent : BitVec 48 → Option (List Byte), sent p = some z → members c z sent bs := by
  have all : ∀ sent : BitVec 48 → Option (List Byte), sent p = some z →
      (ownId, z) :: c.peers.filterMap (fun p => (sent p).map fun b => (p, b)) = [(ownId, z), (p, z)] := fun sent hs => by simp [hp, hs]
  have some_ : ∀ sent : BitVec 48 → Option (List Byte), sent p = some z → ∀ q ∈ c.peers, (sent q).isSome = true := fun sent hs => by simp [hp, hs]
  by_cases l : ownId.toNat < p.toNat
  · exact ⟨[(ownId, z), (p, z)], rfl, fun sent hs => ⟨by simpa using l, by simp [hp], some_ sent hs, by rw [all sent hs]⟩⟩
  · refine ⟨[(p, z), (ownId, z)], rfl, fun sent hs => ⟨?_, by simp [hp], some_ sent hs, by rw [all sent hs]; exact List.Perm.swap ..⟩⟩
    have : ownId.toNat ≠ p.toNat := fun h => ne (BitVec.eq_of_toNat_eq h)
    simp; omega
/-- Zeros combine to zeros, whatever the operation. -/
theorem zeros_shape (op : Fin 4) (b : Bool) : (zeros op).length = elemSize (joint1 op b) * 1 ∧ (joint1 op b).op.toNat < 4 ∧
    field (zeros op) (elemSize (joint1 op b) * 0) (elemSize (joint1 op b)) = 0 := by revert op b; decide
theorem zeros_combined (op : Fin 4) (b : Bool) {bs : List (BitVec 48 × List Byte)} (h : bs.map (·.2) = [zeros op, zeros op]) :
    combined (joint1 op b) 1 bs (zeros op) := by
  have len : bs.length = 2 := by simpa using congrArg List.length h
  have elems : ∀ i n, (bs.map fun b => field b.2 i n) = [field (zeros op) i n, field (zeros op) i n] := fun i n => by
    have := congrArg (List.map fun b => field b i n) h
    rwa [List.map_map] at this
  obtain ⟨hl, ho, hf⟩ := zeros_shape op b
  refine ⟨hl, ho, fun _ => ?_, fun ne i hi => ?_⟩
  · obtain ⟨x, hx⟩ : ∃ x, bs[Config.broadcastRoot (bs.map (·.1)) % bs.length]? = some x :=
      ⟨_, List.getElem?_eq_getElem (Nat.mod_lt _ (by omega))⟩
    have m : x.2 ∈ bs.map (·.2) := List.mem_map_of_mem (List.mem_of_getElem? hx)
    rw [h] at m
    have m' : x.2 = zeros op := by simpa using m
    exact ⟨x, hx, m'.symm⟩
  · obtain rfl : i = 0 := by omega
    rw [elems, hf]
    exact ⟨fun _ => ⟨_, _, rfl, by decide +kernel⟩, fun _ => ⟨_, _, rfl, by decide +kernel⟩, fun _ => by unfold greatest; decide +kernel⟩
/-- A collective whose value is combined, one whose buffer cannot be read, and one whose buffer cannot be written. -/
def peer (b : Bool) : BitVec 48 := if b then 7 else 8
theorem sent_zeros (op : Fin 4) (b : Bool) : (([(peer b, zeros op)].find? fun x => x.1 = peer b).map (·.2)) = some (zeros op) ∧
    sentBy [(peer b, zeros op)] (elemSize (joint1 op b) * 1) (peer b) = some (zeros op) ∧ (joint1 op b).peers = [peer b] ∧ (joint1 op b).count = 1 := by revert op b; decide
theorem witness_Combines (op : Fin 4) : ∃ b : Bool, let c := joint1 op b; let sent := fun (q : BitVec 48) => ([(peer b, zeros op)].find? fun x => x.1 = q).map (·.2)
    ∃ bs, members c (zeros op) sent bs ∧ members c (zeros op) (sentBy [(peer b, zeros op)] (elemSize c * 1)) bs ∧ combined c c.count bs (zeros op) ∧
      (∀ p ∈ c.peers, ∃ x, sent p = some x ∧ x.length = elemSize c * c.count) := by
  obtain ⟨b, ne⟩ : ∃ b, ownId ≠ peer b := by
    by_cases h : ownId = 7
    · exact ⟨false, by rw [h]; decide⟩
    · exact ⟨true, h⟩
  obtain ⟨h1, h2, hp, hc⟩ := sent_zeros op b
  obtain ⟨bs, m, h⟩ := two_members (c := joint1 op b) (zeros op) hp ne
  refine ⟨b, bs, h _ h1, h _ h2, by rw [hc]; exact zeros_combined op b m, fun p hm => ?_⟩
  rw [hp, List.mem_singleton] at hm
  rw [hm, hc]
  exact ⟨_, h1, (zeros_shape op b).1⟩
theorem witness_CombineStates : ∀ (op : Fin 4) (b : Bool), let c := joint1 op b
    (let s := joining op b true true; (s.serving h0).collectives[0]? = some c ∧ s.panelNs < c.since + 1000000 * s.collTmo.toNat ∧ linksUp s c ∧
      s.sysRead 0 c.pasid c.buffer.toNat (elemSize c * c.count) = some (zeros op) ∧ (s.sysWrite 0 c.pasid c.buffer.toNat (zeros op)).isSome = true) ∧
    (let s := joining op b false true; s.sysRead 0 c.pasid c.buffer.toNat (elemSize c * c.count) = none ∧ linksUp s c) ∧
    (let s := joining op b true false; s.sysRead 0 c.pasid c.buffer.toNat (elemSize c * c.count) = some (zeros op) ∧ linksUp s c ∧
      s.sysWrite 0 c.pasid c.buffer.toNat (zeros op) = none) ∧
    (let s := { joining op b true true with links := calm.links }; ¬linksUp s c) := by
  unfold linksUp; decide +kernel
/-- The engine knows the tail: it goes on with the one it has, or reads it. -/
theorem witness_CollectiveTails : (crS.serving h0).cr.en = true ∧ (crS.hold h0).state ≠ .resetting ∧ tailKnown crS crS h0 ∧
    (∃ q, tailKnown { crS with rung := [h0] } q h0) ∧ (calm.serving h0).cr.en = false :=
  ⟨by decide +kernel, by decide +kernel, .inl ⟨by decide +kernel, rfl⟩, ⟨_, .inr ⟨by decide +kernel, rfl⟩⟩, by decide +kernel⟩
/-- The ticket that an IMPORT took, with the holding's image on a run without retired cores; the same while a change of mode waits; and a pull that fails. -/
def importing : State := trS (fun x => { x with target := some ⟨0, 1⟩, taken := ticket0 }) { arriving with peers := [outside] }
theorem witness_Imports : importing.transplant.target = some ⟨0, 1⟩ ∧ importing.pmNext = none ∧
    (importing.peers.find? fun p => p.ticket = importing.transplant.taken) = some outside ∧
    (∀ e i, (importing.hold ⟨e, i⟩).state ≠ .absent → (importing.hold ⟨e, i⟩).vf ≠ outside.hold.vf) ∧ (importing.findRun 0 outside.hold.dies).isSome = true ∧
    (∀ k < 1, (importing.image (dieAt importing.mode 0 (1 + k))).cores = [] ∧ (importing.image (dieAt importing.mode 0 (1 + k))).ready = [] ∧
      (importing.die (dieAt importing.mode 0 (1 + k))).retired = []) ∧ outside.hold.images = [] ∧
    (let s := { importing with pmNext := some 2 }; s.transplant.target = some ⟨0, 1⟩ ∧ s.pmNext.isSome = true) ∧
    (0 : Fin 4).val < importing.mode.toNat ∧ (importing.hold ⟨0, 1⟩).state = .absent := by decide +kernel
/-- No ESTATE-RESET is under way at its end, or one is; and an end that finds its index taken. -/
theorem witness_ImportEnds : ¬estateResets importing 0 ∧ estateResets (pend 9 id importing) 0 ∧
    (let s := importing.modHold ⟨0, 1⟩ fun x => { x with state := .stopped }; ¬estateResets s 0 ∧ s.transplant.target = some ⟨0, 1⟩ ∧ s.pmNext = none ∧
      (s.peers.find? fun p => p.ticket = s.transplant.taken) = some outside ∧ (s.hold ⟨0, 1⟩).state ≠ .absent) :=
  ⟨noReset (by decide +kernel), ⟨_, rfl, rfl, rfl⟩, noReset (by decide +kernel), by decide +kernel⟩
/-- IMPORT into an estate of 8 holdings, at an index that is not ABSENT, without a run, and without a link that is up; and ends of the first and the third. -/
def manyDies (s : State) : State := trS (fun x => { x with ticket := #v[0, 0x1E0000, 0, 0] }) s
def fullOf (s : State) : State := { s with estates := s.estates.set 0 { s.estates[0] with holdings := Vector.replicate 8 { state := .out, vf := 9, dies := 1 } } }
theorem witness_ImportRefusals : (engineCommand (fullOf arriving) 0 2 ⟨0, 1⟩ 0x102 ∧ full (fullOf arriving) 0) ∧
    (engineCommand arriving 0 2 h0 2 ∧ ¬full arriving 0 ∧ (arriving.hold h0).state ≠ .absent) ∧
    (engineCommand (manyDies arriving) 0 2 ⟨0, 1⟩ 0x102 ∧ (manyDies arriving).findRun 0 30 = none ∧ ((manyDies arriving).transplant.ticket[1]).toNat / 2 ^ 16 % 2 ^ 8 = 30 ∧
      ∃ k : Fin 16, ((manyDies arriving).links[k]).state = 2) ∧
    (engineCommand calm 0 2 ⟨0, 1⟩ 0x102 ∧ ∀ k : Fin 16, (calm.links[k]).state ≠ 2) ∧
    full (fullOf importing) 0 ∧ (fullOf importing).transplant.target = some ⟨0, 1⟩ ∧
    (let x := { outside with hold := { outside.hold with dies := 30 } }; let s := { importing with peers := [x] };
      (s.peers.find? fun p => p.ticket = s.transplant.taken) = some x ∧ s.findRun 0 x.hold.dies = none) := by
  unfold full engineCommand; decide +kernel

/-! ## Decoding (03) -/

/-- A word decodes to an instruction, or is refused with a cause. -/
noncomputable def reads (p : W32 × Instr) : Bool :=
  match decode p.1 with
  | .ok i => decide (i = p.2)
  | .error _ => false
noncomputable def refuses (p : W32 × DecodeCause) : Bool :=
  match decode p.1 with
  | .ok _ => false
  | .error c => decide (c = p.2)
/-- The worked encodings of 03, and the fates of the words that follow them. -/
theorem test_words_worked : ([(0x04642800, .add 3 4 5 0), (0x04642C00, .add 3 4 5 1), (0x1042FFFF, .addi 2 2 0xFFFF), (0x8440FFFF, .bne 2 0 0xFFFF),
    (0x50E60002, .ldS32 7 6 2), (0xC4000003, .fence 0 3), (0xE0110A00, .plMmt 4 5 0), (0xE2110A00, .plMmtBlk 4 5 0), (0xF0221906, .vfmaF32 1 2 3 4),
    (0xF4020061, .vext 0 2 1), (0xFFFFFFFF, .brk)] : List (W32 × Instr)).all reads = true := by decide +kernel
theorem test_words_refused : ([(0x04642840, .reserved), (0x0400001F, .illegal), (0xFFFFFFFE, .illegal), (0xF4020221, .range), (0, .illegal), (0x3C000000, .illegal),
    (0xC000000A, .illegal), (0xC0000028, .illegal)] : List (W32 × DecodeCause)).all refuses = true := by decide +kernel

/-- R51, R60: major 0x01. Distinct values in every field. -/
theorem test_words_scalar : ([(0x04171C0A, .slt 0 23 3 1), (0x0438200B, .sltn 1 24 4 0), (0x04592C0C, .min 2 25 5 1), (0x047A300D, .max 3 26 6 0), (0x049B3C0E, .minn 4 27 7 1),
    (0x04BC400F, .maxn 5 28 8 0), (0x04DD4C10, .mul 6 29 9 1), (0x04FE5011, .mulh 7 30 10 0), (0x051F5C12, .mulhn 8 31 11 1), (0x05206013, .div 9 0 12 0),
    (0x05416C14, .divn 10 1 13 1), (0x05627015, .rem 11 2 14 0), (0x05837C16, .remn 12 3 15 1), (0x05A40417, .clz 13 4 1), (0x05C50018, .ctz 14 5 0),
    (0x05E60419, .popc 15 6 1), (0x06079C1A, .bext 16 7 19 1), (0x0628A01B, .bins 17 8 20 0), (0x0649AC1C, .sext 18 9 21 1),
    (0x066AB01D, .zext 19 10 22 0), (0x068BBC1E, .csel 20 11 23 1), (0x06ACC020, .addW 21 12 24 0), (0x06CDCC00, .add 22 13 25 1),
    (0x06CDCC21, .subW 22 13 25 1), (0x06EED001, .sub 23 14 26 0), (0x06EED026, .sllW 23 14 26 0), (0x070FDC02, .and 24 15 27 1),
    (0x070FDC27, .srlW 24 15 27 1), (0x0730E003, .or 25 16 28 0), (0x0730E028, .sraW 25 16 28 0), (0x0751EC04, .xor 26 17 29 1),
    (0x0751EC30, .mulW 26 17 29 1), (0x0772F005, .andn 27 18 30 0), (0x0772F033, .divW 27 18 30 0), (0x0793FC06, .sll 28 19 31 1),
    (0x0793FC34, .divnW 28 19 31 1), (0x07B40007, .srl 29 20 0 0), (0x07B40035, .remW 29 20 0 0), (0x07D50C08, .sra 30 21 1 1),
    (0x07D50C36, .remnW 30 21 1 1), (0x07F61009, .rotl 31 22 2 0)] : List (W32 × Instr)).all reads = true := by decide +kernel

/-- R51, R59, R61, R62: majors 0x02 and 0x04 to 0x0E. Distinct values in every field. -/
theorem test_words_immediate : ([(0x08170201, .swr 23 0x20), (0x08380202, .sxch 1 24 0x20), (0x0BE00200, .srd 31 0x20), (0x11411234, .addi 10 1 0x1234),
    (0x15628F31, .andi 11 2 0x8f31), (0x19831234, .ori 12 3 0x1234), (0x1DA48F31, .xori 13 4 0x8f31), (0x21C50025, .slli 14 5 0x25),
    (0x21E61025, .srli 15 6 0x25), (0x22072025, .srai 16 7 0x25), (0x22288013, .slliW 17 8 19), (0x22499015, .srliW 18 9 21),
    (0x226AA01E, .sraiW 19 10 30), (0x268B1234, .slti 20 11 0x1234), (0x2AAC8F31, .sltni 21 12 0x8f31), (0x2EC01234, .lhi 22 0x1234),
    (0x32E08F31, .addpc 23 0x8f31), (0x370F1234, .addiW 24 15 0x1234), (0x38008F31, .trap 0x8f31)] : List (W32 × Instr)).all reads = true := by decide +kernel

/-- R51, R59, R63: majors 0x03 and 0x10 to 0x1C. Distinct values in every field. -/
theorem test_words_memory : ([(0x0C1B3A42, .cbInit 27 7 0 9), (0x0C1C0243, .cbNeed 28 0 9), (0x0C1D0644, .cbRoom 29 1 9), (0x0C1E0245, .cbAdvH 30 0 9), (0x0C1F0646, .cbAdvT 31 1 9),
    (0x0C592C00, .ldbit 2 25 5 1), (0x0C7A3001, .stbit 3 26 6 0), (0x0D200247, .cbStat 9 0 9), (0x43511234, .ldS8 26 17 0x1234),
    (0x47728F31, .ldN8 27 18 0x8f31), (0x4B931234, .ldS16 28 19 0x1234), (0x4FB48F31, .ldN16 29 20 0x8f31), (0x53D51234, .ldS32 30 21 0x1234),
    (0x57F68F31, .ldN32 31 22 0x8f31), (0x58171234, .ld64 0 23 0x1234), (0x5C388F31, .ldV 1 24 0x8f31), (0x60591234, .st8 2 25 0x1234),
    (0x647A8F31, .st16 3 26 0x8f31), (0x689B1234, .st32 4 27 0x1234), (0x6CBC8F31, .st64 5 28 0x8f31), (0x70DD1234, .stV 6 29 0x1234)] : List (W32 × Instr)).all reads = true := by decide +kernel

/-- R51, R59: majors 0x20 to 0x2A. Distinct values in every field. -/
theorem test_words_branch : ([(0x83CA8F31, .beq 30 10 0x8f31), (0x87EB1234, .bne 31 11 0x1234), (0x880C8F31, .blt 0 12 0x8f31), (0x8C2D1234, .bge 1 13 0x1234),
    (0x904E8F31, .bltn 2 14 0x8f31), (0x946F1234, .bgen 3 15 0x1234), (0x9AABCDE5, .j 0x2abcde5), (0x9EABCDE5, .jal 0x2abcde5),
    (0xA2ABCDE5, .reyoke 0x2abcde5), (0xA4071234, .jr 7 0x1234), (0xAA288F31, .jalr 17 8 0x8f31)] : List (W32 × Instr)).all reads = true := by decide +kernel

/-- R64, R65: majors 0x30 and 0x31. Distinct values in every field. -/
theorem test_words_atomic : ([(0xC013F830, .amAddPs 19 31 0 1), (0xC0140421, .amAndPs 20 0 1 0), (0xC0150832, .amOrPs 21 1 0 1), (0xC0161423, .amXorPs 22 2 1 0),
    (0xC0171834, .amMinPs 23 3 0 1), (0xC0182425, .amMaxPs 24 4 1 0), (0xC0192836, .amMinnPs 25 5 0 1), (0xC01A3427, .amMaxnPs 26 6 1 0),
    (0xC249AC00, .amAdd 18 9 21 1 0), (0xC26AB011, .amAnd 19 10 22 0 1), (0xC28BBC02, .amOr 20 11 23 1 0), (0xC2ACC013, .amXor 21 12 24 0 1),
    (0xC2CDCC04, .amMin 22 13 25 1 0), (0xC2EED015, .amMax 23 14 26 0 1), (0xC30FDC06, .amMinn 24 15 27 1 0), (0xC330E017, .amMaxn 25 16 28 0 1),
    (0xC351EC08, .amSwap 26 17 29 1 0), (0xC372F019, .amCas 27 18 30 0 1), (0xC4000003, .fence 0 3), (0xC400001A, .fenceEngPl 0),
    (0xC4000419, .fenceEngDr 1), (0xC400041B, .fenceEng 1), (0xC4BC040A, .ldAcq 5 28 1 2), (0xC4DD0014, .stRel 6 29 0 4)] : List (W32 × Instr)).all reads = true := by decide +kernel

/-- R63: majors 0x32 to 0x37. Distinct values in every field. -/
theorem test_words_task : ([(0xC8000004, .yield 0), (0xC8000011, .unyoke 0), (0xC8000405, .wfe 1), (0xC8010400, .sow 1 1), (0xC8027401, .sowAt 2 14 1),
    (0xC8037802, .sowCap 3 15 0), (0xC8040003, .endTask 4 0), (0xC8070406, .sev 7 1), (0xC808A408, .trigArm 8 20 1), (0xC809A809, .trigDec 9 21 0),
    (0xC80B040B, .hmask 11 1), (0xC80C0010, .yoke 12 0), (0xCA6A040A, .trigRd 19 10 1), (0xCC000009, .mqPop 0), (0xCC000402, .msgGo 1),
    (0xCC0E0000, .msgH 14 0), (0xCC0F0541, .msgD 15 1 5), (0xCC11E803, .msgTo 17 29 0), (0xCF600188, .mqRd 27 0 6), (0xCFA0000A, .mqPeek 29 0),
    (0xD0150800, .mbPost 21 1 0), (0xD0161401, .mbTake 22 2 1), (0xD0171808, .gbpAcc 23 3 0), (0xD0182409, .gbpSub 24 4 1), (0xD019280A, .gbpElim 25 5 0),
    (0xD07A300B, .gbpDamp 3 26 6 0), (0xD09B3C0C, .gbpRes 4 27 7 1), (0xD4000011, .hlDefer 0), (0xD4000249, .barWait 0 9), (0xD4000648, .barArrive 1 9),
    (0xD402024A, .barMask 2 0 9), (0xD4A00000, .rdtime 5 0), (0xD4C00401, .rdtimeLoc 6 1), (0xD4FE0402, .rdband 7 30 1), (0xD5000403, .rdpos 8 1),
    (0xD580064B, .barStat 12 1 9), (0xD5A00010, .hlStat 13 0), (0xD8000001, .park 0), (0xD8060000, .resume 6 0), (0xD808A402, .faultPost 8 20 1),
    (0xDC0B0402, .sqRetire 11 1), (0xDC0DC809, .kvPut 13 25 0), (0xDE490000, .sqTake 18 9 0), (0xDE6A0401, .sqAdmit 19 10 1), (0xDEAC0408, .kvGet 21 12 1),
    (0xDEEED00A, .stopTest 23 14 26 0)] : List (W32 × Instr)).all reads = true := by decide +kernel

/-- R66: majors 0x38 and 0x39; R55: the all-ones word. Distinct values in every field. -/
theorem test_words_engine : ([(0xE003C001, .plGeo 15 1), (0xE00C3802, .plMma 16 28 1), (0xE0147A00, .plMmt 17 29 0), (0xE01CBC00, .plZacc 18 30), (0xE024C000, .plLdacc 19),
    (0xE02D0002, .plStacc 20 1), (0xE0354000, .plWait 21), (0xE03D8402, .plTile 22 2 1), (0xE0400000, .plFlush), (0xE20E0802, .plMmaBlk 24 4 1),
    (0xE2164A00, .plMmtBlk 25 5 0), (0xE23E8C02, .plTileBlk 26 6 1), (0xE406CE00, .drCopyGp 27 7), (0xE40F1000, .drCopyPg 28 8),
    (0xE4175200, .drCopyPp 29 9), (0xE41F9400, .drCopyGg 30 10), (0xE427D600, .drGathG 31 11), (0xE4281800, .drGathP 0 12), (0xE4305A00, .drScatG 1 13),
    (0xE4389C00, .drScatP 2 14), (0xE440DE00, .drFillG 3 15), (0xE4492000, .drFillP 4 16), (0xE4514000, .drWait 5), (0xFFFFFFFF, .brk)] : List (W32 × Instr)).all reads = true := by decide +kernel

/-- R67: major 0x3C. Distinct values in every field. -/
theorem test_words_vector : ([(0xF0170011, .vnegS32 0 23), (0xF0380012, .vrcpF32 1 24), (0xF0590013, .vrsqF32 2 25), (0xF07A3014, .vand 3 26 6), (0xF09B3815, .vor 4 27 7),
    (0xF0BC4016, .vxor 5 28 8), (0xF0DD4817, .vsll 6 29 9), (0xF0FE5018, .vsrl 7 30 10), (0xF11F5819, .vsra 8 31 11), (0xF120619A, .vsel 9 0 12 6),
    (0xF141681B, .vdotF32 10 1 13), (0xF162701C, .vsclF32 11 2 14), (0xF1837820, .vcmpEqF32 12 3 15), (0xF1A48021, .vcmpNeF32 13 4 16),
    (0xF1C58822, .vcmpLtF32 14 5 17), (0xF1E69000, .vaddF32 15 6 18), (0xF1E69023, .vcmpLeF32 15 6 18), (0xF2079801, .vaddS32 16 7 19),
    (0xF2079824, .vcmpEqS32 16 7 19), (0xF228A002, .vsubF32 17 8 20), (0xF228A025, .vcmpNeS32 17 8 20), (0xF249A803, .vsubS32 18 9 21),
    (0xF249A826, .vcmpLtS32 18 9 21), (0xF26AB004, .vmulF32 19 10 22), (0xF26AB027, .vcmpLeS32 19 10 22), (0xF28BB805, .vmulS32 20 11 23),
    (0xF28BB82A, .vcmpLtN32 20 11 23), (0xF2ACC02B, .vcmpLeN32 21 12 24), (0xF2ACC486, .vfmaF32 21 12 24 18), (0xF2CD0030, .vraddF32 22 13),
    (0xF2CDCCC7, .vfnmF32 22 13 25 19), (0xF2EE0031, .vraddS32 23 14), (0xF2EED008, .vminF32 23 14 26), (0xF30F0032, .vrmaxF32 24 15),
    (0xF30FD809, .vminS32 24 15 27), (0xF3300033, .vrmaxS32 25 16), (0xF330E00A, .vminN32 25 16 28), (0xF3510034, .vrminF32 26 17),
    (0xF351E80B, .vmaxF32 26 17 29), (0xF3720035, .vrminS32 27 18), (0xF372F00C, .vmaxS32 27 18 30), (0xF3930036, .vrmaxiF32 28 19),
    (0xF393F80D, .vmaxN32 28 19 31), (0xF3B4000E, .vabsF32 29 20), (0xF3D5000F, .vabsS32 30 21), (0xF3F60010, .vnegF32 31 22)] : List (W32 × Instr)).all reads = true := by decide +kernel

/-- R67: major 0x3D. Distinct values in every field. -/
theorem test_words_lanes : ([(0xF4170003, .vcvtF16F32 0 23), (0xF4380004, .vcvtF32Bf16 1 24), (0xF4590005, .vcvtF32F16 2 25), (0xF47A0006, .vcvtE4m3F32 3 26),
    (0xF49B0007, .vcvtE5m2F32 4 27), (0xF4BC0008, .vcvtF32E4m3 5 28), (0xF4DD0009, .vcvtF32E5m2 6 29), (0xF4FE5010, .vpackS16 7 30 10),
    (0xF51F5811, .vpackN16 8 31 11), (0xF5206012, .vpackS8 9 0 12), (0xF5416813, .vpackN8 10 1 13), (0xF5620054, .vunpkS16 11 2 1),
    (0xF5830055, .vunpkN16 12 3 1), (0xF5A400D6, .vunpkS8 13 4 3), (0xF5C50097, .vunpkN8 14 5 2), (0xF5E60020, .vbcast 15 6), (0xF6070161, .vext 16 7 5),
    (0xF62801A2, .vins 17 8 6), (0xF649A823, .vperm 18 9 21), (0xF66A01E4, .vrot 19 10 7), (0xF68BB825, .vshfl 20 11 23), (0xF6ACC028, .ldgV 21 12 24),
    (0xF6CDC829, .stgV 22 13 25), (0xF7B40000, .vcvtF32S32 29 20), (0xF7D50001, .vcvtS32F32 30 21), (0xF7F60002, .vcvtBf16F32 31 22)] : List (W32 × Instr)).all reads = true := by decide +kernel

/-! ## Witnesses: decoding, the step, the invariant -/

theorem witness_DecodeAfterEncode : Instr.wf (.ldAcq 2 3 1 4) = true ∧ encode (.ldAcq 2 3 1 4) = some 0xC443040C := by decide
theorem witness_EncodeAfterDecode : decode 0xC443040C = .ok (.ldAcq 2 3 1 4) := rfl
/-- A word placed by `withFetchWord` is what the next step executes. -/
def placed (w : Nat) : State := State.reset.withFetchWord 32 w
theorem witness_StepRuns : fetches (placed 0x10420001) fetchTask 0x10420001 ∧ decode 0x10420001 = .ok (.addi 2 2 1) ∧
    (fetches (placed 0x0400001F) fetchTask 0x0400001F ∧ decode 0x0400001F = .error .illegal) ∧
    (let s := { base with sched := [.event (.drain 0)] }; s.sched = .event (.drain 0) :: [] ∧ (Instr.drain 0).isEvent = true) :=
  ⟨⟨by decide, by decide, by decide, by decide, by decide, by decide, by decide, by decide, by decide, by decide, by decide, by decide, by decide, _, rfl, by decide, by decide⟩,
    rfl,
    ⟨⟨by decide, by decide, by decide, by decide, by decide, by decide, by decide, by decide, by decide, by decide, by decide, by decide, by decide, _, rfl, by decide, by decide⟩,
      rfl⟩, by decide⟩
/-- The turn of an illegal word: it comes to execute; its slot is halted, or fetches another word; and a fault of an engine operation is due before it. -/
noncomputable def illegal1 : State := { placed 0x0400001F with sched := [.event (.illegalInstruction 0x0400001F)] }
noncomputable def haltedTurn : State := illegal1.setSlot illegal1.cur { illegal1.slot illegal1.cur with halted := true }
noncomputable def dueTurn : State := illegal1.modTask illegal1.cur fun t => { t with async := [⟨0x20, {}, 0, 0⟩] }
theorem witness_IllegalTurns : (fetches { illegal1 with sched := [] } fetchTask 0x0400001F ∧ decode 0x0400001F = .error .illegal) ∧
    (haltedTurn.task haltedTurn.cur = some fetchTask ∧ (haltedTurn.slot haltedTurn.cur).halted = true) ∧
    (illegal1.task illegal1.cur = some fetchTask ∧ illegal1.fetch illegal1.cur fetchTask ≠ .ok 0x0400001E) ∧
    (∃ t, dueTurn.task dueTurn.cur = some t ∧ (dueTurn.slot dueTurn.cur).halted = false ∧ dueTurn.frozenHold (dueTurn.taskHold dueTurn.cur t) = false ∧
      dueTurn.fetch dueTurn.cur t = .ok 0x0400001F ∧ dueTurn.members dueTurn.cur = [dueTurn.cur] ∧ ∃ u, ({ dueTurn with sched := [] } : State).takeDue dueTurn.cur = some u) :=
  ⟨⟨⟨by decide, by decide, by decide, by decide, by decide, by decide, by decide, by decide, by decide, by decide, by decide, by decide, by decide, _, rfl, by decide, by decide⟩, rfl⟩,
    by decide, by decide +kernel, _, rfl, by decide, by decide, by decide +kernel, by decide, _, rfl⟩
theorem witness_StepKeepsInv : Inv State.reset ∧ Inv base ∧ ∃ s', step base = .next s' := by
  have m : ∀ s : State, (Memory.wf s.mem = true ∧ Memory.wf s.hostMem = true ∧ (∀ f, Memory.wf (s.fn f).hostMem = true) ∧ s.mode = 4 ∧ s.pmNext = none) → Inv s := fun s h =>
    ⟨h.1, h.2.1, h.2.2.1, .inr (.inr h.2.2.2.1), fun m hm => by rw [h.2.2.2.2] at hm; cases hm⟩
  exact ⟨m _ (by decide), m _ (by decide), _, rfl⟩
theorem witness_StepRunsMmio : calm.mmioInstr 0 0 0x10 5 true = some (.registerWrite 0 0 .stwLease 5) ∧ calm.mmioInstr 1 1 0x18 5 true = none ∧
    ({ calm with sched := [.mmioWrite 0 0 0x10 5 true] } : State).sched = [.mmioWrite 0 0 0x10 5 true] := ⟨rfl, by decide +kernel, rfl⟩
/-- A word that `decodeTableWord` reads is the one that the next step executes after `withFetchWord`. -/
theorem test_tableWord : decodeTableWord 32 0x10420001 = some (.addi 2 2 1) ∧
    (match step (placed 0x10420001) with
      | .next s => (s.task me).map fun t => (t.g[2], t.pc)
      | _ => none) = some (1, 0x10004) := by decide +kernel
end Sys2Proof.Tests
end

/-! SUPPORT. The reset state, one accessor at a time (14 R302, R303, 20 R413, 21 R439), and the invariant in it. -/

namespace Sys2Proof.Claims
open Sys2Proof.Machine

@[simp] theorem die_reset (d : DieId) : State.reset.die d = {} := Vector.getElem_replicate _

@[simp] theorem image_reset (d : DieId) : State.reset.image d = {} := Vector.getElem_replicate _

/-- At reset a die's image lists no core. -/
@[simp] theorem core_reset (c : CoreRef) : State.reset.core c = ({} : Image).unlisted := by
  rw [State.core, image_reset]
  rfl

@[simp] theorem estate_reset (e : Fin 4) : State.reset.estate e = {} := Vector.getElem_replicate _

@[simp] theorem hold_reset (h : HoldRef) : State.reset.hold h = {} := by
  rw [State.hold, estate_reset]
  exact Vector.getElem_replicate _

@[simp] theorem links_reset (k : Fin 16) : State.reset.links[k] = {} := Vector.getElem_replicate _

/-- At reset the memories are empty, and the mode is 4 (log 9). -/
theorem Inv.reset : Inv State.reset :=
  ⟨rfl, rfl, fun _ => rfl, .inr (.inr rfl), by simp [State.reset]⟩

/-- Settles O42: each value is the one that its accessor has at reset. -/
theorem resetState : Obligations.ResetState :=
  ⟨Inv.reset, rfl, rfl, rfl, rfl, rfl, rfl, rfl, rfl, rfl, rfl, rfl,
    fun h => by rw [hold_reset],
    fun e => by rw [estate_reset]; exact ⟨rfl, rfl, rfl⟩,
    fun d => by rw [die_reset]; exact ⟨rfl, rfl⟩,
    fun k => by rw [links_reset],
    fun c => by rw [core_reset]; exact ⟨rfl, rfl, rfl, rfl, rfl⟩⟩

end Sys2Proof.Claims

/-! SUPPORT. Every operation of the machine keeps the invariant (01 R18, 19 R409). Only a few operations write a field that the invariant
speaks of: the writes of stack and host memory, which keep the canonical form, and the changes of partition mode, which name a legal mode.
Every other operation is a composition of these and of changes of other fields (`Inv.frame`), and its lemma follows its definition. -/

namespace Sys2Proof.Claims
open Sys2Proof.Machine

/-! The lemmas are elaborated one after another: side by side they would hold a thread's stack each. -/
set_option Elab.async false

/-! ## The invariant and what an operation answers -/

/-- The fields of a state of which the invariant speaks. -/
abbrev guarded (s : State) : List Host.Cell × List Host.Cell × FMap Function × BitVec 3 × Option (BitVec 3) :=
  (s.mem, s.hostMem, s.functions, s.mode, s.pmNext)

/-- A change of any other field keeps the invariant. -/
theorem Inv.frame {s u : State} (h : Inv s) (e : guarded u = guarded s := by with_reducible rfl) : Inv u := by
  simp only [guarded, Prod.mk.injEq] at e
  obtain ⟨hmem, hhost, hfns, hmode, hnext⟩ := e
  simpa only [Inv, State.fn, hmem, hhost, hfns, hmode, hnext] using h

/-- The state after an outcome, if there is one, meets the invariant. -/
inductive Keeps : Host.Outcome State Fault Refusal → Prop
  | next {s : State} (h : Inv s) : Keeps (.next s)
  | fault {f : Fault} : Keeps (.fault f)
  | refused {r : Refusal} : Keeps (.refused r)

/-- The state that an effect leaves meets the invariant; the change of a wait keeps it. -/
inductive EffKeeps : Eff → Prop
  | done {s : State} {v : Word} (h : Inv s) : EffKeeps (.done s v)
  | jump {s : State} {v pc : Word} (h : Inv s) : EffKeeps (.jump s v pc)
  | gone {s : State} (h : Inv s) : EffKeeps (.gone s)
  | waitWith {f : State → State} (h : ∀ s, Inv s → Inv (f s)) : EffKeeps (.waitWith f)
  | wait {rs} : EffKeeps (.wait rs)
  | trap {t : Trap} : EffKeeps (.trap t)

/-- The state, if there is one, meets the invariant. -/
inductive OptKeeps : Option State → Prop
  | some {s : State} (h : Inv s) : OptKeeps (some s)
  | none : OptKeeps none

/-- The state, if no cause stands in its place, meets the invariant. -/
inductive SumKeeps : Trap ⊕ State → Prop
  | inr {s : State} (h : Inv s) : SumKeeps (.inr s)
  | inl {t : Trap} : SumKeeps (.inl t)

/-- The effect with which a check ends early keeps the invariant. -/
inductive ErrKeeps {α : Type} : Except Eff α → Prop
  | error {e : Eff} (h : EffKeeps e) : ErrKeeps (.error e)
  | ok {x : α} : ErrKeeps (.ok x)

theorem Keeps.get {o : Host.Outcome State Fault Refusal} {u : State} : Keeps o → o = .next u → Inv u
  | .next h, rfl => h

theorem OptKeeps.get {o : Option State} {u : State} : OptKeeps o → o = Option.some u → Inv u
  | .some h, rfl => h

theorem SumKeeps.get {o : Trap ⊕ State} {u : State} : SumKeeps o → o = .inr u → Inv u
  | .inr h, rfl => h

theorem ErrKeeps.get {α : Type} {x : Except Eff α} {f : Eff} : ErrKeeps x → x = .error f → EffKeeps f
  | .error h, rfl => h

/-! ## Choices and repetitions -/

theorem Inv.ite {c : Prop} [Decidable c] {a b : State} (ha : Inv a) (hb : Inv b) : Inv (if c then a else b) := by
  split
  · exact ha
  · exact hb

theorem Keeps.ite {c : Prop} [Decidable c] {a b : Host.Outcome State Fault Refusal} (ha : Keeps a) (hb : Keeps b) :
    Keeps (if c then a else b) := by
  split
  · exact ha
  · exact hb

theorem EffKeeps.ite {c : Prop} [Decidable c] {a b : Eff} (ha : EffKeeps a) (hb : EffKeeps b) : EffKeeps (if c then a else b) := by
  split
  · exact ha
  · exact hb

theorem OptKeeps.ite {c : Prop} [Decidable c] {a b : Option State} (ha : OptKeeps a) (hb : OptKeeps b) : OptKeeps (if c then a else b) := by
  split
  · exact ha
  · exact hb

theorem OptKeeps.map {α : Type} {o : Option α} {f : α → State} (hf : ∀ x, Inv (f x)) : OptKeeps (o.map f) := by
  cases o with
  | none => exact .none
  | some x => exact .some (hf x)

theorem OptKeeps.mapState {o : Option State} {f : State → State} (h : OptKeeps o) (hf : ∀ s, Inv s → Inv (f s)) : OptKeeps (o.map f) := by
  cases h with
  | none => exact .none
  | some h => exact .some (hf _ h)

theorem OptKeeps.bind {α : Type} {o : Option α} {f : α → Option State} (hf : ∀ x, OptKeeps (f x)) : OptKeeps (o.bind f) := by
  cases o with
  | none => exact .none
  | some x => exact hf x

theorem OptKeeps.findSome {α : Type} {l : List α} {f : α → Option State} (hf : ∀ x, OptKeeps (f x)) : OptKeeps (l.findSome? f) := by
  cases e : l.findSome? f with
  | none => exact .none
  | some u =>
    obtain ⟨a, -, ha⟩ := List.exists_of_findSome?_eq_some e
    exact .some ((hf a).get ha)

theorem SumKeeps.map {α : Type} {x : Trap ⊕ α} {f : α → State} (hf : ∀ a, Inv (f a)) : SumKeeps (x.map id f) := by
  cases x with
  | inl => exact .inl
  | inr a => exact .inr (hf a)

theorem Inv.foldl {α : Type} {s : State} {f : State → α → State} {l : List α} (h : Inv s) (hf : ∀ s a, Inv s → Inv (f s a)) :
    Inv (l.foldl f s) :=
  List.foldlRecOn l f h fun s hs a _ => hf s a hs

theorem Inv.foldr {α : Type} {s : State} {f : α → State → State} {l : List α} (h : Inv s) (hf : ∀ a s, Inv s → Inv (f a s)) :
    Inv (l.foldr f s) :=
  List.foldrRecOn l f h fun s hs a _ => hf a s hs

/-- The check of an access goes on with a value, waits or traps. -/
theorem EffKeeps.got {α : Type} {g : Got α} {info addr : Word} {f : α → Eff} (hf : ∀ x, EffKeeps (f x)) : EffKeeps (g.eff info addr f) := by
  cases g with
  | ok x => exact hf x
  | wait => exact .wait
  | trap => exact .trap

theorem EffKeeps.onLoc {x : Trap ⊕ Loc} {f : Loc → Eff} (hf : ∀ l, EffKeeps (f l)) : EffKeeps (onLoc x f) := by
  cases x with
  | inl => exact .trap
  | inr l => exact hf l

theorem EffKeeps.onPair {pa pb info : Word} {x y : GRec} {first both : Eff} (hf : EffKeeps first) (hb : EffKeeps both) :
    EffKeeps (onPair pa pb info x y first both) :=
  .ite .trap (.ite .trap (.ite .trap (.ite hf (.ite .trap hb))))

/-! ## The writes of what the invariant speaks of -/

theorem Inv.fn {s : State} (h : Inv s) (f : Fin 64) : Memory.wf (s.fn f).hostMem = true := h.2.2.1 f

theorem Inv.setFn {s : State} {f : Fin 64} {x : Function} (h : Inv s) (hx : Memory.wf x.hostMem = true) : Inv (s.setFn f x) := by
  obtain ⟨hmem, hhost, hfns, hmode⟩ := h
  refine ⟨hmem, hhost, fun g => ?_, hmode⟩
  simp only [State.fn, State.setFn, FMap.get_set]
  split
  · exact hx
  · exact hfns g

/-- A change of a function's registers. -/
theorem Inv.setRegs {s : State} {f : Fin 64} {x : Function} (h : Inv s) (hx : x.hostMem = (s.fn f).hostMem := by rfl) : Inv (s.setFn f x) :=
  h.setFn (hx ▸ h.fn f)

/-- A change of the stacks' memory alone. -/
theorem Inv.setMem {s u : State} (h : Inv s) (hm : Memory.wf u.mem = true)
    (e : guarded u = (u.mem, (guarded s).2) := by with_reducible rfl) : Inv u := by
  simp only [guarded, Prod.mk.injEq] at e
  obtain ⟨-, hhost, hfns, hmode, hnext⟩ := e
  obtain ⟨-, h⟩ := h
  exact ⟨hm, by simpa only [State.fn, hhost, hfns, hmode, hnext] using h⟩

/-- A change of the host's memory alone. -/
theorem Inv.setHostMem {s u : State} (h : Inv s) (hh : Memory.wf u.hostMem = true)
    (e : guarded u = (s.mem, u.hostMem, (guarded s).2.2) := by with_reducible rfl) : Inv u := by
  simp only [guarded, Prod.mk.injEq] at e
  obtain ⟨hmem, -, hfns, hmode, hnext⟩ := e
  obtain ⟨hm, -, h⟩ := h
  exact ⟨hmem ▸ hm, hh, by simpa only [State.fn, hfns, hmode, hnext] using h⟩

/-- A change of the partition mode and of the one that waits. -/
theorem Inv.setMode {s u : State} (h : Inv s) (hm : u.mode = 1 ∨ u.mode = 2 ∨ u.mode = 4)
    (hn : ∀ m, u.pmNext = some m → m = 1 ∨ m = 2 ∨ m = 4)
    (e : guarded u = (s.mem, s.hostMem, s.functions, u.mode, u.pmNext) := by with_reducible rfl) : Inv u := by
  simp only [guarded, Prod.mk.injEq] at e
  obtain ⟨hmem, hhost, hfns, -⟩ := e
  obtain ⟨h₁, h₂, h₃, -⟩ := h
  exact ⟨hmem ▸ h₁, hhost ▸ h₂, by simpa only [State.fn, hfns] using h₃, hm, hn⟩

/-! ## Accessors -/

theorem Inv.setDie {s d x} (h : Inv s) : Inv (s.setDie d x) := h.frame rfl

theorem Inv.setImage {s d x} (h : Inv s) : Inv (s.setImage d x) := h.frame rfl

theorem Inv.setCore {s c x} (h : Inv s) : Inv (s.setCore c x) :=
  h.setImage

theorem Inv.setSlot {s r x} (h : Inv s) : Inv (s.setSlot r x) :=
  h.setCore

theorem Inv.setTask {s r t} (h : Inv s) : Inv (s.setTask r t) :=
  h.setSlot

theorem Inv.modTask {s r f} (h : Inv s) : Inv (s.modTask r f) := by
  unfold State.modTask
  split
  · exact h.setTask
  · exact h

theorem Inv.setCluster {s d c x} (h : Inv s) : Inv (s.setCluster d c x) :=
  h.setImage

theorem Inv.setEstate {s e x} (h : Inv s) : Inv (s.setEstate e x) := h.frame rfl

theorem Inv.setHold {s hd x} (h : Inv s) : Inv (s.setHold hd x) :=
  h.setEstate

theorem Inv.modHold {s hd f} (h : Inv s) : Inv (s.modHold hd f) :=
  h.setHold

/-! ## Accesses to memory -/

theorem Inv.addReq {s die r} (h : Inv s) : Inv (s.addReq die r) :=
  .ite h h.setDie

theorem Inv.askPage {s pasid page} (h : Inv s) : Inv (s.askPage pasid page) := h.frame rfl

theorem Inv.writePool {s c off bs} (h : Inv s) : Inv (s.writePool c off bs) :=
  h.setCore

theorem Inv.ring {s hit} (h : Inv s) : Inv (s.ring hit) := h.frame rfl

theorem Inv.putMem {s ws} (h : Inv s) : Inv (s.putMem ws) :=
  (h.setMem (u := { s with mem := Memory.writeAll s.mem ws }) (Memory.wf_writeAll h.1 ws)).ring

theorem Inv.putHost {s ws} (h : Inv s) : Inv (s.putHost ws) := by
  unfold State.putHost
  split
  · exact h
  · exact (h.setHostMem (u := { s with hostMem := Memory.writeAll s.hostMem _ }) (Memory.wf_writeAll h.2.1 _)).ring

theorem Inv.hostWriteMem {s a bs} (h : Inv s) : Inv (s.hostWriteMem a bs) :=
  (h.setHostMem (u := { s with hostMem := Memory.write s.hostMem a bs }) (Memory.wf_write h.2.1 a bs)).ring

theorem Inv.writeLoc {s hd l bs} (h : Inv s) : Inv (s.writeLoc hd l bs) := by
  unfold State.writeLoc
  split
  · exact h.writePool
  · exact h.putMem.modHold

theorem Inv.putSys {s ws} (h : Inv s) : Inv (s.putSys ws) :=
  h.putMem.putHost

theorem Inv.sysWrite {s e pasid ea bs} (h : Inv s) : OptKeeps (s.sysWrite e pasid ea bs) :=
  .map fun _ => h.putSys

theorem Inv.noteGuest {s home l} (h : Inv s) : Inv (s.noteGuest home l) := by
  unfold State.noteGuest
  split
  · split
    · exact .ite h.setCore h
    · exact h
  · exact h

theorem Inv.stain {s l bad} (h : Inv s) : Inv (s.stain l bad) := by
  unfold State.stain
  split
  · exact h.setCore
  · exact h.frame

theorem Inv.perform {s b} (h : Inv s) : Inv (s.perform b) := by
  unfold State.perform
  split
  · dsimp only
    split
    · exact h.noteGuest.writeLoc.stain
    · exact h.noteGuest.writeLoc
  · exact h

theorem Inv.performAll {s bs} (h : Inv s) : Inv (s.performAll bs) := by
  induction bs generalizing s with
  | nil => exact h
  | cons b bs ih => exact ih h.perform

theorem Inv.drainStores {s r n} (h : Inv s) : Inv (s.drainStores r n) := by
  unfold State.drainStores
  split
  · exact h
  · exact h.setSlot.performAll

theorem Inv.flush {s r} (h : Inv s) : Inv (s.flush r) :=
  h.drainStores

theorem Inv.performOne {s r n} (h : Inv s) : Inv (s.performOne r n) := by
  unfold State.performOne
  dsimp only
  split
  · exact .ite h h.setSlot.perform
  · exact h

theorem Inv.flushFor {s r ls} (h : Inv s) : Inv (s.flushFor r ls) :=
  h.drainStores

theorem Inv.flushReleased {s r} (h : Inv s) : Inv (s.flushReleased r) :=
  h.drainStores

theorem Inv.buffer {s r b} (h : Inv s) : Inv (s.buffer r b) :=
  h.setSlot

theorem Inv.flushLocks {s c locks} (h : Inv s) : Inv (s.flushLocks c locks) :=
  h.foldl fun _ _ h => h.drainStores

theorem Inv.flushCore {s c} (h : Inv s) : Inv (s.flushCore c) :=
  h.foldl fun _ _ h => h.flush

theorem Inv.flushHold {s r hd} (h : Inv s) : Inv (s.flushHold r hd) :=
  h.drainStores

theorem Inv.flushDie {s d} (h : Inv s) : Inv (s.flushDie d) :=
  h.foldl fun _ _ h => h.flushCore

theorem Inv.wipeDie {s d} (h : Inv s) : Inv (s.wipeDie d) :=
  h.flushDie.setImage

theorem Inv.leaveDie {s d} (h : Inv s) : Inv (s.leaveDie d) :=
  h.flushDie.setImage

/-! ## Tasks and traps -/

theorem Inv.signal {s f v} (h : Inv s) : Inv (s.signal f v) := by
  unfold State.signal
  exact .ite h.setRegs h.frame

theorem Inv.hostEvent {s b} (h : Inv s) : Inv (s.hostEvent b) := by
  unfold State.hostEvent
  exact .ite h.frame h.frame.signal

theorem Inv.post {s hd r} (h : Inv s) : Inv (s.post hd r) := by
  unfold State.post
  exact .ite h.setHold h.setHold.hostEvent

theorem Inv.postReturn {s hd dest m} (h : Inv s) : Inv (s.postReturn hd dest m) := by
  unfold State.postReturn
  exact .ite h.post (.ite h.post.post h.setHold.hostEvent)

theorem Inv.setFlt {s c cause pc addr info} (h : Inv s) : Inv (s.setFlt c cause pc addr info) :=
  h.setCore

theorem Inv.saveImage {s r t pc} (h : Inv s) : Inv (s.saveImage r t pc) :=
  h.writePool

theorem Inv.modTrigger {s c e f} (h : Inv s) : Inv (s.modTrigger c e f) :=
  h.setCore

theorem Inv.settle {s hd c} (h : Inv s) : Inv (s.settle hd c) :=
  .ite h.setCore h

theorem Inv.pushReady {s d x} (h : Inv s) : Inv (s.pushReady d x) :=
  h.setImage

theorem Inv.pushDeque {s c x} (h : Inv s) : Inv (s.pushDeque c x) :=
  h.setCore

theorem Inv.keepSeed {s r x} (h : Inv s) : Inv (s.keepSeed r x) :=
  h.setSlot

theorem Inv.restoreSeed {s r x} (h : Inv s) : Inv (s.restoreSeed r x) :=
  .ite h.pushDeque (.ite h.pushReady h.keepSeed)

theorem Inv.freeSeed {s c x} (h : Inv s) : Inv (s.freeSeed c x) :=
  .ite h.pushReady h.pushDeque

theorem Inv.markStep {s r pc fetchFirst} (h : Inv s) : Inv (s.markStep r pc fetchFirst) :=
  .ite h.modTask h

theorem Inv.release {s d cl m} (h : Inv s) : Inv (s.release d cl m) := by
  unfold State.release
  dsimp only
  split
  · split
    · exact h.setTask.markStep
    · exact h
  · exact h

theorem Inv.dissolve {s d cl y} (h : Inv s) : Inv (s.dissolve d cl y) := by
  unfold State.dissolve
  exact h.setCluster.foldl fun _ _ h => h.release

theorem Inv.leaveYoke {s r} (h : Inv s) : Inv (s.leaveYoke r) := by
  unfold State.leaveYoke
  split
  · exact h
  · exact .ite h.dissolve h.setCluster

theorem Inv.copyHome {s r t} (h : Inv s) : Inv (s.copyHome r t) := by
  unfold State.copyHome
  split
  · exact h.setCore.setCore
  · exact h

theorem Inv.copyBack {s r t} (h : Inv s) : Inv (s.copyBack r t) := by
  unfold State.copyBack
  split
  · exact h.copyHome.setCore
  · exact h

theorem Inv.postAsync {s c o ended cause info addr} (h : Inv s) : Inv (s.postAsync c o ended cause info addr) := by
  unfold State.postAsync
  exact h.setFlt.post

theorem Inv.postPending {s c t ended} (h : Inv s) : Inv (s.postPending c t ended) :=
  h.foldl fun _ _ h => h.postAsync

theorem Inv.abandon {s die who} (h : Inv s) : Inv (s.abandon die who) := by
  unfold State.abandon
  exact h.setDie

theorem Inv.dropLoader {s hd} (h : Inv s) : Inv (s.dropLoader hd) :=
  h.foldl fun _ _ h => h.abandon

theorem Inv.vacate {s r t} (h : Inv s) : Inv (s.vacate r t) := by
  unfold State.vacate
  exact (Inv.leaveYoke (.ite h.flush h)).abandon.setCore.copyBack.postPending.setSlot

theorem Inv.abort {s r park} (h : Inv s) : Inv (s.abort r park) := by
  unfold State.abort
  split
  · exact h
  · dsimp only
    split
    · exact .ite (h.vacate.foldl fun _ _ h => h.postReturn) (.ite h.vacate.modTrigger.setSlot h.vacate.modTrigger.settle)
    · exact .ite h.vacate.freeSeed (.ite h.vacate.keepSeed.setSlot h.vacate.restoreSeed)

theorem Inv.takeTrap {s r tr pc next async} (h : Inv s) : Inv (s.takeTrap r tr pc next async) := by
  unfold State.takeTrap
  split
  · exact h
  · dsimp only
    split
    · exact .ite
        (Inv.postPending (.ite h.flush.setFlt.saveImage.setSlot.leaveYoke.post.hostEvent h.flush.setFlt.saveImage.setSlot.leaveYoke.post))
        (.ite h.flush.setFlt.abort.post.hostEvent h.flush.setFlt.abort.post)
    · exact .ite h.flush.setFlt.abort.post.hostEvent h.flush.setFlt.abort.post
    · refine .ite h.flush.setFlt.abort (Inv.setSlot ?_)
      split
      · exact h.flush.setFlt.vacate.modTrigger
      · exact h.flush.setFlt.vacate
    · exact h.flush.setFlt.abort
    · exact h.flush.setFlt.post

theorem Inv.engineFault {s c o cause info addr} (h : Inv s) : Inv (s.engineFault c o cause info addr) := by
  unfold State.engineFault
  dsimp only
  split
  · exact .ite (.ite h.postAsync h.setTask) h.postAsync
  · exact h.postAsync

theorem Inv.clearMark {s r} (h : Inv s) : Inv (s.clearMark r) :=
  h.setSlot

theorem Inv.unhalt {s r t discard} (h : Inv s) : Inv (s.unhalt r t discard) := by
  refine .ite ?_ h.setTask.clearMark
  dsimp only
  split
  · exact h.vacate.clearMark.modTrigger
  · exact h.vacate.clearMark

theorem Inv.releaseWork {s r discard} (h : Inv s) : Inv (s.releaseWork r discard) := by
  unfold State.releaseWork
  exact .ite (h.setSlot.foldl fun _ _ h => h.modTrigger).clearMark (h.setSlot.clearMark.foldl fun _ _ h => h.restoreSeed)

theorem Inv.unpark {s hd r discard} (h : Inv s) : Inv (s.unpark hd r discard) := by
  unfold State.unpark
  refine .ite h ?_
  refine Inv.settle ?_
  split
  · exact .ite h.releaseWork.unhalt h.releaseWork
  · exact h.releaseWork

theorem Inv.resumeAt {s hd x y slot discard} (h : Inv s) : Inv (s.resumeAt hd x y slot discard) := by
  unfold State.resumeAt
  refine .ite h.unpark ?_
  split
  · exact h.unpark
  · exact h

theorem Inv.start {s hd r t} (h : Inv s) : Inv (s.start hd r t) := by
  unfold State.start
  exact h.setSlot.frame

theorem Inv.startSeed {s hd r x} (h : Inv s) : Inv (s.startSeed hd r x) :=
  h.start

theorem Inv.startTrigger {s hd r e} (h : Inv s) : Inv (s.startTrigger hd r e) := by
  unfold State.startTrigger
  exact h.modTrigger.start

/-! ## The frame of an instruction -/

theorem Inv.writeReg {s r d v} (h : Inv s) : Inv (s.writeReg r d v) := by
  unfold State.writeReg
  split
  · exact h.modTask
  · split
    · exact h
    · exact h.setCore.modTask

theorem Inv.waitAt {s r reqs} (h : Inv s) : Inv (s.waitAt r reqs) :=
  (h.foldl fun _ _ h => h.addReq).modTask

theorem Inv.retire {s r c t} (h : Inv s) : Inv (s.retire r c t) :=
  h.setCore.setTask

/-- The frame of an instruction keeps the invariant where its effect does. -/
theorem Inv.runOp {srcs dst f s} (h : Inv s) (hf : ∀ s r t vs, Inv s → EffKeeps (f s r t vs)) : Keeps (runOp srcs dst f s) := by
  unfold Machine.runOp
  dsimp only
  split
  · exact .fault
  next t _ =>
    split
    · exact .next h.takeTrap
    · split
      · exact .next h.waitAt
      next vs c _ =>
        have he := hf (s.retire s.cur c t) s.cur t vs h.retire
        split
        · exact .next h.waitAt
        · generalize f (s.retire s.cur c t) s.cur t vs = x at he
          cases he with
          | done he => exact .next he.writeReg
          | jump he => exact .next he.modTask.writeReg
          | gone he => exact .next he
          | waitWith hg => exact .next (hg _ h.waitAt)
          | wait => exact .next h.waitAt
          | trap => exact .next h.takeTrap

theorem Inv.valueOp {srcs dst f s} (h : Inv s) : Keeps (valueOp srcs dst f s) :=
  h.runOp fun _ _ _ _ h => .done h

theorem Inv.readOp {srcs dst f s} (h : Inv s) : Keeps (readOp srcs dst f s) :=
  h.runOp fun _ _ _ _ h => .done h

theorem Inv.storeNow {s r t l bs} (h : Inv s) : Inv (s.storeNow r t l bs) :=
  h.noteGuest.writeLoc

theorem Inv.loads {s r ls f} (h : Inv s) (hf : ∀ u, Inv u → EffKeeps (f u)) : EffKeeps (s.loads r ls f) :=
  hf _ h.flushFor

theorem Inv.fences {s r f} (h : Inv s) (hf : ∀ u, Inv u → EffKeeps (f u)) : EffKeeps (s.fences r f) :=
  hf _ h.flush

theorem EffKeeps.waitFor {r w} : EffKeeps (waitFor r w) := .waitWith fun _ h => h.modTask

theorem Inv.fetchAhead {s r pc keep} (h : Inv s) : Inv (s.fetchAhead r pc keep) := by
  unfold State.fetchAhead
  split
  · exact h
  · refine .ite h.setTask ?_
    split
    · exact h.setTask
    · exact h

theorem Inv.fetchTrap {s r t cause} (h : Inv s) : Inv (s.fetchTrap r t cause) := by
  unfold State.fetchTrap
  exact h.frame.takeTrap

theorem Inv.onFull {set s k} (h : Inv s) (hf : ∀ u, Inv u → Keeps (k u)) : Keeps (onFull set s k) := by
  unfold Machine.onFull
  dsimp only
  split
  · exact .fault
  · exact .ite (.next h.takeTrap) (hf _ h)

/-! ## Atomics and fences -/

theorem Inv.atomic {unsigned w z srcs d f s} (h : Inv s) : Keeps (atomic unsigned w z srcs d f s) := by
  unfold Machine.atomic
  refine h.runOp fun _ _ _ _ h => .ite .trap ?_
  refine .got fun _ => h.fences fun _ h => .ite .trap ?_
  dsimp only
  refine .done ?_
  split
  · exact h.storeNow
  · exact h

theorem Inv.postedAtomic {k w z a b s} (h : Inv s) : Keeps (postedAtomic k w z a b s) := by
  unfold Machine.postedAtomic
  exact h.runOp fun _ _ _ _ h => .ite .trap (.got fun _ => .done h.buffer)

theorem Inv.execLdAcq {d a hb scope s} (h : Inv s) : Keeps (execLdAcq d a hb scope s) := by
  unfold Machine.execLdAcq
  exact h.runOp fun _ _ _ _ h => .ite .trap (.got fun _ => h.loads fun _ h => .ite .trap (.done h))

theorem Inv.execStRel {d a hb scope s} (h : Inv s) : Keeps (execStRel d a hb scope s) := by
  unfold Machine.execStRel
  exact h.runOp fun _ _ _ _ h => .ite .trap (.got fun _ => .done h.buffer)

theorem Inv.fenceEng {dr pl s} (h : Inv s) : Keeps (fenceEng dr pl s) := by
  unfold Machine.fenceEng
  exact Inv.runOp (.ite h.flush h) fun _ _ _ _ h => .ite (.waitWith fun _ h => h.modTask) (.ite .wait (.done h))

/-! ## Barriers -/

theorem Inv.settleBarrier {s hd k} (h : Inv s) : Inv (s.settleBarrier hd k) := by
  unfold State.settleBarrier
  exact .ite (h.foldl fun _ _ h => h.setImage).modHold h

theorem Inv.excuse {s c k ex} (h : Inv s) : Inv (s.excuse c k ex) :=
  .ite h (.ite h.setCore h.setCore)

theorem Inv.leaveBarriers {s hd c} (h : Inv s) : Inv (s.leaveBarriers hd c) := by
  unfold State.leaveBarriers
  exact h.setCore.foldl fun _ _ h => h.settleBarrier

theorem Inv.execBarArrive {hb k s} (h : Inv s) : Keeps (execBarArrive hb k s) :=
  h.runOp fun _ _ _ _ h => .ite .trap (h.fences fun _ h => .ite (.done h) (.done h.setCore.settleBarrier))

theorem Inv.execBarWait {hb k s} (h : Inv s) : Keeps (execBarWait hb k s) :=
  h.runOp fun _ _ _ _ h => .ite .trap (.ite (.waitWith fun _ h => h.modTask) (.done h))

theorem Inv.execBarMask {a hb k s} (h : Inv s) : Keeps (execBarMask a hb k s) :=
  h.runOp fun _ _ _ _ h => .ite .trap (.done (h.foldl fun _ _ h => h.excuse).settleBarrier)

/-! ## Engines -/

theorem Inv.holdDie {s d} (h : Inv s) : Inv (s.holdDie d) :=
  h.setImage

theorem Inv.setEvent {s r} (h : Inv s) : Inv (s.setEvent r) :=
  h.setSlot

/-! ## Messages -/

theorem Inv.leave {s hd src ms} (h : Inv s) : Inv (s.leave hd src ms) :=
  h.modHold

theorem Inv.dropPacket {s hd n} (h : Inv s) : Inv (s.dropPacket hd n) :=
  h.modHold

theorem Inv.keepPacket {s hd n p} (h : Inv s) : Inv (s.keepPacket hd n p) :=
  h.modHold

theorem Inv.ringWrite {s c x n ws} (h : Inv s) : Inv (State.ringWrite s c x n ws) := by
  induction ws generalizing s n with
  | nil => exact h
  | cons w ws ih => exact ih h.writePool

theorem Inv.deliverAt {s hd n p c} (h : Inv s) : Inv (s.deliverAt hd n p c) := by
  unfold State.deliverAt
  extract_lets s
  have h : Inv s := .ite h h.setCore
  refine .ite (.ite h.dropPacket.postReturn (.ite h.keepPacket h.dropPacket.ringWrite.setCore)) (.ite h.dropPacket.setCore ?_)
  split
  · exact h.dropPacket.setCore
  · exact h.keepPacket

theorem Inv.execDeliver {hd n s} (h : Inv s) : Keeps (execDeliver hd n s) := by
  unfold Machine.execDeliver
  split
  · exact .next h
  · exact .ite (.next h) (.ite (.next h.dropPacket.postReturn) (.next h.deliverAt))

theorem Inv.execFaultRecordOffer {hd s} (h : Inv s) : Keeps (execFaultRecordOffer hd s) := by
  unfold Machine.execFaultRecordOffer
  split
  · exact .ite (.next h.modHold.setCore) (.next h)
  · exact .next h

theorem Inv.draft {s r d} (h : Inv s) : Inv (s.draft r d) :=
  h.modTask

theorem Inv.execMsgH {a hb s} (h : Inv s) : Keeps (execMsgH a hb s) := by
  unfold Machine.execMsgH
  refine h.runOp fun _ _ _ _ h => .ite .trap ?_
  split
  · exact .trap
  · exact .done h.draft

theorem Inv.execMsgTo {a b hb s} (h : Inv s) : Keeps (execMsgTo a b hb s) := by
  unfold Machine.execMsgTo
  refine h.runOp fun _ _ _ _ h => ?_
  dsimp only
  split
  · exact .trap
  · exact .done h.draft

theorem Inv.modOpen {s r f} (h : Inv s) : Inv (s.modOpen r f) :=
  h.modTask

theorem Inv.execMsgD {a hb k s} (h : Inv s) : Keeps (execMsgD a hb k s) := by
  unfold Machine.execMsgD
  refine h.runOp fun _ _ _ _ h => ?_
  split
  · exact .trap
  · exact .ite .trap (.done h.modOpen)

theorem Inv.dropMsg {s r t e} (h : Inv s) : Inv (s.dropMsg r t e) := by
  unfold State.dropMsg
  exact Inv.modTask (.ite h.modTrigger h)

theorem Inv.popPend {s r t e pend} (h : Inv s) : Inv (s.popPend r t e pend) := by
  unfold State.popPend
  split
  · exact .ite h.modTrigger.modTask h.dropMsg
  · exact h.dropMsg

theorem Inv.popMsg {s r t e} (h : Inv s) : Inv (s.popMsg r t e) := by
  unfold State.popMsg
  dsimp only
  split
  · exact .ite h.modHold.dropMsg.setCore.modTask h.popPend
  · exact h.popPend

theorem Inv.execMqPop {d s} (h : Inv s) : Keeps (execMqPop d s) := by
  refine h.runOp fun _ _ _ _ h => ?_
  split
  · exact .done h.popMsg
  · exact .done h

/-! ## Seeds and ends of tasks -/

theorem Inv.loadPool {s hd c tag} (h : Inv s) : Inv (s.loadPool hd c tag) := by
  unfold State.loadPool
  split
  · exact h
  · exact .ite h h.writePool.setCore

theorem Inv.adopt {s hd c x} (h : Inv s) : Inv (s.adopt hd c x) :=
  h.setCore.loadPool

theorem Inv.dispatchSeed {s hd r x} (h : Inv s) : Inv (s.dispatchSeed hd r x) := by
  unfold State.dispatchSeed
  exact Inv.startSeed (.ite (Inv.loadPool (.ite h h.adopt)) (.ite h h.adopt))

theorem Inv.runInline {s r t x} (h : Inv s) : Inv (s.runInline r t x) := by
  unfold State.runInline
  exact h.saveImage.setSlot.frame

theorem Inv.placeInline {s r x} (h : Inv s) : OptKeeps (s.placeInline r x) := by
  unfold State.placeInline
  split
  · exact .none
  · exact .ite (.some h.runInline) (.ite (.some h.pushReady) .none)

theorem Inv.placeTask {s r t x} (h : Inv s) : OptKeeps (s.placeTask r t x) := by
  unfold State.placeTask
  dsimp only
  split
  · exact .ite (.some h.pushReady) .none
  · refine .ite (.some h.pushDeque) ?_
    refine .ite .none ?_
    split
    · exact .ite (.some h.dispatchSeed) h.placeInline
    · exact h.placeInline

theorem Inv.showEnd {s r t join} (h : Inv s) : Inv (s.showEnd r t join) :=
  .ite h.flush (.ite h h.flushReleased)

theorem Inv.sendEnd {s r t join} (h : Inv s) : Inv (s.sendEnd r t join) :=
  h.showEnd.copyHome.leave

theorem Inv.restoreCaller {s r t c} (h : Inv s) : Inv (s.restoreCaller r t c) := by
  unfold State.restoreCaller
  exact h.setTask

theorem Inv.finish {s r t} (h : Inv s) : Inv (s.finish r t) := by
  unfold State.finish
  dsimp only
  split
  · exact h.setCore.restoreCaller
  · split
    · exact h.vacate.modTrigger
    · exact h.vacate

/-! ## Rings, sequences and pages -/

theorem Inv.modServing {s hd f} (h : Inv s) : Inv (s.modServing hd f) :=
  h.modHold

theorem Inv.cqWrite {s hd c} (h : Inv s) : OptKeeps (s.cqWrite hd c) := by
  unfold State.cqWrite
  exact .ite .none (.mapState h.sysWrite fun _ h => h.modServing.signal)

theorem Inv.cqFailed {s hd} (h : Inv s) : Inv (s.cqFailed hd) :=
  .ite h h.modServing

theorem Inv.cqDrain {s k cs} (h : Inv s) : Inv (s.cqDrain k cs) := by
  induction cs generalizing s with
  | nil => exact h.modServing
  | cons c cs ih =>
    unfold State.cqDrain
    split
    next u e => exact ih (h.cqWrite.get e)
    · exact h.cqFailed.modServing

theorem Inv.cqFlush {s hd} (h : Inv s) : Inv (s.cqFlush hd) :=
  h.cqDrain

theorem Inv.complete {s hd c} (h : Inv s) : Inv (s.complete hd c) :=
  h.modServing.cqFlush

theorem Inv.execSqTake {d a hb s} (h : Inv s) : Keeps (execSqTake d a hb s) := by
  refine h.runOp fun _ _ _ _ h => ?_
  dsimp only
  split
  · exact .ite .trap (.done h)
  · exact .trap

theorem Inv.admitRequest {s hd a} (h : Inv s) : Inv (s.admitRequest hd a).1 := by
  unfold State.admitRequest
  dsimp only
  split
  · exact h
  · split
    · exact h
    · split
      · exact h.modServing
      · split
        · split
          · exact h
          · exact h.modServing.complete
        · exact h.modServing

theorem Inv.execStopTest {d a b hb s} (h : Inv s) : Keeps (execStopTest d a b hb s) := by
  refine h.runOp fun _ _ _ _ h => .ite .trap ?_
  split
  · exact .done h
  · dsimp only
    split
    · exact .done h.modServing
    · exact .ite .wait (h.fences fun _ h => .done h.modServing)

theorem Inv.execSqRetire {a hb s} (h : Inv s) : Keeps (execSqRetire a hb s) := by
  refine h.runOp fun _ _ _ _ h => .ite .trap ?_
  split
  · exact .done h
  · exact .ite .wait (h.fences fun _ h => .done h.modServing)

theorem Inv.execKvGet {d a hb s} (h : Inv s) : Keeps (execKvGet d a hb s) := by
  refine h.runOp fun _ _ _ _ h => .ite .trap ?_
  split
  · exact .done h
  · refine .ite (.done h) ?_
    split
    · exact .done h
    · exact .done h.modServing

theorem Inv.execKvPut {a b hb s} (h : Inv s) : Keeps (execKvPut a b hb s) := by
  refine h.runOp fun _ _ _ _ h => ?_
  dsimp only
  split
  · exact .trap
  · exact .done h
  · exact .ite (h.fences fun _ h => .done h.modServing) (.done h)

/-! ## The scheduler -/

theorem Inv.pushFront {s d x} (h : Inv s) : Inv (s.pushFront d x) :=
  h.setImage

theorem Inv.forwardTo {s d x} (h : Inv s) : Inv (s.forwardTo d x) :=
  .ite h.pushFront h.pushReady

theorem Inv.reclaim {s c m} (h : Inv s) : Inv (s.reclaim c m).1 := by
  unfold State.reclaim
  split
  · exact h.modTrigger
  · exact h

theorem Inv.startOffer {s r x x3} (h : Inv s) : Inv (s.startOffer r x x3) := by
  unfold State.startOffer
  split
  · exact h.dispatchSeed
  · exact (Inv.reclaim (.ite h h.adopt)).start
  · exact h.flushCore.setCore.start
  · exact h

theorem Inv.setServed {s d c} (h : Inv s) : Inv (s.setServed d c) :=
  h.setImage

theorem Inv.takeReady {s d n} (h : Inv s) : Inv (s.takeReady d n) :=
  h.setImage

theorem Inv.serve {s r} (h : Inv s) : Inv (s.serve r) := by
  unfold State.serve
  dsimp only
  split
  · exact h
  · split
    · exact h
    · exact h.takeReady.forwardTo
    · exact .ite h h.takeReady.setServed.setImage.startOffer

theorem Inv.takeTail {s hd r} (h : Inv s) : Inv (s.takeTail hd r) := by
  unfold State.takeTail
  split
  · exact h
  · dsimp only
    split
    · exact .ite h.setCore.forwardTo h
    · exact .ite h.setCore.dispatchSeed (.ite h.setCore.pushReady h)

theorem Inv.execDispatch {r s} (h : Inv s) : Keeps (execDispatch r s) := by
  unfold Machine.execDispatch
  refine .ite (.next h) ?_
  split
  · exact .next (.ite h.takeTail h)
  · exact .next (.ite h.setCore.startTrigger h)
  · exact .next (.ite h.serve h)

theorem Inv.execPartitionChange {c s} (h : Inv s) : Keeps (execPartitionChange c s) := by
  unfold Machine.execPartitionChange
  split
  · exact .next h
  · refine .ite (.next h) ?_
    split
    · split
      · exact .next (.ite h h.adopt)
      · exact .next h
    · split
      · exact .next (.ite h.adopt h)
      · exact .next h

theorem Inv.concStart {s hd key p} (h : Inv s) : Inv (s.concStart hd key p) := by
  unfold State.concStart
  dsimp only
  split
  · split
    · exact h.takeReady.dispatchSeed
    · exact h
  · exact h

theorem Inv.execConcurrentDispatch {hd tag s} (h : Inv s) : Keeps (execConcurrentDispatch hd tag s) := by
  unfold Machine.execConcurrentDispatch
  split
  · exact .next h
  · exact .ite (.next (h.foldl fun _ _ h => h.concStart).modServing) (.next h)

theorem Inv.execGleanCluster {c s} (h : Inv s) : Keeps (execGleanCluster c s) := by
  unfold Machine.execGleanCluster
  split
  · exact .next h
  · refine .ite (.next h) ?_
    split
    · exact .next h
    · split
      · exact .next h
      · dsimp only
        split
        · exact .next h.setCore.dispatchSeed
        · exact .next (.ite h.setCore.forwardTo h)
        · exact .next h

theorem Inv.execGleanHolding {d s} (h : Inv s) : Keeps (execGleanHolding d s) := by
  unfold Machine.execGleanHolding
  split
  · exact .next h
  · refine .ite (.next h) ?_
    split
    · exact .next h
    · exact .next h.setImage.setImage

theorem Inv.execRestoreSeedMove {r s} (h : Inv s) : Keeps (execRestoreSeedMove r s) := by
  unfold Machine.execRestoreSeedMove
  refine .ite (.next h) ?_
  refine .ite ?_ ?_
  · split
    · exact .next (.ite h.setCore.pushReady h)
    · exact .next h
  · split
    · exact .next (.ite h h.setSlot.restoreSeed)
    · exact .next h

theorem Inv.overrun {s r t} (h : Inv s) : Inv (s.overrun r t) :=
  h.takeTrap

theorem Inv.execHandlerWatchdog {r s} (h : Inv s) : Keeps (execHandlerWatchdog r s) := by
  unfold Machine.execHandlerWatchdog
  split
  · exact .next h
  · exact .next (.ite h.overrun h)

theorem Inv.execMigrate {r s} (h : Inv s) : Keeps (execMigrate r s) := by
  unfold Machine.execMigrate
  split
  · exact .next h
  · exact .ite (.next h) (.next h.setSlot.pushFront)

/-! ## The steward and the gates on registers -/

theorem Inv.countDenied {s} (h : Inv s) : Inv s.countDenied := h.frame rfl

theorem Inv.stewardWrite {s port f} (h : Inv s) (hf : ∀ u, Inv u → Inv (f u)) : Inv (s.stewardWrite port f) :=
  .ite (hf _ h) h.countDenied

theorem Inv.pfWrite {s port f} (h : Inv s) (hf : ∀ u, Inv u → Inv (f u)) : Inv (s.pfWrite port f) :=
  .ite (h.stewardWrite fun _ h => hf _ h) h

theorem Inv.estWrite {s port e f} (h : Inv s) (hf : ∀ u, Inv u → Inv (f u)) : Inv (s.estWrite port e f) :=
  h.pfWrite fun _ h => .ite (hf _ h) h

theorem Inv.fnWrite {s fn port f} (h : Inv s) (hf : ∀ u, Inv u → Inv (f u)) : Inv (s.fnWrite fn port f) :=
  .ite (h.pfWrite fun _ h => hf _ h) (.ite (hf _ h) h)

theorem Inv.vfWrite {s fn port f} (h : Inv s) (hf : ∀ x u, Inv u → Inv (f x u)) : Inv (s.vfWrite fn port f) := by
  unfold State.vfWrite
  split
  · exact .ite (hf _ _ h) h
  · exact h

theorem Inv.lapse {s} (h : Inv s) : Inv s.lapse :=
  h.frame.hostEvent

theorem Inv.expire {s} (h : Inv s) : Inv s.expire :=
  .ite h.lapse h

theorem Inv.execStewardClaim {port w s} (h : Inv s) : Keeps (execStewardClaim port w s) := by
  unfold Machine.execStewardClaim
  dsimp only
  refine .next ?_
  split
  · exact .ite h.expire h.expire.frame
  · exact h.expire

theorem Inv.readDenied {s} (h : Inv s) : Inv s.readDenied := h.frame rfl

/-! ## Launches -/

theorem Inv.writeControl {s hd r v} (h : Inv s) : Inv (s.writeControl hd r v) :=
  h.modServing

theorem Inv.execWalkerPush {hd s} (h : Inv s) : Keeps (execWalkerPush hd s) := by
  unfold Machine.execWalkerPush
  split
  · split
    · exact .next h.modServing
    · exact .next h
  · exact .next h

theorem Inv.execWalkerCompletion {hd s} (h : Inv s) : Keeps (execWalkerCompletion hd s) := by
  unfold Machine.execWalkerCompletion
  split
  · split
    · split
      next u e =>
        exact .next (h.cqWrite.get e).modServing
      · exact .next h.cqFailed
    · exact .next h
  · exact .next h

theorem Inv.loadBytes {s e pasid dst bs} (h : Inv s) : Inv (State.loadBytes s e pasid dst bs).1 := by
  induction bs generalizing s dst with
  | nil => exact h
  | cons b bs ih =>
    unfold State.loadBytes
    split
    next u e => exact ih (h.sysWrite.get e)
    · exact h

theorem Inv.relocate {s e pasid base offs} (h : Inv s) : Inv (State.relocate s e pasid base offs).1 := by
  induction offs generalizing s with
  | nil => exact h
  | cons off offs ih =>
    unfold State.relocate
    dsimp only
    split
    · exact h
    · split
      next u e => exact ih (h.sysWrite.get e)
      · exact h

theorem Inv.loadImage {s e pasid base image offs} (h : Inv s) : Inv (s.loadImage e pasid base image offs).1 := by
  have hb := h.loadBytes (e := e) (pasid := pasid) (dst := base.toNat) (bs := image)
  unfold State.loadImage
  split
  next e => rw [e] at hb; exact hb.relocate
  · exact hb

theorem Inv.discardSeed {s hd xy x} (h : Inv s) : Inv (s.discardSeed hd xy x) :=
  h.post

theorem Inv.seedPool {s hd r key c} (h : Inv s) : Inv (s.seedPool hd r key c) :=
  .ite h.loadPool h

theorem Inv.placeSeed {s hd r pasid base key xy} (h : Inv s) : Inv (s.placeSeed hd r pasid base key xy) := by
  unfold State.placeSeed
  refine .ite h.discardSeed ?_
  refine .ite h.seedPool.pushReady ?_
  split
  · exact h
  · exact h.seedPool.setSlot.pushReady.modServing

theorem Inv.launchDone {s hd q tag status placed} (h : Inv s) : Inv (s.launchDone hd q tag status placed) :=
  h.complete

theorem Inv.entryFault {s hd q tag} (h : Inv s) : Inv (s.entryFault hd q tag) :=
  h.modServing.launchDone

theorem Inv.placeLaunch {s hd q pasid bs base r poolData} (h : Inv s) : Inv (s.placeLaunch hd q pasid bs base r poolData) := by
  unfold State.placeLaunch
  exact .ite h.launchDone (h.modServing.frame.foldl fun _ _ h => h.placeSeed)

theorem Inv.loaded {s hd} (h : Inv s) : Inv (s.loaded hd) :=
  h.dropLoader.modServing

theorem Inv.loaderMiss {s hd l tag m} (h : Inv s) : Inv (s.loaderMiss hd l tag m) := by
  unfold State.loaderMiss
  dsimp only
  split
  · split
    · exact h.loaded.entryFault
    · exact h
  · split
    · exact .ite h.loaded.entryFault h.addReq
    · exact h.addReq

theorem Inv.takeRecord {s k l bs} (h : Inv s) : Inv (s.takeRecord k l bs) := by
  unfold State.takeRecord
  dsimp only
  split
  · exact h.loaderMiss
  · split
    · exact h.loaded.launchDone
    · split
      · exact h.loaderMiss
      · split
        · exact h.loaded.launchDone
        · split
          · exact h
          · split
            · exact h.loaded.placeLaunch
            · split
              · exact h.loaderMiss
              · split
                next e => exact (e ▸ h.loadImage : Inv (_, _).1).loaded.placeLaunch
                next e => exact (e ▸ h.loadImage : Inv (_, _).1).loaderMiss

theorem Inv.loadEntry {s hd l} (h : Inv s) : Inv (s.loadEntry hd l) := by
  unfold State.loadEntry
  split
  · exact h.loaderMiss
  · exact .ite h.loaded.launchDone h.takeRecord

theorem Inv.takeEntry {s hd q} (h : Inv s) : Inv (s.takeEntry hd q) := by
  unfold State.takeEntry
  exact h.modServing.loadEntry

theorem Inv.execLaunchTake {hd s} (h : Inv s) : Keeps (execLaunchTake hd s) := by
  refine .next ?_
  refine .ite h ?_
  split
  · exact h.loadEntry
  · exact h.setHold.takeEntry
  · exact h

theorem Inv.fenceHold {s hd} (h : Inv s) : Inv (s.fenceHold hd) :=
  h.foldl fun _ _ h => h.foldl fun _ _ h => h.flushHold

theorem Inv.execLaunchComplete {hd tag s} (h : Inv s) : Keeps (execLaunchComplete hd tag s) := by
  unfold Machine.execLaunchComplete
  split
  · exact .next h
  · exact .ite (.next h) (.next h.fenceHold.modServing.launchDone)

/-! ## Vector instructions -/

theorem Inv.setV {s r x v} (h : Inv s) : Inv (s.setV r x v) :=
  h.modTask

theorem Inv.vop {d f s} (h : Inv s) : Keeps (vop d f s) :=
  h.runOp fun _ _ _ _ h => .done h.setV

theorem Inv.vop1 {f d a s} (h : Inv s) : Keeps (vop1 f d a s) :=
  h.vop

theorem Inv.vop2 {f d a b s} (h : Inv s) : Keeps (vop2 f d a b s) :=
  h.vop

theorem Inv.vop3 {f d a b c s} (h : Inv s) : Keeps (vop3 f d a b c s) :=
  h.vop

theorem Inv.vread {d f s} (h : Inv s) : Keeps (vread d f s) :=
  h.runOp fun _ _ _ _ h => .done h

theorem ErrKeeps.except {α : Type} {g : Got α} {info addr} : ErrKeeps (g.except info addr) := by
  cases g with
  | ok x => exact .ok
  | wait => exact .error .wait
  | trap => exact .error .trap

theorem ErrKeeps.vecLocate {s : State} {r pasid ea n info} : ErrKeeps (s.vecLocate r pasid ea n info) := by
  unfold State.vecLocate
  split
  · exact .error .trap
  · split
    · split
      · exact .except
      · exact .error .trap
    · dsimp only
      split
      · exact .error .trap
      · split
        · exact .error .trap
        · split
          next e => exact .error (ErrKeeps.except.get e)
          · split
            next e => exact .error (ErrKeeps.except.get e)
            · exact .ok

theorem ErrKeeps.lanesLocate {s : State} {r pasid n info eas} : ErrKeeps (s.lanesLocate r pasid n info eas) := by
  induction eas with
  | nil => exact .ok
  | cons ea eas ih =>
    unfold State.lanesLocate
    split
    · exact .error .trap
    · split
      next e => exact .error (ErrKeeps.except.get e)
      · cases e : s.lanesLocate r pasid n info eas with
        | error f => exact .error (ih.get e)
        | ok ls => exact .ok

theorem Inv.execLdV {d a i s} (h : Inv s) : Keeps (execLdV d a i s) := by
  unfold Machine.execLdV
  refine h.runOp fun _ _ _ _ h => ?_
  dsimp only
  split
  next e => exact ErrKeeps.vecLocate.get e
  · refine h.loads fun _ h => ?_
    split
    · exact .trap
    · exact .done h.setV

theorem Inv.bufferAll {s r t mate xs} (h : Inv s) : Inv (s.bufferAll r t mate xs) := by
  induction xs generalizing s mate with
  | nil => exact h
  | cons x xs ih => exact ih h.buffer

theorem Inv.execStV {d a i s} (h : Inv s) : Keeps (execStV d a i s) := by
  unfold Machine.execStV
  refine h.runOp fun _ _ _ _ h => ?_
  split
  next e => exact ErrKeeps.vecLocate.get e
  · exact .done h.bufferAll

theorem Inv.execLdgV {d a b s} (h : Inv s) : Keeps (execLdgV d a b s) := by
  unfold Machine.execLdgV
  refine h.runOp fun _ _ _ _ h => ?_
  dsimp only
  split
  next e => exact ErrKeeps.lanesLocate.get e
  · refine h.loads fun _ h => ?_
    split
    · exact .trap
    · exact .done h.setV

theorem Inv.execStgV {d a b s} (h : Inv s) : Keeps (execStgV d a b s) := by
  unfold Machine.execStgV
  refine h.runOp fun _ _ _ _ h => ?_
  split
  next e => exact ErrKeeps.lanesLocate.get e
  · exact .done h.bufferAll

theorem Inv.performPart {s r t i q} (h : Inv s) : Inv (s.performPart r t i q) := by
  unfold State.performPart
  split
  · exact .ite h.flushFor h.flushFor.modTask
  · exact h

/-! ## Links and collectives -/

theorem Inv.execLinkStateChange {k up s} (h : Inv s) : Keeps (execLinkStateChange k up s) := by
  unfold Machine.execLinkStateChange
  exact .ite (.next h) (.next (.ite h.frame h.frame.hostEvent))

theorem Inv.sendCompletion {s hd w status} (h : Inv s) : Inv (s.sendCompletion hd w status) := by
  unfold State.sendCompletion
  exact .ite h.modHold h.postReturn

theorem Inv.takeDescriptor {s hd bs} (h : Inv s) : Inv (s.takeDescriptor hd bs) := by
  unfold State.takeDescriptor
  refine .ite h.sendCompletion ?_
  split
  · exact h.sendCompletion
  · exact .ite h.sendCompletion h.modServing.frame

theorem Inv.crFault {s hd} (h : Inv s) : Inv (s.crFault hd) :=
  h.modServing

theorem Inv.takeDescriptors {s k n} (h : Inv s) : Inv (s.takeDescriptors k n) := by
  induction n generalizing s with
  | zero => exact h
  | succ n ih =>
    unfold State.takeDescriptors
    dsimp only
    split
    · exact h
    · split
      · exact h.crFault
      · exact ih h.modServing.takeDescriptor

theorem Inv.readTail {s hd} (h : Inv s) : Inv (s.readTail hd) := by
  unfold State.readTail
  dsimp only
  split
  · exact h.crFault
  · exact h.modServing

theorem Inv.execCollectiveTake {hd s} (h : Inv s) : Keeps (execCollectiveTake hd s) := by
  unfold Machine.execCollectiveTake
  exact .next (.ite h (Inv.takeDescriptors (.ite h.frame.readTail h)))

theorem Inv.execRingEnable {fn ring v s} (h : Inv s) : Keeps (execRingEnable fn ring v s) := by
  refine .next ?_
  refine h.vfWrite fun _ _ h => .ite ?_ h
  dsimp only
  split
  · exact h.writeControl.modServing.cqFlush
  · exact h.writeControl.readTail
  · exact h.writeControl

theorem Inv.endCollective {s hd n c status} (h : Inv s) : Inv (s.endCollective hd n c status) :=
  h.modServing.sendCompletion

theorem Inv.execCollectiveComplete {hd n bufs s} (h : Inv s) : Keeps (execCollectiveComplete hd n bufs s) := by
  unfold Machine.execCollectiveComplete
  split
  · exact .next h
  · refine .ite (.next h) ?_
    refine .ite (.next h.endCollective) ?_
    refine .ite (.next h) ?_
    dsimp only
    split
    · exact .next h.endCollective.frame
    · split
      · exact .next h.endCollective.frame
      next u e =>
        exact .next (h.sysWrite.get e).frame.endCollective

theorem Inv.poisonRest {s hd c done} (h : Inv s) : Inv (s.poisonRest hd c done) := by
  unfold State.poisonRest
  exact h.frame

theorem Inv.cutShort {s hd c done bufs} (h : Inv s) : Inv (s.cutShort hd c done bufs) := by
  unfold State.cutShort
  refine .ite h.poisonRest ?_
  split
  · exact h.poisonRest
  · split
    · exact h.poisonRest
    next u e =>
      exact (h.sysWrite.get e).poisonRest

theorem Inv.execCollectiveTimeout {hd n part s} (h : Inv s) : Keeps (execCollectiveTimeout hd n part s) := by
  unfold Machine.execCollectiveTimeout
  split
  · exact .next h
  · exact .next (.ite h.cutShort.endCollective h)

theorem Inv.execAbandonNotice {hd n part s} (h : Inv s) : Keeps (execAbandonNotice hd n part s) := by
  unfold Machine.execAbandonNotice
  split
  · exact .next h
  · exact .next h.cutShort.endCollective

/-! ## Retired cores -/

theorem Inv.sendHome {s x} (h : Inv s) : Inv (s.sendHome x) := by
  unfold State.sendHome
  split
  · exact .ite h.setImage h.modHold
  · exact h

theorem Inv.takeMigrating {s d p} (h : Inv s) : Inv (s.takeMigrating d p).1 := by
  refine List.foldlRecOn (motive := fun a : State × List Seed => Inv a.1) _ _ h fun a h _ _ => ?_
  refine List.foldlRecOn (motive := fun a : State × List Seed => Inv a.1) _ _ h fun a h _ _ => ?_
  dsimp only
  split
  · split
    · exact h.setSlot
    · exact h
  · exact h

theorem Inv.evict {s r} (h : Inv s) : Inv (s.evict r) := by
  unfold State.evict
  split
  · exact h
  · refine .ite h.abort ?_
    dsimp only
    split
    · exact h.vacate.modTrigger
    · exact h.vacate.pushDeque

theorem Inv.stayHome {s c x} (h : Inv s) : Inv (s.stayHome c x) := by
  unfold State.stayHome
  split
  · exact h.modTrigger
  · exact h.pushDeque

theorem Inv.evictSeeds {s r home} (h : Inv s) : Inv (s.evictSeeds r home) := by
  unfold State.evictSeeds
  dsimp only
  split
  · exact .ite (h.setSlot.foldl fun _ _ h => h.pushDeque).stayHome (h.setSlot.foldl fun _ _ h => h.pushDeque).sendHome
  · exact h.setSlot.foldl fun _ _ h => h.pushDeque

theorem Inv.recall {s c home d} (h : Inv s) : Inv (s.recall c home d) :=
  h.setImage.takeMigrating.foldl fun _ _ h => h.stayHome

theorem Inv.returnAll {s hd xy c} (h : Inv s) : Inv (s.returnAll hd xy c) :=
  h.foldl fun _ _ h => h.postReturn

theorem Inv.returnRings {s hd xy} (h : Inv s) : Inv (s.returnRings hd xy) := by
  unfold State.returnRings
  exact h.modHold.foldl fun _ _ h => h.postReturn

theorem Inv.drainDeque {s c} (h : Inv s) : Inv (s.drainDeque c) := by
  unfold State.drainDeque
  exact h.setCore.setImage

theorem Inv.retireHoldingCore {s hd k c} (h : Inv s) : Inv (s.retireHoldingCore hd k c) := by
  unfold State.retireHoldingCore
  exact ((h.flushCore.foldl fun _ _ h => h.evict.evictSeeds).foldl fun _ _ h => h.recall)
    |>.returnAll.returnRings.modServing.setImage.setCore.drainDeque.leaveBarriers

theorem Inv.markRetired {s c} (h : Inv s) : Inv (s.markRetired c) := by
  unfold State.markRetired
  exact h.setDie.setImage

theorem Inv.retireCore {s c} (h : Inv s) : Inv (s.retireCore c) := by
  refine .ite h ?_
  split
  · exact h.retireHoldingCore.markRetired
  · exact (h.foldl fun _ _ h => h.evict.evictSeeds).markRetired

theorem Inv.reachCore {s hd k c} (h : Inv s) : Inv (s.reachCore hd k c) :=
  .ite h.retireHoldingCore h.drainDeque.setCore

theorem Inv.reachDie {s hd k d} (h : Inv s) : Inv (s.reachDie hd k d) := by
  unfold State.reachDie
  exact (h.foldl fun _ _ h => h.reachCore).setImage

theorem Inv.reach {s hd} (h : Inv s) : Inv (s.reach hd) :=
  h.foldl fun _ _ h => h.reachDie

/-! ## Holding commands -/

theorem Inv.dismiss {s r} (h : Inv s) : Inv (s.dismiss r) :=
  .ite h.clearMark h

theorem Inv.gather {s hd} (h : Inv s) : Inv (s.gather hd) := by
  unfold State.gather
  exact (h.foldl fun _ _ h => h.evict.dismiss).foldl fun _ _ h => .ite h (h.setImage.takeMigrating.foldl fun _ _ h => h.sendHome)

theorem Inv.clearDie {s d} (h : Inv s) : Inv (s.clearDie d) := by
  unfold State.clearDie
  exact (h.foldl fun _ _ h => h.foldl fun _ _ h => h.evict).takeMigrating.wipeDie.foldl fun _ _ h => h.sendHome

theorem Inv.regroup {s e g} (h : Inv s) : Inv (s.regroup e g) := by
  unfold State.regroup
  split
  · exact h
  · exact h.foldl fun _ _ h => h.modHold

theorem Inv.hmRefuse {s e status} (h : Inv s) : Inv (s.hmRefuse e status) :=
  h.setEstate

theorem Inv.hmStatus {s e status detail} (h : Inv s) : Inv (s.hmStatus e status detail) :=
  h.setEstate

theorem Inv.hmPend {s e c} (h : Inv s) : Inv (s.hmPend e c) :=
  h.setEstate

theorem Inv.createRun {s hd a p} (h : Inv s) : Inv (s.createRun hd a p) := by
  unfold State.createRun
  exact (h.foldl fun _ _ h => h.clearDie).setHold

theorem Inv.create {s hd a} (h : Inv s) : Inv (s.create hd a) := by
  unfold State.create
  refine .ite h.hmStatus ?_
  refine .ite h.hmStatus ?_
  refine .ite h.hmStatus ?_
  refine .ite (.ite h.hmStatus h.setHold.regroup.hmStatus) ?_
  split
  · exact h.hmStatus
  · exact h.createRun.hmStatus

theorem Inv.dropTask {s r} (h : Inv s) : Inv (s.dropTask r) := by
  unfold State.dropTask
  split
  · exact h.vacate.dismiss
  · exact h

theorem Inv.withdraw {s hd} (h : Inv s) : Inv (s.withdraw hd) := by
  unfold State.withdraw
  exact (((h.foldl fun _ _ h => h.dropTask).foldl fun _ _ h => h.setImage).foldl fun _ _ h => h.setImage.takeMigrating).modHold

theorem Inv.undefer {s hd} (h : Inv s) : Inv (s.undefer hd) :=
  h.setEstate

theorem Inv.destroy {s hd} (h : Inv s) : Inv (s.destroy hd) := by
  unfold State.destroy
  exact .ite (Inv.setHold (.ite (h.withdraw.undefer.foldl fun _ _ h => h.leaveDie) h.withdraw.undefer)).regroup.hmStatus h.hmStatus

theorem Inv.reopen {s hd} (h : Inv s) : Inv (s.reopen hd) :=
  h.foldl fun _ _ h => h.foldl fun _ _ h => h.settle

theorem Inv.startHolding {s hd} (h : Inv s) : Inv (s.startHolding hd) :=
  .ite h.modHold.reopen.hmStatus h.hmStatus

theorem Inv.setWatchdog {s hd a} (h : Inv s) : Inv (s.setWatchdog hd a) :=
  .ite h.hmStatus (.ite h.hmStatus h.modHold.hmStatus)

theorem Inv.beginStop {s hd} (h : Inv s) : Inv (s.beginStop hd) :=
  .ite h.modHold.hmPend h.hmStatus

theorem Inv.endStop {s hd reach} (h : Inv s) : Inv (s.endStop hd reach) := by
  unfold State.endStop
  exact .ite h (h.foldl fun _ _ h => h.flushDie).hostWriteMem.modHold.hmStatus

theorem Inv.cancelOps {s hd c} (h : Inv s) : Inv (s.cancelOps hd c) :=
  h.setCore.modHold

theorem Inv.beginReset {s hd} (h : Inv s) : Inv (s.beginReset hd) := by
  unfold State.beginReset
  exact (h.dropLoader.modHold.withdraw.foldl fun _ _ h => h.cancelOps).undefer

theorem Inv.abandonAll {s hd} (h : Inv s) : Inv (s.abandonAll hd) := by
  unfold State.abandonAll
  exact h.modServing.frame

theorem Inv.endReset {s hd} (h : Inv s) : Inv (s.endReset hd) := by
  unfold State.endReset
  exact (Inv.setHold (.ite (h.abandonAll.foldl fun _ _ h => h.wipeDie) h.abandonAll)).foldl fun _ _ h => h.postReturn

theorem Inv.beginEstateReset {s e} (h : Inv s) : Inv (s.beginEstateReset e) := by
  unfold State.beginEstateReset
  exact (h.setEstate.foldl fun _ _ h => .ite h h.beginReset).hmPend

theorem Inv.loseLines {s e lost} (h : Inv s) : Inv (s.loseLines e lost) := by
  unfold State.loseLines
  exact h.setMem (Memory.wf_writeAll h.1 _)

theorem Inv.endEstateReset {s e lost} (h : Inv s) : Inv (s.endEstateReset e lost) := by
  unfold State.endEstateReset
  exact .ite h ((h.foldl fun _ _ h => .ite h h.abandonAll.setHold).foldl fun _ _ h => h.leaveDie.setDie).loseLines.setEstate.hmStatus

theorem Inv.beginSwitch {s hd op time} (h : Inv s) : Inv (s.beginSwitch hd op time) := by
  unfold State.beginSwitch
  exact .ite h.hmStatus (.ite h.hmStatus h.hmPend)

theorem Inv.runCommand {s e c} (h : Inv s) : Inv (s.runCommand e c) := by
  unfold State.runCommand
  dsimp only
  split
  · exact h.create
  · exact h.destroy
  · exact h.beginStop
  · exact h.startHolding
  · exact h.beginSwitch
  · exact h.beginSwitch
  · exact h.setWatchdog
  · exact .ite h.hmStatus (Inv.hmPend (.ite h h.beginReset))
  · exact h.beginEstateReset
  · exact h.hmStatus

theorem Inv.holdReset {s e} (h : Inv s) : Inv (s.holdReset e) :=
  h.setEstate

theorem Inv.hmWrite {s e v} (h : Inv s) : Inv (s.hmWrite e v) := by
  unfold State.hmWrite
  extract_lets est hd op s c
  have h : Inv s := h.setEstate
  exact .ite h.hmRefuse (.ite (.ite h.hmRefuse h.hmStatus) (.ite h.holdReset (.ite h.hmPend h.runCommand)))

/-! ## The plough -/

theorem Inv.dropPl {s c o} (h : Inv s) : Inv (s.dropPl c o) := by
  unfold State.dropPl
  exact h.setCore.setEvent

theorem Inv.cancelPl {s c slot} (h : Inv s) : Inv (s.cancelPl c slot) :=
  h.foldl fun _ _ h => h.dropPl

theorem Inv.failPl {s c o tr} (h : Inv s) : Inv (s.failPl c o tr) :=
  h.dropPl.cancelPl.engineFault

theorem Inv.settlePl {n s c} (h : Inv s) : Inv (State.settlePl n s c) := by
  induction n generalizing s with
  | zero => exact h
  | succ n ih =>
    unfold State.settlePl
    split
    · split
      · split
        · exact ih h.failPl
        · exact ih h.dropPl
      · exact h
    · exact h

theorem Inv.issuePl {s r t o} (h : Inv s) : EffKeeps (s.issuePl r t o) := by
  unfold State.issuePl
  exact .ite .trap (.ite (.waitWith fun _ h => h.modTask) (.ite .wait (.done h.flushLocks.setCore.frame.settlePl)))

theorem Inv.grantTile {die cl n s} (h : Inv s) : Inv (State.grantTile die cl n s) := by
  induction n generalizing s with
  | zero => exact h
  | succ n ih =>
    unfold State.grantTile
    split
    · exact h
    · dsimp only
      split
      · exact h
      · split
        · exact ih h.failPl.settlePl
        · exact h.setCore.setCluster

theorem Inv.plWrite {s home c off bs} (h : Inv s) : Inv (s.plWrite home c off bs) :=
  h.noteGuest.writePool

theorem Inv.commitRows {s home c rows} (h : Inv s) : Inv (s.commitRows home c rows) :=
  h.foldl fun _ _ h => h.plWrite

theorem Inv.writePieces {s home c off bs} (h : Inv s) : Inv (s.writePieces home c off bs) :=
  h.foldl fun _ _ h => h.plWrite

theorem Inv.storeTile {s c o d} (h : Inv s) : SumKeeps (s.storeTile c o d) := by
  unfold State.storeTile
  dsimp only
  split
  · exact .inl
  · exact .inr (h.foldl fun _ _ h => h.writePieces)

theorem Inv.runTile {s c o} (h : Inv s) : SumKeeps (s.runTile c o) := by
  unfold State.runTile
  split
  · exact .inr h.plWrite
  · exact .map fun _ => h.commitRows
  · exact h.storeTile
  · exact .map fun _ => h.commitRows
  · exact .map fun _ => h.commitRows
  · exact .map fun _ => h.commitRows
  · exact .inr h

theorem Inv.commitTile {s c o} (h : Inv s) : Inv (s.commitTile c o) := by
  unfold State.commitTile
  split
  · exact h.failPl.settlePl
  next u e =>
    exact .ite (h.runTile.get e).setCore (h.runTile.get e).dropPl.settlePl

theorem Inv.execTileCommit {die cl s} (h : Inv s) : Keeps (execTileCommit die cl s) := by
  unfold Machine.execTileCommit
  split
  · exact .next h
  · dsimp only
    split
    · exact .ite (.next h.setCluster.frame.commitTile) (.next h.setCluster.frame)
    · exact .next h.setCluster.frame

theorem EffKeeps.matShape {s : State} {r kind blk z} {f : PlOp → Nat → Nat → Eff} (hf : ∀ o m n, EffKeeps (f o m n)) :
    EffKeeps (s.matShape r kind blk z f) :=
  .ite .trap (hf _ _ _)

theorem Inv.mma {blk a b z s} (h : Inv s) : Keeps (mma blk a b z s) := by
  refine h.runOp fun _ _ _ _ h => .matShape fun _ _ _ => ?_
  split
  · exact h.issuePl
  · exact .trap

theorem Inv.mmt {blk a b z s} (h : Inv s) : Keeps (mmt blk a b z s) := by
  refine h.runOp fun _ _ _ _ h => .matShape fun _ _ _ => ?_
  split
  · exact .trap
  · exact .trap
  · exact h.issuePl

theorem Inv.tileOp {blk a b z s} (h : Inv s) : Keeps (tileOp blk a b z s) := by
  refine h.runOp fun _ _ _ _ h => .ite .trap ?_
  refine .ite (.ite .trap h.issuePl) ?_
  split
  · exact .trap
  · exact .trap
  · exact h.issuePl

theorem Inv.accMove {kind out a s} (h : Inv s) : Keeps (accMove kind out a s) := by
  refine h.runOp fun _ _ _ _ h => .ite .trap ?_
  split
  · exact .trap
  · exact h.issuePl

theorem Inv.execPlWait {a s} (h : Inv s) : Keeps (execPlWait a s) :=
  h.runOp fun _ _ _ _ h => .ite (.done h) (.waitWith fun _ h => h.modTask)

theorem Inv.execPlFlush {s} (h : Inv s) : Keeps (execPlFlush s) := by
  unfold Machine.execPlFlush
  exact Inv.runOp (.ite h.cancelPl.settlePl h) fun _ _ _ _ h => .ite (.done h) (.waitWith fun _ h => h.modTask)

/-! ## Headlands and partition modes -/

theorem Inv.abortDrained {s rs} (h : Inv s) : Inv (s.abortDrained rs) := by
  refine h.foldl fun _ _ h => ?_
  split
  · exact h.takeTrap
  · exact h

theorem Inv.markDies {s ds} (h : Inv s) : Inv (s.markDies ds) :=
  h.foldl fun _ _ h => h.setImage

theorem Inv.noteStop {s e} (h : Inv s) : Inv (s.noteStop e) := by
  unfold State.noteStop
  exact h.setEstate

theorem Inv.beginDrain {s e} (h : Inv s) : Inv (s.beginDrain e) := by
  unfold State.beginDrain
  dsimp only
  split
  · exact .ite h.setEstate.noteStop.markDies.frame h.setEstate.noteStop.markDies
  · exact h.setEstate.noteStop.markDies

theorem Inv.execDrainWatchdog {e s} (h : Inv s) : Keeps (execDrainWatchdog e s) := by
  unfold Machine.execDrainWatchdog
  split
  · exact .next (.ite h.abortDrained h)
  · exact .next h.abortDrained
  · exact .next h

theorem Inv.landSeed {s r} (h : Inv s) : Inv (s.landSeed r) := by
  unfold State.landSeed
  split
  · exact .ite h.setSlot.pushFront h
  · exact h

theorem Inv.quiet {s d} (h : Inv s) : Inv (s.quiet d) := by
  unfold State.quiet
  exact h.flushDie.setDie.setImage.foldr fun _ _ h => h.foldr fun _ _ h => h.landSeed

theorem Inv.save {s hd} (h : Inv s) : Inv (s.save hd) := by
  unfold State.save
  exact h.gather.modHold.foldl fun _ _ h => h.wipeDie

theorem Inv.goOut {s hd} (h : Inv s) : Inv (s.goOut hd) :=
  .ite h.save h

theorem Inv.rotate {s e} (h : Inv s) : Inv (s.rotate e) := by
  unfold State.rotate
  exact (h.foldl fun _ _ h => h.setImage).foldl fun _ _ h => .ite h h.modHold

theorem Inv.comeIn {s hd} (h : Inv s) : Inv (s.comeIn hd) := by
  unfold State.comeIn
  dsimp only
  split
  · exact h
  · exact ((h.foldl fun _ _ h => h.clearDie).foldl fun _ _ h => h.setImage).setHold.foldl fun _ _ h => h.modHold

theorem Inv.march {s e outs ins} (h : Inv s) : Inv (s.march e outs ins) := by
  unfold State.march
  exact (((h.foldl fun _ _ h => h.quiet).foldl fun _ _ h => .ite h.modHold h).foldl fun _ _ h => h.goOut).rotate.foldl fun _ _ h => h.comeIn

theorem Inv.changeMode {s mode} (h : Inv s) (hm : mode = 1 ∨ mode = 2 ∨ mode = 4) : Inv (s.changeMode mode) := by
  unfold State.changeMode
  exact h.setMode hm fun _ e => nomatch e

theorem Inv.resetPointers {s d} (h : Inv s) : Inv (s.resetPointers d) :=
  h.setImage

theorem Inv.endSwitch {s e outs ins} (h : Inv s) : Inv (s.endSwitch e outs ins) := by
  unfold State.endSwitch
  split
  · exact .ite h.hmStatus (.ite (.ite h.hmStatus h.hmStatus) h)
  · exact h

theorem Inv.runHeld {s e} (h : Inv s) : Inv (s.runHeld e) := by
  unfold State.runHeld
  extract_lets s mine s x stat s
  have h : Inv s := ((h.foldl fun _ _ h => .ite h.beginReset h).foldl fun _ _ h => h.retireCore).frame
  refine .ite h.beginEstateReset (.ite h ?_)
  split
  · exact .ite h h.runCommand
  · exact h

/-- The mode that has waited is a legal one. -/
theorem Inv.settleMode {s} (h : Inv s) : Inv s.settleMode := by
  unfold State.settleMode
  split
  next m e => exact .ite h ((h.changeMode (h.2.2.2.2 m e)).foldl fun _ _ h => h.runHeld)
  · exact h

theorem Inv.holdCut {s e} (h : Inv s) : Inv (s.holdCut e) := by
  unfold State.holdCut
  split
  · exact .ite h.modHold.frame h
  · exact h

theorem Inv.openEstate {s e} (h : Inv s) : Inv (s.openEstate e) :=
  h.foldl fun _ _ h => .ite h.reopen h

theorem Inv.mergeSwitch {s e} (h : Inv s) : Inv (s.mergeSwitch e).1 :=
  (h.foldl fun _ _ h => h.goOut).foldl fun _ _ h => h.comeIn

theorem Inv.settleDies {s ds} (h : Inv s) : Inv (s.settleDies ds) :=
  h.foldl fun _ _ h => h.foldl fun _ _ h => h.settlePl

theorem Inv.resume {s e t outs ins} (h : Inv s) : Inv (s.resume e t outs ins) :=
  ((h.mergeSwitch.foldl fun _ _ h => .ite h.reach.modHold h).foldl fun _ _ h => h.resetPointers.holdDie)
    |>.setEstate.settleDies.holdCut.endSwitch.runHeld.openEstate

theorem Inv.execHeadlandMove {e s} (h : Inv s) : Keeps (execHeadlandMove e s) := by
  unfold Machine.execHeadlandMove
  split
  · exact .ite (.next h.march.setEstate.settleMode) (.next h)
  · exact .next h

theorem Inv.execHeadlandResume {e s} (h : Inv s) : Keeps (execHeadlandResume e s) := by
  unfold Machine.execHeadlandResume
  split
  · exact .next (.ite h.resume h)
  · exact .next h

theorem Inv.beginGang {s e c} (h : Inv s) : Inv (s.beginGang e c) := by
  unfold State.beginGang
  exact h.setEstate.noteStop.markDies

theorem Inv.gang {s e outs ins} (h : Inv s) : Inv (s.gang e outs ins) := by
  unfold State.gang
  exact (((h.foldl fun _ _ h => h.quiet).foldl fun _ _ h => h.goOut).foldl fun _ _ h => h.comeIn)
    |>.foldl (fun _ _ h => .ite (h.reach.foldl fun _ _ h => h.resetPointers.holdDie) h)
    |>.setEstate.settleDies.endSwitch.runHeld.openEstate

theorem Inv.execGangSwitch {e s} (h : Inv s) : Keeps (execGangSwitch e s) := by
  unfold Machine.execGangSwitch
  split
  · split
    · exact .next (.ite h.beginGang h)
    · exact .next h
  · exact .next (.ite h.gang h)
  · exact .next h

/-! ## Transplants -/

theorem Inv.trEnd {s status} (h : Inv s) : Inv (s.trEnd status) :=
  h.frame.hostEvent

theorem Inv.trWrite {s port op v f} (h : Inv s) (hf : ∀ u, Inv u → Inv (f u)) : Inv (s.trWrite port op v f) :=
  .ite h (h.pfWrite fun _ h => .ite h.frame (hf _ h.frame))

theorem Inv.exportHold {s hd} (h : Inv s) : Inv (s.exportHold hd) :=
  .ite h.trEnd h.frame.modHold.trEnd

theorem Inv.execTransplantTicketCheck {ticket s} (h : Inv s) : Keeps (execTransplantTicketCheck ticket s) := by
  unfold Machine.execTransplantTicketCheck
  exact .next (.ite h.frame.modHold h.frame)

theorem Inv.importHold {s hd path accepted} (h : Inv s) : Inv (s.importHold hd path accepted) :=
  .ite h.trEnd (.ite h.trEnd (.ite h.trEnd (.ite h.trEnd (.ite h.trEnd (.ite h.trEnd h.frame)))))

theorem Inv.placeImport {s hd x p} (h : Inv s) : Inv (s.placeImport hd x p) := by
  unfold State.placeImport
  exact (((h.foldl fun _ _ h => h.clearDie).foldl fun _ _ h => h.setImage).setHold.reach.foldl fun _ _ h => h.holdDie).settleDies

theorem Inv.finishImport {s hd pulled} (h : Inv s) : Inv (s.finishImport hd pulled) := by
  unfold State.finishImport
  split
  · exact h.trEnd
  · refine .ite h.trEnd ?_
    refine .ite h.trEnd ?_
    refine .ite h.trEnd ?_
    refine .ite h.trEnd ?_
    refine .ite h.trEnd ?_
    split
    · exact h.trEnd
    · exact h.placeImport.trEnd

theorem Inv.leaveImport {s hd} (h : Inv s) : Inv (s.leaveImport hd) := by
  unfold State.leaveImport
  exact (h.withdraw.undefer.foldl fun _ _ h => h.leaveDie).setHold.regroup

theorem Inv.execImportComplete {hd pulled s} (h : Inv s) : Keeps (execImportComplete hd pulled s) :=
  .ite (.next (.ite h h.finishImport)) (.next (.ite h.leaveImport h))

/-! ## Harvests -/

theorem Inv.hvEnd {s status detail} (h : Inv s) : Inv (s.hvEnd status detail) :=
  h.frame.hostEvent

theorem Inv.hvWrite {s port op v f} (h : Inv s) (hf : ∀ u, Inv u → Inv (f u)) : Inv (s.hvWrite port op v f) :=
  .ite h (h.pfWrite fun _ h => .ite h.frame (hf _ h.frame))

theorem Inv.startHarvest {s hd reach} (h : Inv s) : Inv (s.startHarvest hd reach) := by
  unfold State.startHarvest
  exact .ite h.hvEnd (.ite h.hvEnd (.ite h.hvEnd h.frame))

theorem Inv.writeSheaf {s e x} (h : Inv s) : OptKeeps (s.writeSheaf e x) :=
  .bind fun _ => h.sysWrite

theorem Inv.writeSheaves {s e xs} (h : Inv s) : Inv (s.writeSheaves e xs).1 := by
  induction xs generalizing s with
  | nil => exact h
  | cons x xs ih =>
    unfold State.writeSheaves
    split
    next u e => exact ih (h.writeSheaf.get e)
    · exact h

theorem Inv.reopenCut {s hd} (h : Inv s) : Inv (s.reopenCut hd) := by
  unfold State.reopenCut
  exact .ite h.modHold.reopen h.modHold

theorem Inv.execHarvestCut {cut s} (h : Inv s) : Keeps (execHarvestCut cut s) := by
  unfold Machine.execHarvestCut
  split
  · exact .next h
  · exact .ite (.next h) (.ite (.next h.reopenCut.hvEnd) (.ite (.next h.reopenCut.hvEnd) (.next h.writeSheaves.reopenCut.hvEnd)))

theorem Inv.copyBackSheaves {s e cs} (h : Inv s) : Inv (s.copyBackSheaves e cs).1 := by
  induction cs generalizing s with
  | nil => exact h
  | cons c cs ih =>
    unfold State.copyBackSheaves
    split
    next u e => exact ih (h.sysWrite.get e)
    · exact h

theorem Inv.restoreHold {s hd reach} (h : Inv s) : Inv (s.restoreHold hd reach) :=
  .ite h.hvEnd (.ite h.hvEnd (.ite h.hvEnd (.ite h.hvEnd (.ite h.hvEnd (.ite h.hvEnd h.copyBackSheaves.hvEnd)))))

/-! ## Control flow and system registers -/

theorem Inv.branch {c a b o s} (h : Inv s) : Keeps (branch c a b o s) := by
  refine h.runOp fun _ _ _ _ h => ?_
  split
  · exact .jump h
  · exact .done h

theorem Inv.execJ {o s} (h : Inv s) : Keeps (execJ o s) :=
  h.runOp fun _ _ _ _ h => .jump h

theorem Inv.execBrk {s} (h : Inv s) : Keeps (execBrk s) := by
  unfold Machine.execBrk
  split
  · exact .fault
  · exact .next h.takeTrap

theorem Inv.takeIllegal {s r w} (h : Inv s) : Inv (s.takeIllegal r w) := by
  unfold State.takeIllegal
  split
  · exact h.takeTrap
  · exact h

theorem Inv.execIllegalInstruction {w s} (h : Inv s) : Keeps (execIllegalInstruction w s) := by
  unfold Machine.execIllegalInstruction
  split
  · exact .next h
  · split
    · exact .next (.ite h.takeIllegal h)
    · exact .next h

/-! ## Traps of software and the supervisor -/

theorem Inv.execResume {a hb s} (h : Inv s) : Keeps (execResume a hb s) :=
  h.runOp fun _ _ _ _ h => .ite .trap (h.fences fun _ h => .done h.resumeAt)

theorem Inv.postOwn {s r t info addr} (h : Inv s) : Inv (s.postOwn r t info addr) := by
  unfold State.postOwn
  exact h.post

theorem Inv.execFaultPost {a b x2 s} (h : Inv s) : Keeps (execFaultPost a b x2 s) :=
  h.runOp fun _ _ _ _ h => h.fences fun _ h => .done h.postOwn

/-! ## Host command blocks -/

theorem Inv.hcStat {s fn pending status} (h : Inv s) : Inv (s.hcStat fn pending status) :=
  h.setRegs

theorem Inv.hcCommand {s fn op f} (h : Inv s) (hf : ∀ u, Inv u → Inv (f u)) : Inv (s.hcCommand fn op f) :=
  .ite h.hcStat (hf _ h.setRegs)

theorem Inv.svRelease {s hd} (h : Inv s) : Inv (s.svRelease hd) := by
  unfold State.svRelease
  split
  · exact h.flushCore
  · exact h

theorem Inv.svResume {s fn} (h : Inv s) : Inv (s.svResume fn) := by
  unfold State.svResume
  dsimp only
  split
  · exact h.hcStat
  · exact .ite h.hcStat (.ite h.hcStat h.svRelease.resumeAt.hcStat)

theorem Inv.execSvResume {fn port s} (h : Inv s) : Keeps (execSvResume fn port s) :=
  .next (h.fnWrite fun _ h => h.hcCommand fun _ h => h.svResume)

theorem Inv.hostDbg {s fn} (h : Inv s) : Inv (s.hostDbg fn) := by
  unfold State.hostDbg
  dsimp only
  split
  · exact h.hcStat
  · exact .ite h.hcStat h.setCore.hcStat

theorem Inv.execSetDbg {fn port s} (h : Inv s) : Keeps (execSetDbg fn port s) :=
  .next (h.fnWrite fun _ h => h.hcCommand fun _ h => h.hostDbg)

theorem Inv.hcReport {s fn reach bs} (h : Inv s) : OptKeeps (s.hcReport fn reach bs) :=
  .ite (.bind fun _ => h.sysWrite) (.ite .none (.ite (.some h.hostWriteMem) (.some (h.setFn (Memory.wf_write (h.fn fn) _ bs)))))

theorem Inv.takeSurvey {s fn reach} (h : Inv s) : Inv (s.takeSurvey fn reach) := by
  refine Inv.signal ?_
  split
  next u e =>
    exact (h.hcReport.get e).hcStat
  · exact h.hcStat

theorem Inv.startSurvey {s fn reach} (h : Inv s) : Inv (s.startSurvey fn reach) :=
  .ite h.hcStat (.ite h.hcStat (.ite h.hcStat h.takeSurvey))

theorem Inv.execSurvey {fn port reach again s} (h : Inv s) : Keeps (execSurvey fn port reach again s) :=
  .ite (.next (.ite h.takeSurvey h)) (.next (h.fnWrite fun _ h => h.hcCommand fun _ h => h.startSurvey))

/-! ## Writes of the command registers -/

theorem Inv.command {s port e op v} (h : Inv s) : Inv (s.command port e op v) :=
  .ite (h.estWrite fun _ h => h.hmWrite) h

theorem Inv.execStop {port e v work s} (h : Inv s) : Keeps (execStop port e v work s) := by
  refine .ite ?_ (.next h.command)
  split
  · exact .next h.endStop
  · exact .next h

theorem Inv.execResetHolding {port e v again s} (h : Inv s) : Keeps (execResetHolding port e v again s) := by
  refine .ite ?_ (.next h.command)
  split
  · exact .next (.ite h.endReset.hmStatus h)
  · exact .next h

theorem Inv.execEstateReset {port e v lost again s} (h : Inv s) : Keeps (execEstateReset port e v lost again s) := by
  refine .ite ?_ (.next h.command)
  split
  · exact .next h.endEstateReset
  · exact .next h

theorem Inv.flr {s hd} (h : Inv s) : Inv (s.flr hd) :=
  .ite h (.ite h.modHold h.beginReset)

theorem Inv.execFunctionLevelReset {fn again s} (h : Inv s) : Keeps (execFunctionLevelReset fn again s) := by
  unfold Machine.execFunctionLevelReset
  split
  · exact .next h
  · exact .ite (.next (.ite h.endReset h)) (.next h.flr)

theorem Inv.saveEstate {s e} (h : Inv s) : Inv (s.saveEstate e) := by
  unfold State.saveEstate
  dsimp only
  split
  · exact h.setEstate
  · exact h.foldl fun _ _ h => h.save
  · exact h.setEstate
  · exact h.setEstate

/-- What the check of PM.CTL lets through is a legal mode. -/
theorem legal_of_not_refused : ∀ {m : BitVec 3}, ¬(decide (m ≠ 1) && decide (m ≠ 2) && decide (m ≠ 4)) = true → m = 1 ∨ m = 2 ∨ m = 4 := by
  decide

/-- A write of PM.CTL sets or keeps waiting a legal mode only (R409). -/
theorem Inv.pmWrite {s v} (h : Inv s) : Inv (s.pmWrite v) := by
  unfold State.pmWrite
  dsimp only
  split
  · exact h
  · split
    · exact h.frame
    next hl =>
      have hm := legal_of_not_refused hl
      split
      · exact h.frame
      · split
        · exact h.frame
        · refine .ite (Inv.settleMode (Inv.foldl ?_ fun _ _ h => h.saveEstate)) (h.frame.changeMode hm)
          exact h.setMode h.2.2.2.1 fun m e => by cases e; exact hm

/-! ## Time, power and health -/

theorem Inv.execTimeBeacon {die south miss s} (h : Inv s) : Keeps (execTimeBeacon die south miss s) := by
  unfold Machine.execTimeBeacon
  exact .next h.setDie

theorem Inv.epoch {s nonPlough draw demand} (h : Inv s) : Inv (s.epoch nonPlough draw demand) := by
  unfold State.epoch
  exact .ite h.frame.signal h.frame

theorem Inv.execWearUpdate {j ageing retired eol s} (h : Inv s) : Keeps (execWearUpdate j ageing retired eol s) := by
  unfold Machine.execWearUpdate
  exact .next (.ite h (.ite h.frame.signal h.frame))

theorem Inv.holdRetirement {s c} (h : Inv s) : Inv (s.holdRetirement c) := h.frame rfl

theorem Inv.hlthStat {s pending status} (h : Inv s) : Inv (s.hlthStat pending status) := h.frame rfl

theorem Inv.execCoreFailure {core s} (h : Inv s) : Keeps (execCoreFailure core s) :=
  .next (.ite h.holdRetirement (.ite h h.retireCore.hlthStat))

theorem Inv.hlthWrite {s v} (h : Inv s) : Inv (s.hlthWrite v) :=
  .ite h.hlthStat (.ite h.frame.hlthStat (.ite h.frame.hlthStat (.ite h.frame.holdRetirement.hlthStat h.frame.retireCore.hlthStat)))

/-! ## Attestation, bring-up and register writes -/

theorem Inv.execAttest {port v reach s} (h : Inv s) : Keeps (execAttest port v reach s) :=
  .next (h.stewardWrite fun _ h => .ite h.frame (.ite h.frame.hostWriteMem h.frame))

theorem FMap.get_mapVal {α : Type} (g : α → α) (d : α) (m : FMap α) (k : Nat) :
    FMap.get (g d) (m.map fun p => (p.1, g p.2)) k = g (FMap.get d m k) := by
  induction m with
  | nil => rfl
  | cons p m ih =>
    simp only [List.map_cons, FMap.get, ih]
    split <;> rfl

/-- A power cycle keeps what is not the device's: the host's memory, as each function reaches it. -/
theorem Inv.powerCycle {s} (h : Inv s) : Inv s.powerCycle := by
  obtain ⟨-, hhost, hfns, -⟩ := h
  refine ⟨rfl, hhost, fun f => ?_, .inr (.inr rfl), fun _ e => nomatch e⟩
  have e : (s.powerCycle.fn f) = { hostMem := (s.fn f).hostMem } :=
    FMap.get_mapVal (fun x : Function => { hostMem := x.hostMem }) {} s.functions f.val
  rw [e]
  exact hfns f

theorem Inv.startClocks {s rep} (h : Inv s) : Inv (s.startClocks rep) := by
  unfold State.startClocks
  exact h.frame

theorem Inv.recordFailed {s failed} (h : Inv s) : Inv (s.recordFailed failed) := by
  unfold State.recordFailed
  exact h.frame

theorem Inv.bootFailed {s stage} (h : Inv s) : Inv (s.bootFailed stage) := h.frame rfl

theorem Inv.bootEnd {s rep} (h : Inv s) : Inv (s.bootEnd rep) := by
  have h' : Inv (rep.failing.foldl State.markRetired s) := h.foldl fun _ _ h => h.markRetired
  unfold State.bootEnd
  exact h'.setMode (.inr (.inr rfl)) h'.2.2.2.2

theorem Inv.execPowerOn {rep s} (h : Inv s) : Keeps (execPowerOn rep s) := by
  unfold Machine.execPowerOn
  exact .next (.ite h.powerCycle.bootFailed (.ite h.powerCycle.bootFailed
    (.ite h.powerCycle.startClocks.recordFailed.bootFailed h.powerCycle.startClocks.recordFailed.bootEnd)))

theorem Inv.release_ {s f} (h : Inv s) : Inv (s.release_ f) := by
  refine h.foldl fun s v h => .ite ?_ h
  exact (h.setRegs (f := f) (x := { s.fn f with vecPend := vset (s.fn f).vecPend v false })).frame

theorem Inv.execMsiXUnmask {fn w s} (h : Inv s) : Keeps (execMsiXUnmask fn w s) := by
  refine .next ?_
  refine h.fnWrite fun _ h => Inv.release_ ?_
  split
  · exact h.setRegs
  · exact h.setRegs

theorem Inv.fnReg {s fn port f} (h : Inv s) (hf : ∀ x, (f x).hostMem = x.hostMem) : Inv (s.fnReg fn port f) :=
  h.fnWrite fun _ h => h.setRegs (hf _)

theorem Inv.modEstate {s e f} (h : Inv s) : Inv (s.modEstate e f) :=
  h.setEstate

theorem Inv.writeEstate {s port e f} (h : Inv s) : Inv (s.writeEstate port e f) :=
  h.estWrite fun _ h => h.modEstate

theorem Inv.writeServing {s fn port f} (h : Inv s) : Inv (s.writeServing fn port f) :=
  h.vfWrite fun _ _ h => h.modServing

theorem Inv.writeHostReg {s fn port r v} (h : Inv s) : Inv (s.writeHostReg fn port r v) := by
  unfold State.writeHostReg
  cases r with
  | hmCmdOther => exact .ite h (h.estWrite fun _ h => h.hmWrite)
  | hmArg | hmTime | hmDpr | hmDprLen | partner => exact h.writeEstate
  | lseed | pw => exact h.estWrite fun _ h => h.modHold
  | ringBase | rqTail | lqTail | kvBase | crTaddr => exact h.writeServing
  | ringCtl => exact h.vfWrite fun _ _ h => .ite h h.writeControl
  | hcCmdOther => exact .ite h (h.fnWrite fun _ h => h.hcCommand fun _ h => h.hcStat)
  | hcArg | hcAddr | hcLen | priAlloc | msixMask | msixFnMask => exact h.fnReg fun _ => rfl
  | hostEvt | hostMask | slCtl | trTicket | hvTab | hvN | hvStep | pwrStat | wearWarn | wearEvt => exact h.pfWrite fun _ h => h.frame
  | collTmo | pwrEnv | numVfs => exact h.pfWrite fun _ h => .ite h.frame h
  | trCmdOther => exact .ite h (h.trWrite fun _ h => h)
  | hvCmdOther => exact .ite h (h.hvWrite fun _ h => h)
  | secNonce | secAddr => exact h.stewardWrite fun _ h => h.frame
  | stwLease => exact h.stewardWrite fun _ h => .ite h.frame h
  | readOnly => exact .ite h (.ite (h.stewardWrite fun _ h => h) (h.pfWrite fun _ h => h))

/-! ## Loads, stores and circular buffers -/

theorem Inv.load {z ext w d a i s} (h : Inv s) : Keeps (load z ext w d a i s) :=
  h.runOp fun _ _ _ _ h => .ite .trap (.got fun _ => h.loads fun _ h => .ite .trap (.done h))

theorem Inv.store {z w d a i s} (h : Inv s) : Keeps (store z w d a i s) :=
  h.runOp fun _ _ _ _ h => .ite .trap (.got fun _ => .done h.buffer)

theorem Inv.execLdbit {d a b hb s} (h : Inv s) : Keeps (execLdbit d a b hb s) := by
  unfold Machine.execLdbit
  refine h.runOp fun _ _ _ _ h => ?_
  dsimp only
  split
  · exact .trap
  · exact .got fun _ => h.loads fun _ h => .ite .trap (.done h)

theorem Inv.execStbit {d a b hb s} (h : Inv s) : Keeps (execStbit d a b hb s) := by
  unfold Machine.execStbit
  refine h.runOp fun _ _ _ _ h => ?_
  dsimp only
  split
  · exact .trap
  · refine .got fun _ => ?_
    split
    · exact .done h.buffer
    · exact h.fences fun _ h => .done (h.foldl fun _ _ h => h.storeNow)

theorem Inv.execCbInit {a b hb k s} (h : Inv s) : Keeps (execCbInit a b hb k s) := by
  unfold Machine.execCbInit
  exact h.runOp fun _ _ _ _ h => .ite .trap (.ite .trap (.done h.setCore))

theorem Inv.execCbNeed {a hb k s} (h : Inv s) : Keeps (execCbNeed a hb k s) := by
  refine h.runOp fun _ _ _ _ h => .ite (.done h) ?_
  split
  · exact .trap
  · exact .ite (.done h) (.waitWith fun _ h => h.modTask)

theorem Inv.execCbRoom {a hb k s} (h : Inv s) : Keeps (execCbRoom a hb k s) := by
  refine h.runOp fun _ _ _ _ h => .ite (.done h) ?_
  split
  · exact .trap
  · exact .ite (.done h) (.waitWith fun _ h => h.modTask)

theorem Inv.execCbAdvH {a hb k s} (h : Inv s) : Keeps (execCbAdvH a hb k s) := by
  refine h.runOp fun _ _ _ _ h => ?_
  dsimp only
  split
  · exact .trap
  · exact h.fences fun _ h => .done h.setCore

theorem Inv.execCbAdvT {a hb k s} (h : Inv s) : Keeps (execCbAdvT a hb k s) := by
  refine h.runOp fun _ _ _ _ h => ?_
  dsimp only
  split
  · exact .trap
  · exact h.fences fun _ h => .done h.setCore

/-! ## The drill -/

theorem Inv.issueDr {s r t info o} (h : Inv s) : EffKeeps (s.issueDr r t info o) := by
  unfold State.issueDr
  dsimp only
  split
  · exact .trap
  · exact .ite .trap (.ite .wait (.done h.flushLocks.setCore.frame))

theorem Inv.listDr {s r t info list o} (h : Inv s) : EffKeeps (s.listDr r t info list o) := by
  refine .ite h.issueDr ?_
  refine .ite .trap ?_
  refine h.loads fun _ h => ?_
  split
  · exact .trap
  · exact h.issueDr

theorem Inv.drill {kind w a b s} (h : Inv s) : Keeps (drill kind w a b s) := by
  unfold Machine.drill
  refine h.runOp fun _ _ _ _ h => .ite .trap ?_
  refine h.loads fun _ h => ?_
  split
  · exact .trap
  · refine .ite .trap ?_
    split
    · exact .trap
    · exact h.listDr

theorem Inv.dropDr {s c o} (h : Inv s) : Inv (s.dropDr c o) := by
  unfold State.dropDr
  exact h.setCore.setEvent

theorem Inv.failDr {s c o cause addr} (h : Inv s) : Inv (s.failDr c o cause addr) := by
  unfold State.failDr
  exact (h.dropDr.foldl fun _ _ h => h.dropDr).abandon.engineFault

theorem Inv.writeRow {s hd l row} (h : Inv s) : Inv (s.writeRow hd l row) := by
  unfold State.writeRow
  dsimp only
  split
  · exact h.writeLoc.setCore
  · exact h.writeLoc.frame

theorem Inv.drillRow {s c o} (h : Inv s) : Inv (s.drillRow c o) := by
  refine .ite h ?_
  split
  · exact h.addReq
  · exact h.failDr
  · split
    · exact h.addReq
    · exact h.failDr
    · exact .ite h.noteGuest.writeRow.setCore h.noteGuest.writeRow.setCore.dropDr

theorem Inv.execDrillRow {c s} (h : Inv s) : Keeps (execDrillRow c s) := by
  unfold Machine.execDrillRow
  split
  · exact .next h
  · exact .ite (.next h) (.ite (.next h) (.ite (.next h.setCore.dropDr) (.next h.setCore.drillRow)))

/-! ## Mailboxes and Gaussian records -/

theorem EffKeeps.consume {s : State} {a l} {f : List Byte → Eff} (hf : ∀ bs, EffKeeps (f bs)) : EffKeeps (s.consume a l f) :=
  .ite .trap (hf _)

theorem Inv.twoRecords {s r a b info f} (h : Inv s) (hf : ∀ u l m x y, Inv u → EffKeeps (f u l m x y)) :
    EffKeeps (s.twoRecords r a b info f) :=
  .onLoc fun _ => .onLoc fun _ => h.loads fun _ h => .consume fun _ => .consume fun _ => hf _ _ _ _ _ h

theorem Inv.bufferRecord {s r t l bs bad mate} (h : Inv s) : Inv (s.bufferRecord r t l bs bad mate) :=
  h.setSlot

theorem Inv.writeRecord {s r t l x mate} (h : Inv s) : Inv (s.writeRecord r t l x mate) :=
  h.bufferRecord

theorem Inv.execMbPost {a b hb s} (h : Inv s) : Keeps (execMbPost a b hb s) := by
  unfold Machine.execMbPost
  refine h.runOp fun _ _ _ _ h => .onLoc fun _ => .ite ?_ (.onLoc fun _ => h.loads fun _ h => .ite .trap (.done h.bufferRecord))
  split
  · exact .ite .trap (.ite .trap (.done h.bufferRecord))
  · exact .trap

theorem Inv.execMbTake {a b hb s} (h : Inv s) : Keeps (execMbTake a b hb s) := by
  unfold Machine.execMbTake
  refine h.runOp fun _ _ _ _ h => .onLoc fun _ => .ite ?_ (.onLoc fun _ => h.loads fun _ h => .ite .trap (.done h.bufferRecord))
  split
  · exact .ite .trap (h.loads fun _ h => .consume fun _ => .ite .trap (.done h.modOpen))
  · exact .trap

theorem Inv.execGbpAcc {a b hb s} (h : Inv s) : Keeps (execGbpAcc a b hb s) := by
  unfold Machine.execGbpAcc
  refine h.runOp fun _ _ _ _ h => h.twoRecords fun _ _ _ _ _ h => ?_
  exact .ite .trap (.ite .trap (.ite .trap (.ite (.done h) (.ite .trap (.done h.writeRecord)))))

theorem Inv.execGbpSub {a b hb s} (h : Inv s) : Keeps (execGbpSub a b hb s) := by
  unfold Machine.execGbpSub
  exact h.runOp fun _ _ _ _ h => h.twoRecords fun _ _ _ _ _ h => .ite .trap (.ite .trap (.ite .trap (.ite .trap (.done h.writeRecord))))

theorem EffKeeps.blockAt {s : State} {c a info} {f : List Loc → Eff} (hf : ∀ ls, EffKeeps (f ls)) : EffKeeps (s.blockAt c a info f) :=
  .onLoc fun _ => .onLoc fun _ => .onLoc fun _ => hf _

theorem EffKeeps.consumeBlock {s : State} {a ls} {f : List Byte → Eff} (hf : ∀ bs, EffKeeps (f bs)) : EffKeeps (s.consumeBlock a ls f) := by
  unfold State.consumeBlock
  split
  · exact .trap
  · exact hf _

theorem Inv.execGbpElim {a b hb s} (h : Inv s) : Keeps (execGbpElim a b hb s) := by
  unfold Machine.execGbpElim
  refine h.onFull fun _ h => h.runOp fun _ _ _ _ h => .ite .trap ?_
  refine .blockAt fun _ => .onLoc fun _ => h.loads fun _ h => .consumeBlock fun _ => .ite .trap ?_
  refine .ite .trap ?_
  refine .ite .trap ?_
  refine .ite .trap ?_
  split
  · exact .trap
  · exact .done h.writeRecord

theorem Inv.execGbpDamp {d a b k s} (h : Inv s) : Keeps (execGbpDamp d a b k s) :=
  h.onFull fun _ h => h.runOp fun _ _ _ _ h => h.twoRecords fun _ _ _ _ _ h => .onPair (.done h.writeRecord) (.done h.writeRecord.writeRecord)

theorem Inv.execGbpRes {d a b hb s} (h : Inv s) : Keeps (execGbpRes d a b hb s) := by
  unfold Machine.execGbpRes
  exact h.runOp fun _ _ _ _ h => h.twoRecords fun _ _ _ _ _ h => .onPair (.done h) (.done h)

/-! ## Task instructions -/

theorem Inv.sowWith {w srcs operand cap aff place s} (h : Inv s) (hf : ∀ u r t b x, Inv u → OptKeeps (place u r t b x)) :
    Keeps (sowWith w srcs operand cap aff place s) := by
  unfold Machine.sowWith
  refine h.runOp fun _ _ _ _ h => .ite .trap ?_
  refine h.fences fun _ h => ?_
  split
  · exact .trap
  · refine .ite .trap ?_
    refine .ite .trap ?_
    split
    next u e =>
      exact .done ((hf _ _ _ _ _ h).get e)
    · exact .wait

theorem Inv.placeHere {s r t x3 x} (h : Inv s) : OptKeeps (s.placeHere r t x3 x) :=
  h.placeTask

theorem Inv.offer {s r t b x} (h : Inv s) : OptKeeps (s.offer r t b x) := by
  unfold State.offer
  refine .ite h.placeInline ?_
  refine .ite (.ite (.some h.pushDeque) .none) ?_
  split
  · exact .some h.dispatchSeed
  · exact .ite (.some h.pushDeque) h.placeInline

theorem Inv.execEndTask {a hb s} (h : Inv s) : Keeps (execEndTask a hb s) :=
  h.runOp fun _ _ _ _ h => .ite .trap (.ite .wait (.gone h.sendEnd.finish))

theorem Inv.execSev {a hb s} (h : Inv s) : Keeps (execSev a hb s) :=
  h.runOp fun _ _ _ _ h => .ite .trap (.done (.ite h h.setCore))

theorem Inv.execTrigDec {a b hb s} (h : Inv s) : Keeps (execTrigDec a b hb s) := by
  refine h.runOp fun _ _ _ _ h => .ite .trap ?_
  refine .ite (.done h.setCore) ?_
  split
  · exact .done h.setCore
  · exact .wait

theorem Inv.joinYoke {s r pc} (h : Inv s) : Inv (s.joinYoke r pc) := by
  unfold State.joinYoke
  split
  · exact h
  · refine Inv.markStep ?_
    refine Inv.modTask ?_
    split
    · split
      · exact h.setCore
      · exact h
    · exact h

theorem Inv.formYoke {s c n base} (h : Inv s) : Inv (s.formYoke c n base) := by
  unfold State.formYoke
  dsimp only
  split
  · exact h
  · exact .ite h (h.foldl fun _ _ h => h.joinYoke).setCluster

theorem Inv.execYoke {a b s} (h : Inv s) : Keeps (execYoke a b s) := by
  unfold Machine.execYoke
  dsimp only
  split
  · exact .fault
  · split
    · exact .next h.takeTrap
    · split
      · exact .next h.waitAt
      · refine .ite ?_ ?_
        · refine .next ?_
          split
          · exact h.takeTrap
          · exact h
        · split
          · refine .next ?_
            refine Inv.foldl ?_ fun _ _ h => ?_
            · split
              · exact h.takeTrap
              · exact h
            · split
              · exact h.takeTrap
              · exact h
          · exact .next h.setTask.formYoke

theorem Inv.execUnyoke {b s} (h : Inv s) : Keeps (execUnyoke b s) := by
  refine h.runOp fun _ _ _ _ h => ?_
  split
  · exact .done h.dissolve
  · exact .done h

theorem Inv.rendezvous {s d cl y target} (h : Inv s) : Inv (s.rendezvous d cl y target) :=
  (h.foldl fun _ _ h => h.release).setCluster

theorem Inv.execReyoke {o s} (h : Inv s) : Keeps (execReyoke o s) := by
  unfold Machine.execReyoke
  dsimp only
  split
  · exact .fault
  · exact h.execJ
  · exact .ite (.ite h.rendezvous.execJ (.next h.waitAt)) (.next h.setTask)

/-! ## Time and deferral -/

theorem Inv.defer {s r t} (h : Inv s) : Inv (s.defer r t) := by
  unfold State.defer
  exact .ite h h.setEstate.modTask

/-! ## Translations and the host -/

theorem Inv.setReq {s d n q} (h : Inv s) : Inv (s.setReq d n q) :=
  h.setDie

theorem Inv.dropReq {s d n} (h : Inv s) : Inv (s.dropReq d n) :=
  h.setDie

theorem Inv.failReq {s d n q cause} (h : Inv s) : Inv (s.failReq d n q cause) :=
  .ite h.dropReq h.setReq

theorem Inv.execAtsCompletion {d n victim s} (h : Inv s) : Keeps (execAtsCompletion d n victim s) := by
  unfold Machine.execAtsCompletion
  split
  · exact .next h
  · refine .ite (.next h) ?_
    refine .ite (.next h.dropReq) ?_
    split
    · exact .next h.setDie
    · exact .ite (.next h.failReq) (.next (.ite h h.setReq.askPage))

theorem Inv.execPageRequestResponse {d n ok victim s} (h : Inv s) : Keeps (execPageRequestResponse d n ok victim s) := by
  unfold Machine.execPageRequestResponse
  split
  · exact .next h
  · split
    · refine .ite (.next h.failReq) ?_
      refine .ite ?_ (.next h.setReq)
      split
      · exact .next h.dropReq.setDie
      · exact .next h.dropReq
    · exact .next h

theorem Inv.flushUsed {s d pasid base size} (h : Inv s) : Inv (s.flushUsed d pasid base size) :=
  h.foldl fun _ _ h => h.foldl fun _ _ h => h.drainStores

theorem Inv.execAtsInvalidation {pasid base size s} (h : Inv s) : Keeps (execAtsInvalidation pasid base size s) := by
  unfold Machine.execAtsInvalidation
  exact .next (h.foldl fun _ _ h => h.flushUsed).frame

theorem Inv.execUncorrectableError {l s} (h : Inv s) : Keeps (execUncorrectableError l s) := by
  unfold Machine.execUncorrectableError
  split
  · exact .ite (.next h.setCore) (.next h)
  · exact .ite (.next h.frame) (.next h)

theorem Inv.execHostWrite {e a bs ep s} (h : Inv s) : Keeps (execHostWrite e a bs ep s) := by
  unfold Machine.execHostWrite
  split
  · exact .next h
  · exact .next h.putMem.frame

theorem Inv.execHostRead {e a len s} (h : Inv s) : Keeps (execHostRead e a len s) := by
  unfold Machine.execHostRead
  split
  · exact .next h
  · exact .next h.frame

/-! ## Every instruction and event -/

/-- Every instruction and every event keeps the invariant. -/
theorem Inv.exec {s : State} (h : Inv s) {i : Instr} : Keeps (exec i s) := by
  cases i with unfold Machine.exec
  | add | sub | and | or | xor | andn | sll | srl | sra | rotl | slt | sltn | min | max | minn | maxn | mul | mulh | mulhn | div | divn
  | rem | remn | clz | ctz | popc | bext | bins | sext | zext | csel | addW | subW | sllW | srlW | sraW | mulW | divW | divnW | remW
  | remnW | addi | andi | ori | xori | slli | srli | srai | slliW | srliW | sraiW | slti | sltni | lhi | addiW => exact h.valueOp
  | srd | cbStat | addpc | mqRd | mqPeek | rdtime | rdtimeLoc | rdband | rdpos | hlStat => exact h.readOp
  | swr | sxch | hmask | plGeo => exact h.runOp fun _ _ _ _ h => .ite .trap (.done h.setCore)
  | ldbit => exact h.execLdbit
  | stbit => exact h.execStbit
  | cbInit => exact h.execCbInit
  | cbNeed => exact h.execCbNeed
  | cbRoom => exact h.execCbRoom
  | cbAdvH => exact h.execCbAdvH
  | cbAdvT => exact h.execCbAdvT
  | trap | park => exact h.runOp fun _ _ _ _ h => .trap
  | ldS8 | ldN8 | ldS16 | ldN16 | ldS32 | ldN32 | ld64 => exact h.load
  | ldV => exact h.execLdV
  | st8 | st16 | st32 | st64 => exact h.store
  | stV => exact h.execStV
  | beq | bne | blt | bge | bltn | bgen => exact h.branch
  | j => exact h.execJ
  | jal | jr | jalr => exact h.runOp fun _ _ _ _ h => .jump h
  | reyoke => exact h.execReyoke
  | amAdd | amAnd | amOr | amXor | amMin | amMax | amMinn | amMaxn | amSwap | amCas => exact h.atomic
  | amAddPs | amAndPs | amOrPs | amXorPs | amMinPs | amMaxPs | amMinnPs | amMaxnPs => exact h.postedAtomic
  | fence => exact h.runOp fun _ _ _ _ h => h.fences fun _ h => .done h
  | ldAcq => exact h.execLdAcq
  | stRel => exact h.execStRel
  | fenceEngDr | fenceEngPl | fenceEng => exact h.fenceEng
  | sow | sowCap => exact h.sowWith fun _ _ _ _ _ h => h.placeHere
  | sowAt => exact h.sowWith fun _ _ _ _ _ h => h.offer
  | endTask => exact h.execEndTask
  | yield => exact h.runOp fun _ _ _ _ h => .done h.setSlot
  | wfe => exact h.runOp fun _ _ _ _ h => .ite (.done h.setSlot) .wait
  | sev => exact h.execSev
  | trigArm => exact h.runOp fun _ _ _ _ h => .ite .trap (.done h.modTrigger)
  | trigDec => exact h.execTrigDec
  | trigRd | barStat => exact h.runOp fun _ _ _ _ h => .ite .trap (.done h)
  | yoke => exact h.execYoke
  | unyoke => exact h.execUnyoke
  | msgH => exact h.execMsgH
  | msgD => exact h.execMsgD
  | msgGo => exact h.runOp fun _ _ _ _ h => .ite (.done h.modOpen) .trap
  | msgTo => exact h.execMsgTo
  | mqPop => exact h.execMqPop
  | mbPost => exact h.execMbPost
  | mbTake => exact h.execMbTake
  | gbpAcc => exact h.execGbpAcc
  | gbpSub => exact h.execGbpSub
  | gbpElim => exact h.execGbpElim
  | gbpDamp => exact h.execGbpDamp
  | gbpRes => exact h.execGbpRes
  | barArrive => exact h.execBarArrive
  | barWait => exact h.execBarWait
  | barMask => exact h.execBarMask
  | hlDefer => exact h.runOp fun _ _ _ _ h => .done h.defer
  | resume => exact h.execResume
  | faultPost => exact h.execFaultPost
  | sqTake => exact h.execSqTake
  | sqAdmit => exact h.runOp fun _ _ _ _ h => .ite .trap (.done h.admitRequest)
  | sqRetire => exact h.execSqRetire
  | kvGet => exact h.execKvGet
  | kvPut => exact h.execKvPut
  | stopTest => exact h.execStopTest
  | plMma => exact h.mma
  | plMmt => exact h.mmt
  | plZacc => exact h.runOp fun _ _ _ _ h => .ite .trap h.issuePl
  | plLdacc | plStacc => exact h.accMove
  | plWait => exact h.execPlWait
  | plTile => exact h.tileOp
  | plFlush => exact h.execPlFlush
  | plMmaBlk => exact h.onFull fun _ h => h.mma
  | plMmtBlk => exact h.onFull fun _ h => h.mmt
  | plTileBlk => exact h.onFull fun _ h => h.tileOp
  | drCopyGp | drCopyPg | drCopyPp | drCopyGg | drGathG | drGathP | drScatG | drScatP | drFillG | drFillP => exact h.drill
  | drWait => exact h.runOp fun _ _ _ _ h => .ite (.done h) .wait
  | vaddF32 | vaddS32 | vsubF32 | vsubS32 | vmulF32 | vmulS32 | vminF32 | vminS32 | vminN32 | vmaxF32 | vmaxS32 | vmaxN32 | vand | vor
  | vxor | vsll | vsrl | vsra | vsclF32 | vcmpEqF32 | vcmpNeF32 | vcmpLtF32 | vcmpLeF32 | vcmpEqS32 | vcmpNeS32 | vcmpLtS32 | vcmpLeS32
  | vcmpLtN32 | vcmpLeN32 | vpackS16 | vpackN16 | vpackS8 | vpackN8 | vperm | vshfl => exact h.vop2
  | vfmaF32 | vfnmF32 | vsel => exact h.vop3
  | vabsF32 | vabsS32 | vnegF32 | vnegS32 | vrcpF32 | vrsqF32 | vcvtF32S32 | vcvtS32F32 | vcvtBf16F32 | vcvtF16F32 | vcvtF32Bf16
  | vcvtF32F16 | vcvtE4m3F32 | vcvtE5m2F32 | vcvtF32E4m3 | vcvtF32E5m2 | vunpkS16 | vunpkN16 | vunpkS8 | vunpkN8 | vrot => exact h.vop1
  | vdotF32 | vraddF32 | vraddS32 | vrmaxF32 | vrmaxS32 | vrminF32 | vrminS32 | vrmaxiF32 | vext => exact h.vread
  | vbcast | vins => exact h.runOp fun _ _ _ _ h => .done h.setV
  | ldgV => exact h.execLdgV
  | stgV => exact h.execStgV
  | brk => exact h.execBrk
  | illegalInstruction => exact h.execIllegalInstruction
  | migrate => exact h.execMigrate
  | dispatch => exact h.execDispatch
  | partitionChange => exact h.execPartitionChange
  | concurrentDispatch => exact h.execConcurrentDispatch
  | gleanCluster => exact h.execGleanCluster
  | gleanHolding => exact h.execGleanHolding
  | restoreSeedMove => exact h.execRestoreSeedMove
  | handlerWatchdog => exact h.execHandlerWatchdog
  | deliver => exact h.execDeliver
  | faultRecordOffer => exact h.execFaultRecordOffer
  | ploughGrant => exact .ite (.next h) (.next h.grantTile)
  | tileCommit => exact h.execTileCommit
  | drillRow => exact h.execDrillRow
  | atsCompletion => exact h.execAtsCompletion
  | pageRequestResponse => exact h.execPageRequestResponse
  | atsInvalidation => exact h.execAtsInvalidation
  | uncorrectableError => exact h.execUncorrectableError
  | hostWrite => exact h.execHostWrite
  | hostRead => exact h.execHostRead
  | lateReply => exact .next h
  | drain => exact .next (.ite h.beginDrain h)
  | drainWatchdog => exact h.execDrainWatchdog
  | headlandMove => exact h.execHeadlandMove
  | headlandResume => exact h.execHeadlandResume
  | gangSwitch => exact h.execGangSwitch
  | timeBeacon => exact h.execTimeBeacon
  | arbiterEpoch => exact .next (.ite h h.epoch)
  | wearUpdate => exact h.execWearUpdate
  | coreFailure => exact h.execCoreFailure
  | retireCore => exact .next (h.pfWrite fun _ h => h.hlthWrite)
  | launchTake => exact h.execLaunchTake
  | launchComplete => exact h.execLaunchComplete
  | walkerPush => exact h.execWalkerPush
  | walkerCompletion => exact h.execWalkerCompletion
  | ringEnable => exact h.execRingEnable
  | svCqHeadWrite => exact .next (h.vfWrite fun _ _ h => h.modServing.cqFlush)
  | kvCountWrite => exact .next (h.vfWrite fun _ _ h => h.modServing)
  | hlCtlWrite => exact .next (h.estWrite fun _ h => h.setEstate)
  | create | destroy | start | switchOut | switchIn | setWd => exact .next h.command
  | stop => exact h.execStop
  | resetHolding => exact h.execResetHolding
  | estateReset => exact h.execEstateReset
  | functionLevelReset => exact h.execFunctionLevelReset
  | partitionModeWrite => exact .next (h.pfWrite fun _ h => h.pmWrite)
  | survey => exact h.execSurvey
  | svResume => exact h.execSvResume
  | setDbg => exact h.execSetDbg
  | stewardClaim => exact h.execStewardClaim
  | stewardResign | stewardLapse => exact .next (.ite h.lapse h)
  | stewardHandover => exact .next (h.stewardWrite fun _ h => .ite h.frame.hostEvent h)
  | stwBeat => exact .next (h.stewardWrite fun _ h => h.frame)
  | stwStatRead => exact .next h.readDenied
  | linkStateChange => exact h.execLinkStateChange
  | collectiveTake => exact h.execCollectiveTake
  | collectiveComplete => exact h.execCollectiveComplete
  | collectiveTimeout => exact h.execCollectiveTimeout
  | abandonNotice => exact h.execAbandonNotice
  | exportTicket => exact .next (h.trWrite fun _ h => h.exportHold)
  | importTicket => exact .next (h.trWrite fun _ h => h.importHold)
  | importComplete => exact h.execImportComplete
  | harvest => exact .next (h.hvWrite fun _ h => h.startHarvest)
  | harvestCut => exact h.execHarvestCut
  | restore => exact .next (h.hvWrite fun _ h => h.restoreHold)
  | attest => exact h.execAttest
  | powerOn => exact h.execPowerOn
  | registerWrite => exact .next h.writeHostReg
  | msiXUnmask => exact h.execMsiXUnmask
  | transplantTicketCheck => exact h.execTransplantTicketCheck

/-! ## Reads of registers -/

theorem Inv.mmioRead {s port fn offset} (h : Inv s) : Inv (s.mmioRead port fn offset) := by
  unfold State.mmioRead
  exact .ite h.readDenied h.frame

theorem Inv.numVfsRead {s port} (h : Inv s) : Inv (s.numVfsRead port) := h.frame rfl

/-! ## Turns -/

theorem Inv.afterRetire {s i pc r} (h : Inv s) : Inv (s.afterRetire i pc r) := by
  unfold State.afterRetire
  split
  · exact h
  · exact .ite h (.ite h.setTask h.takeTrap)

theorem Inv.takeStep {s r} (h : Inv s) : Inv (s.takeStep r) := by
  unfold State.takeStep
  split
  · split
    · exact h.setTask.takeTrap
    · exact h
  · exact h

theorem Inv.takeDue {s r} (h : Inv s) : OptKeeps (s.takeDue r) := by
  unfold State.takeDue
  split
  · exact .none
  · refine .ite .none ?_
    refine .ite (.some h.overrun) ?_
    split
    · exact .some h.setTask.takeTrap
    · exact .some h.takeStep
    · exact .none

theorem Inv.execAll {i rs s} (h : Inv s) : Keeps (execAll i rs s) := by
  induction rs generalizing s with
  | nil => exact .next h
  | cons r rs ih =>
    have hx : Keeps (Machine.exec i { s with cur := r }) := h.frame.exec
    unfold Machine.execAll
    split
    next e => exact ih (hx.get e)
    · exact hx

theorem Inv.dissent {s r} (h : Inv s) : Inv (s.dissent r) := by
  unfold State.dissent
  split
  · exact h.setCluster
  · exact h

theorem Inv.noteMet {s i r} (h : Inv s) : Inv (s.noteMet i r) := by
  unfold State.noteMet
  split
  · split
    · exact .ite h.setTask h
    · exact h
  · exact h

theorem Inv.yokeStep {i rs r pc s} (h : Inv s) : Keeps (yokeStep i rs r pc s) := by
  unfold Machine.yokeStep
  split
  · split
    next e => exact .ite (.next h) (.next ((h.execAll.get e).dissent.frame.foldl fun _ _ h => h.afterRetire))
    · exact h.execAll
  · split
    next e => exact .next (Keeps.get (Inv.execAll (h.foldl fun _ _ h => h.noteMet)) e).frame
    · exact Inv.execAll (h.foldl fun _ _ h => h.noteMet)

theorem Inv.pastWord {s r} (h : Inv s) : Inv (s.pastWord r) :=
  h.modTask

theorem Inv.issued {s r} (h : Inv s) : Inv (s.issued r) := by
  unfold State.issued
  exact .ite h h.setCore

theorem Inv.runWord {i r pc ms s} (h : Inv s) : Keeps (runWord i r pc ms s) := by
  unfold Machine.runWord
  split
  · have hx : Keeps (Machine.exec i { s with cur := r }) := h.frame.exec
    split
    next e => exact .next (hx.get e).afterRetire
    · exact hx
  · exact h.yokeStep

theorem Inv.waitFetch {s r q} (h : Inv s) : Inv (s.waitFetch r q) :=
  h.addReq.modTask

theorem Inv.taskTurn {r t s} (h : Inv s) : Keeps (taskTurn r t s) := by
  unfold Machine.taskTurn
  dsimp only
  split
  next u e =>
    exact .next ((OptKeeps.findSome fun _ => h.takeDue).get e)
  · refine .ite (.next h) ?_
    split
    · exact .next h.waitFetch
    · exact .next (h.setTask.foldl fun _ _ h => h.pastWord).fetchTrap
    · refine .ite (.next (h.foldl fun _ _ h => h.takeStep)) ?_
      split
      · exact .next (h.foldl fun _ _ h => h.takeIllegal)
      · exact (h.foldl fun _ _ h => h.issued).runWord

theorem Inv.slotTurn {r s} (h : Inv s) : Keeps (slotTurn r s) := by
  unfold Machine.slotTurn
  dsimp only
  split
  · exact .next h.frame
  · exact .ite (.next h.frame) h.frame.taskTurn

theorem Inv.loadPart {s r q} (h : Inv s) : Inv (s.loadPart r q) := by
  unfold State.loadPart
  split
  · exact h
  · refine .ite h ?_
    split
    · split
      · exact h.performPart
      · exact h
    · exact h

theorem Inv.tick {s cycles c} (h : Inv s) : Inv (s.tick cycles c) := by
  refine h.foldl fun _ _ h => ?_
  dsimp only
  split
  · exact .ite h h.setTask
  · exact h

theorem Inv.elapse {s cycles ns locals} (h : Inv s) : Inv (s.elapse cycles ns locals) := by
  unfold State.elapse
  exact (h.foldl fun _ _ h => h.tick).frame

theorem Inv.eventTurn {i s} (h : Inv s) : Keeps (eventTurn i s) := by
  unfold Machine.eventTurn
  split
  · split
    · exact .next h
    · split
      · exact .ite h.slotTurn (.next h)
      · exact .next h
  · exact .ite h.exec (.next h)

theorem Inv.turn {t s} (h : Inv s) : Keeps (turn t s) := by
  unfold Machine.turn
  split
  · exact h.slotTurn
  · exact h.eventTurn
  · exact .next (.ite h.elapse h)
  · exact .next h.frame
  · exact .next h.hostWriteMem
  · exact .next h.performOne
  · exact .next h.loadPart
  · exact .next h.fetchAhead
  · split
    · exact h.exec
    · exact .next h
  · exact .next h.mmioRead
  · exact .next h.numVfsRead

/-! ## Steps -/

theorem Inv.step {s} (h : Inv s) : Keeps (step s) := by
  unfold Machine.step
  split
  · exact h.slotTurn
  · exact h.frame.turn

/-- Settles O43, by the rule of every operation that a step is made of. -/
theorem stepKeepsInv : Obligations.StepKeepsInv :=
  fun _ _ h e => h.step.get e

end Sys2Proof.Claims

/-! SUPPORT. The encoder and the decoder are inverse to each other (03 R49 to R67): the words that decode are the words of the well-formed
instructions, each of the instruction that it decodes to. From an instruction to its word this is the family RoundTrip. From a word to its
instruction, each format has its law: a word is the word of given fields if and only if these are the fields that the decoder reads from it. -/

namespace Sys2Proof

/-! ## From an instruction to its word and back -/

theorem Laws.RoundTrip.all : ∀ i : Instr, Statement i
  | .add d a b h => add d a b h | .sub d a b h => sub d a b h | .and d a b h => and d a b h | .or d a b h => or d a b h
  | .xor d a b h => xor d a b h | .andn d a b h => andn d a b h | .sll d a b h => sll d a b h | .srl d a b h => srl d a b h
  | .sra d a b h => sra d a b h | .rotl d a b h => rotl d a b h | .slt d a b h => slt d a b h | .sltn d a b h => sltn d a b h
  | .min d a b h => min d a b h | .max d a b h => max d a b h | .minn d a b h => minn d a b h | .maxn d a b h => maxn d a b h
  | .mul d a b h => mul d a b h | .mulh d a b h => mulh d a b h | .mulhn d a b h => mulhn d a b h | .div d a b h => div d a b h
  | .divn d a b h => divn d a b h | .rem d a b h => rem d a b h | .remn d a b h => remn d a b h | .clz d a h => clz d a h
  | .ctz d a h => ctz d a h | .popc d a h => popc d a h | .bext d a b h => bext d a b h | .bins d a b h => bins d a b h
  | .sext d a b h => sext d a b h | .zext d a b h => zext d a b h | .csel d a b h => csel d a b h | .addW d a b h => addW d a b h
  | .subW d a b h => subW d a b h | .sllW d a b h => sllW d a b h | .srlW d a b h => srlW d a b h | .sraW d a b h => sraW d a b h
  | .mulW d a b h => mulW d a b h | .divW d a b h => divW d a b h | .divnW d a b h => divnW d a b h | .remW d a b h => remW d a b h
  | .remnW d a b h => remnW d a b h | .srd d s => srd d s | .swr a s => swr a s | .sxch d a s => sxch d a s
  | .ldbit d a b h => ldbit d a b h | .stbit d a b h => stbit d a b h | .cbInit a b h k => cbInit a b h k | .cbNeed a h k => cbNeed a h k
  | .cbRoom a h k => cbRoom a h k | .cbAdvH a h k => cbAdvH a h k | .cbAdvT a h k => cbAdvT a h k | .cbStat d h k => cbStat d h k
  | .addi d a i => addi d a i | .andi d a i => andi d a i | .ori d a i => ori d a i | .xori d a i => xori d a i | .slli d a n => slli d a n
  | .srli d a n => srli d a n | .srai d a n => srai d a n | .slliW d a n => slliW d a n | .srliW d a n => srliW d a n
  | .sraiW d a n => sraiW d a n | .slti d a i => slti d a i | .sltni d a i => sltni d a i | .lhi d i => lhi d i | .addpc d i => addpc d i
  | .addiW d a i => addiW d a i | .trap i => trap i | .ldS8 d a i => ldS8 d a i | .ldN8 d a i => ldN8 d a i | .ldS16 d a i => ldS16 d a i
  | .ldN16 d a i => ldN16 d a i | .ldS32 d a i => ldS32 d a i | .ldN32 d a i => ldN32 d a i | .ld64 d a i => ld64 d a i
  | .ldV d a i => ldV d a i | .st8 d a i => st8 d a i | .st16 d a i => st16 d a i | .st32 d a i => st32 d a i | .st64 d a i => st64 d a i
  | .stV d a i => stV d a i | .beq a b o => beq a b o | .bne a b o => bne a b o | .blt a b o => blt a b o | .bge a b o => bge a b o
  | .bltn a b o => bltn a b o | .bgen a b o => bgen a b o | .j o => j o | .jal o => jal o | .reyoke o => reyoke o | .jr a i => jr a i
  | .jalr d a i => jalr d a i | .amAdd d a b h z => amAdd d a b h z | .amAnd d a b h z => amAnd d a b h z
  | .amOr d a b h z => amOr d a b h z | .amXor d a b h z => amXor d a b h z | .amMin d a b h z => amMin d a b h z
  | .amMax d a b h z => amMax d a b h z | .amMinn d a b h z => amMinn d a b h z | .amMaxn d a b h z => amMaxn d a b h z
  | .amSwap d a b h z => amSwap d a b h z | .amCas d a b h z => amCas d a b h z | .amAddPs a b h z => amAddPs a b h z
  | .amAndPs a b h z => amAndPs a b h z | .amOrPs a b h z => amOrPs a b h z | .amXorPs a b h z => amXorPs a b h z
  | .amMinPs a b h z => amMinPs a b h z | .amMaxPs a b h z => amMaxPs a b h z | .amMinnPs a b h z => amMinnPs a b h z
  | .amMaxnPs a b h z => amMaxnPs a b h z | .fence h s => fence h s | .ldAcq d a h s => ldAcq d a h s | .stRel d a h s => stRel d a h s
  | .fenceEngDr h => fenceEngDr h | .fenceEngPl h => fenceEngPl h | .fenceEng h => fenceEng h | .sow a h => sow a h
  | .sowAt a b h => sowAt a b h | .sowCap a b h => sowCap a b h | .endTask a h => endTask a h | .yield h => yield h | .wfe h => wfe h
  | .sev a h => sev a h | .trigArm a b h => trigArm a b h | .trigDec a b h => trigDec a b h | .trigRd d a h => trigRd d a h
  | .hmask a h => hmask a h | .yoke a h => yoke a h | .unyoke h => unyoke h | .msgH a h => msgH a h | .msgD a h k => msgD a h k
  | .msgGo h => msgGo h | .msgTo a b h => msgTo a b h | .mqRd d h k => mqRd d h k | .mqPop h => mqPop h | .mqPeek d h => mqPeek d h
  | .mbPost a b h => mbPost a b h | .mbTake a b h => mbTake a b h | .gbpAcc a b h => gbpAcc a b h | .gbpSub a b h => gbpSub a b h
  | .gbpElim a b h => gbpElim a b h | .gbpDamp d a b h => gbpDamp d a b h | .gbpRes d a b h => gbpRes d a b h | .rdtime d h => rdtime d h
  | .rdtimeLoc d h => rdtimeLoc d h | .rdband d a h => rdband d a h | .rdpos d h => rdpos d h | .barArrive h k => barArrive h k
  | .barWait h k => barWait h k | .barMask a h k => barMask a h k | .barStat d h k => barStat d h k | .hlStat d h => hlStat d h
  | .hlDefer h => hlDefer h | .resume a h => resume a h | .park h => park h | .faultPost a b h => faultPost a b h
  | .sqTake d a h => sqTake d a h | .sqAdmit d a h => sqAdmit d a h | .sqRetire a h => sqRetire a h | .kvGet d a h => kvGet d a h
  | .kvPut a b h => kvPut a b h | .stopTest d a b h => stopTest d a b h | .plGeo a s => plGeo a s | .plMma a b z => plMma a b z
  | .plMmt a b z => plMmt a b z | .plZacc a b => plZacc a b | .plLdacc a => plLdacc a | .plStacc a o => plStacc a o | .plWait a => plWait a
  | .plTile a b z => plTile a b z | .plFlush => plFlush | .plMmaBlk a b z => plMmaBlk a b z | .plMmtBlk a b z => plMmtBlk a b z
  | .plTileBlk a b z => plTileBlk a b z | .drCopyGp a b => drCopyGp a b | .drCopyPg a b => drCopyPg a b | .drCopyPp a b => drCopyPp a b
  | .drCopyGg a b => drCopyGg a b | .drGathG a b => drGathG a b | .drGathP a b => drGathP a b | .drScatG a b => drScatG a b
  | .drScatP a b => drScatP a b | .drFillG a b => drFillG a b | .drFillP a b => drFillP a b | .drWait a => drWait a
  | .vaddF32 d a b => vaddF32 d a b | .vaddS32 d a b => vaddS32 d a b | .vsubF32 d a b => vsubF32 d a b | .vsubS32 d a b => vsubS32 d a b
  | .vmulF32 d a b => vmulF32 d a b | .vmulS32 d a b => vmulS32 d a b | .vfmaF32 d a b c => vfmaF32 d a b c
  | .vfnmF32 d a b c => vfnmF32 d a b c | .vminF32 d a b => vminF32 d a b | .vminS32 d a b => vminS32 d a b
  | .vminN32 d a b => vminN32 d a b | .vmaxF32 d a b => vmaxF32 d a b | .vmaxS32 d a b => vmaxS32 d a b | .vmaxN32 d a b => vmaxN32 d a b
  | .vabsF32 d a => vabsF32 d a | .vabsS32 d a => vabsS32 d a | .vnegF32 d a => vnegF32 d a | .vnegS32 d a => vnegS32 d a
  | .vrcpF32 d a => vrcpF32 d a | .vrsqF32 d a => vrsqF32 d a | .vand d a b => vand d a b | .vor d a b => vor d a b
  | .vxor d a b => vxor d a b | .vsll d a b => vsll d a b | .vsrl d a b => vsrl d a b | .vsra d a b => vsra d a b
  | .vsel d a b c => vsel d a b c | .vdotF32 d a b => vdotF32 d a b | .vsclF32 d a b => vsclF32 d a b | .vcmpEqF32 d a b => vcmpEqF32 d a b
  | .vcmpNeF32 d a b => vcmpNeF32 d a b | .vcmpLtF32 d a b => vcmpLtF32 d a b | .vcmpLeF32 d a b => vcmpLeF32 d a b
  | .vcmpEqS32 d a b => vcmpEqS32 d a b | .vcmpNeS32 d a b => vcmpNeS32 d a b | .vcmpLtS32 d a b => vcmpLtS32 d a b
  | .vcmpLeS32 d a b => vcmpLeS32 d a b | .vcmpLtN32 d a b => vcmpLtN32 d a b | .vcmpLeN32 d a b => vcmpLeN32 d a b
  | .vraddF32 d a => vraddF32 d a | .vraddS32 d a => vraddS32 d a | .vrmaxF32 d a => vrmaxF32 d a | .vrmaxS32 d a => vrmaxS32 d a
  | .vrminF32 d a => vrminF32 d a | .vrminS32 d a => vrminS32 d a | .vrmaxiF32 d a => vrmaxiF32 d a | .vcvtF32S32 d a => vcvtF32S32 d a
  | .vcvtS32F32 d a => vcvtS32F32 d a | .vcvtBf16F32 d a => vcvtBf16F32 d a | .vcvtF16F32 d a => vcvtF16F32 d a
  | .vcvtF32Bf16 d a => vcvtF32Bf16 d a | .vcvtF32F16 d a => vcvtF32F16 d a | .vcvtE4m3F32 d a => vcvtE4m3F32 d a
  | .vcvtE5m2F32 d a => vcvtE5m2F32 d a | .vcvtF32E4m3 d a => vcvtF32E4m3 d a | .vcvtF32E5m2 d a => vcvtF32E5m2 d a
  | .vpackS16 d a b => vpackS16 d a b | .vpackN16 d a b => vpackN16 d a b | .vpackS8 d a b => vpackS8 d a b
  | .vpackN8 d a b => vpackN8 d a b | .vunpkS16 d a k => vunpkS16 d a k | .vunpkN16 d a k => vunpkN16 d a k
  | .vunpkS8 d a k => vunpkS8 d a k | .vunpkN8 d a k => vunpkN8 d a k | .vbcast d a => vbcast d a | .vext d a k => vext d a k
  | .vins d a k => vins d a k | .vperm d a b => vperm d a b | .vrot d a k => vrot d a k | .vshfl d a b => vshfl d a b
  | .ldgV d a b => ldgV d a b | .stgV d a b => stgV d a b | .brk => brk | .illegalInstruction w => illegalInstruction w
  | .migrate loc => migrate loc | .dispatch loc => dispatch loc | .partitionChange core => partitionChange core
  | .concurrentDispatch h tag => concurrentDispatch h tag | .gleanCluster core => gleanCluster core | .gleanHolding die => gleanHolding die
  | .restoreSeedMove loc => restoreSeedMove loc | .handlerWatchdog loc => handlerWatchdog loc | .deliver h n => deliver h n
  | .faultRecordOffer h => faultRecordOffer h | .ploughGrant die cl => ploughGrant die cl | .tileCommit die cl => tileCommit die cl
  | .drillRow core => drillRow core | .atsCompletion die n victim => atsCompletion die n victim
  | .pageRequestResponse die n ok victim => pageRequestResponse die n ok victim
  | .atsInvalidation pasid base size => atsInvalidation pasid base size | .uncorrectableError line => uncorrectableError line
  | .hostWrite e addr bytes ep => hostWrite e addr bytes ep | .hostRead e addr len => hostRead e addr len | .lateReply die => lateReply die
  | .drain e => drain e | .drainWatchdog e => drainWatchdog e | .headlandMove e => headlandMove e | .headlandResume e => headlandResume e
  | .gangSwitch e => gangSwitch e | .timeBeacon die south err => timeBeacon die south err
  | .arbiterEpoch nonPlough draw demand => arbiterEpoch nonPlough draw demand
  | .wearUpdate j ageing retired eol => wearUpdate j ageing retired eol | .coreFailure core => coreFailure core
  | .retireCore port v => retireCore port v | .launchTake h => launchTake h | .launchComplete h tag => launchComplete h tag
  | .walkerPush h => walkerPush h | .walkerCompletion h => walkerCompletion h | .ringEnable fn ring v => ringEnable fn ring v
  | .svCqHeadWrite fn v => svCqHeadWrite fn v | .kvCountWrite fn v => kvCountWrite fn v | .hlCtlWrite port e v => hlCtlWrite port e v
  | .create port e v => create port e v | .destroy port e v => destroy port e v | .stop port e v work => stop port e v work
  | .start port e v => start port e v | .switchOut port e v => switchOut port e v | .switchIn port e v => switchIn port e v
  | .setWd port e v => setWd port e v | .resetHolding port e v again => resetHolding port e v again
  | .estateReset port e v lost again => estateReset port e v lost again | .functionLevelReset fn again => functionLevelReset fn again
  | .partitionModeWrite port v => partitionModeWrite port v | .survey fn port reach again => survey fn port reach again
  | .svResume fn port => svResume fn port | .setDbg fn port => setDbg fn port | .stewardClaim port w => stewardClaim port w
  | .stewardResign port v => stewardResign port v | .stewardHandover port v => stewardHandover port v | .stwBeat port => stwBeat port
  | .stewardLapse linkDown => stewardLapse linkDown | .stwStatRead port => stwStatRead port | .linkStateChange k up => linkStateChange k up
  | .collectiveTake h => collectiveTake h | .collectiveComplete h n bufs => collectiveComplete h n bufs
  | .collectiveTimeout h n part => collectiveTimeout h n part | .abandonNotice h n part => abandonNotice h n part
  | .exportTicket port v => exportTicket port v | .importTicket port v path accepted => importTicket port v path accepted
  | .importComplete h pulled => importComplete h pulled | .harvest port w => harvest port w | .harvestCut cut => harvestCut cut
  | .restore port w => restore port w | .attest port v reach => attest port v reach | .powerOn rep => powerOn rep
  | .registerWrite fn port r v => registerWrite fn port r v | .msiXUnmask fn w => msiXUnmask fn w
  | .transplantTicketCheck ticket => transplantTicketCheck ticket

/-- The events of the device are the instructions that have no word. -/
theorem isEvent_eq_isNone_encode (i : Instr) : i.isEvent = (encode i).isNone := by
  cases i <;> rfl

/-! ## A word and its fields, format by format (03 R51)

The fields by which the decoder distinguishes instructions stand as the numbers that it compares. -/

@[simp] theorem encRR_eq_iff {m : BitVec 6} {d a b : Reg} {h : BitVec 1} {k : BitVec 4} {op : BitVec 6} {w : W32} :
    encRR m d a b h k op = w ↔ (fMajor w).toNat = m.toNat ∧ fD w = d ∧ fA w = a ∧ fB w = b ∧ fH w = h ∧ fK w = k ∧
      (fOp w).toNat = op.toNat := by
  constructor
  · rintro rfl; simp
  · rintro ⟨hm, rfl, rfl, rfl, rfl, rfl, hop⟩
    apply BitVec.eq_of_toNat_eq
    simp only [toNat_encRR, ← hm, ← hop, fMajor, fD, fA, fB, fH, fK, fOp, toNat_extract]
    omega

@[simp] theorem encAM_eq_iff {d a b : Reg} {h p z : BitVec 1} {op : BitVec 4} {w : W32} :
    encAM d a b h p z op = w ↔ (fMajor w).toNat = 0x30 ∧ fD w = d ∧ fA w = a ∧ fB w = b ∧ fH w = h ∧ fK w = 0 ∧
      (fPosted w).toNat = p.toNat ∧ fZ w = z ∧ (fAmOp w).toNat = op.toNat := by
  constructor
  · rintro rfl; simp
  · rintro ⟨hm, rfl, rfl, rfl, rfl, hk, hp, rfl, hop⟩
    have hk := congrArg BitVec.toNat hk
    apply BitVec.eq_of_toNat_eq
    simp only [fMajor, fK, toNat_extract, BitVec.ofNat_eq_ofNat, BitVec.toNat_ofNat] at hm hk
    simp only [toNat_encAM, ← hp, ← hop, fD, fA, fB, fH, fPosted, fZ, fAmOp, toNat_extract]
    omega

@[simp] theorem encOR_eq_iff {d a : Reg} {h : BitVec 1} {o sc : BitVec 3} {w : W32} :
    encOR d a h o sc = w ↔ (fMajor w).toNat = 0x31 ∧ fD w = d ∧ fA w = a ∧ fB w = 0 ∧ fH w = h ∧ fK w = 0 ∧
      (fOrd w).toNat = o.toNat ∧ (fScope w).toNat = sc.toNat := by
  constructor
  · rintro rfl; simp
  · rintro ⟨hm, rfl, rfl, hb, rfl, hk, ho, hsc⟩
    have hb := congrArg BitVec.toNat hb
    have hk := congrArg BitVec.toNat hk
    apply BitVec.eq_of_toNat_eq
    simp only [fMajor, fB, fK, toNat_extract, BitVec.ofNat_eq_ofNat, BitVec.toNat_ofNat] at hm hb hk
    simp only [toNat_encOR, ← ho, ← hsc, fD, fA, fH, fOrd, fScope, toNat_extract]
    omega

@[simp] theorem encRI_eq_iff {m : BitVec 6} {d a : Reg} {i : BitVec 16} {w : W32} :
    encRI m d a i = w ↔ (fMajor w).toNat = m.toNat ∧ fD w = d ∧ fA w = a ∧ fImm w = i := by
  constructor
  · rintro rfl; simp
  · rintro ⟨hm, rfl, rfl, rfl⟩
    apply BitVec.eq_of_toNat_eq
    simp only [toNat_encRI, ← hm, fMajor, fD, fA, fImm, toNat_extract]
    omega

@[simp] theorem encSH_eq_iff {d a : Reg} {sel : BitVec 4} {n : BitVec 6} {w : W32} :
    encSH d a sel n = w ↔ (fMajor w).toNat = 0x08 ∧ fD w = d ∧ fA w = a ∧ (fShift w).toNat = sel.toNat ∧ fMid w = 0 ∧
      fAmt w = n := by
  constructor
  · rintro rfl; simp
  · rintro ⟨hm, rfl, rfl, hsel, hmid, rfl⟩
    have hmid := congrArg BitVec.toNat hmid
    apply BitVec.eq_of_toNat_eq
    simp only [fMajor, fMid, toNat_extract, BitVec.ofNat_eq_ofNat, BitVec.toNat_ofNat] at hm hmid
    simp only [toNat_encSH, ← hsel, fD, fA, fShift, fAmt, toNat_extract]
    omega

@[simp] theorem encSY_eq_iff {d a : Reg} {s : BitVec 12} {fn : BitVec 4} {w : W32} :
    encSY d a s fn = w ↔ (fMajor w).toNat = 0x02 ∧ fD w = d ∧ fA w = a ∧ fSys w = s ∧ (fFn4 w).toNat = fn.toNat := by
  constructor
  · rintro rfl; simp
  · rintro ⟨hm, rfl, rfl, rfl, hfn⟩
    apply BitVec.eq_of_toNat_eq
    simp only [fMajor, toNat_extract] at hm
    simp only [toNat_encSY, ← hfn, fD, fA, fSys, fFn4, toNat_extract]
    omega

@[simp] theorem encJ_eq_iff {m : BitVec 6} {o : BitVec 26} {w : W32} :
    encJ m o = w ↔ (fMajor w).toNat = m.toNat ∧ fOff w = o := by
  constructor
  · rintro rfl; simp
  · rintro ⟨hm, rfl⟩
    apply BitVec.eq_of_toNat_eq
    simp only [toNat_encJ, ← hm, fMajor, fOff, toNat_extract]
    omega

@[simp] theorem encEC_eq_iff {m : BitVec 6} {cmd : BitVec 7} {a b : Reg} {fl : BitVec 9} {w : W32} :
    encEC m cmd a b fl = w ↔
      (fMajor w).toNat = m.toNat ∧ (fCmd w).toNat = cmd.toNat ∧ fEa w = a ∧ fEb w = b ∧ fFlags w = fl := by
  constructor
  · rintro rfl; simp
  · rintro ⟨hm, hcmd, rfl, rfl, rfl⟩
    apply BitVec.eq_of_toNat_eq
    simp only [toNat_encEC, ← hm, ← hcmd, fMajor, fCmd, fEa, fEb, fFlags, toNat_extract]
    omega

@[simp] theorem encVR_eq_iff {m : BitVec 6} {d a b : Reg} {c : BitVec 5} {fn : BitVec 6} {w : W32} :
    encVR m d a b c fn = w ↔
      (fMajor w).toNat = m.toNat ∧ fD w = d ∧ fA w = a ∧ fB w = b ∧ fC w = c ∧ (fOp w).toNat = fn.toNat := by
  constructor
  · rintro rfl; simp
  · rintro ⟨hm, rfl, rfl, rfl, rfl, hfn⟩
    apply BitVec.eq_of_toNat_eq
    simp only [toNat_encVR, ← hm, ← hfn, fMajor, fD, fA, fB, fC, fOp, toNat_extract]
    omega

/-! The flags of the plough instructions are their parts (09 R213 to R217). -/

@[simp] theorem fFlags_eq_sel_iff {w : W32} {s : BitVec 2} : fFlags w = 0#7 ++ s ↔ fFlHi2 w = 0 ∧ fSel w = s := by
  simp only [← BitVec.toNat_inj, fFlags, fFlHi2, fSel, toNat_append, toNat_extract, BitVec.ofNat_eq_ofNat, BitVec.toNat_ofNat]
  omega

@[simp] theorem fFlags_eq_z_iff {w : W32} {z : BitVec 1} :
    fFlags w = 0#7 ++ z ++ 0#1 ↔ fFl0 w = 0 ∧ fFlHi2 w = 0 ∧ fFlZ w = z := by
  simp only [← BitVec.toNat_inj, fFlags, fFl0, fFlHi2, fFlZ, toNat_append, toNat_extract, BitVec.ofNat_eq_ofNat, BitVec.toNat_ofNat]
  omega

@[simp] theorem fFlags_eq_out_iff {w : W32} {o : BitVec 2} :
    fFlags w = 0#6 ++ o ++ 0#1 ↔ fFl0 w = 0 ∧ fFlHi3 w = 0 ∧ fFlOut w = o := by
  simp only [← BitVec.toNat_inj, fFlags, fFl0, fFlHi3, fFlOut, toNat_append, toNat_extract, BitVec.ofNat_eq_ofNat, BitVec.toNat_ofNat]
  omega

/-! ## What a decoder accepts (03 R55) -/

/-- A word is the word of a well-formed instruction. -/
def Denotes (w : W32) (i : Instr) : Prop := encode i = some w ∧ i.wf = true

/-- What a decoder answers to a word is a refusal, or an instruction whose word it is. -/
def Sound (w : W32) (r : Except DecodeCause Instr) : Prop := ∀ i, r = .ok i → Denotes w i

@[simp] theorem sound_ok {w : W32} {i : Instr} : Sound w (.ok i) ↔ Denotes w i := by
  simp [Sound]

@[simp] theorem sound_error {w : W32} {c : DecodeCause} : Sound w (.error c) := by
  simp [Sound]

@[simp] theorem sound_ite {w : W32} {p : Prop} [Decidable p] {r r' : Except DecodeCause Instr} :
    Sound w (if p then r else r') ↔ (p → Sound w r) ∧ (¬p → Sound w r') := by
  by_cases hp : p <;> simp [hp]

@[simp] theorem sound_unreserved {w : W32} {i : Instr} {p : Prop} [Decidable p] : Sound w (unreserved p i) ↔ (p → Denotes w i) := by
  by_cases hp : p <;> simp [unreserved, hp]

@[simp] theorem sound_inRange {w : W32} {i : Instr} {q : Prop} [Decidable q] : Sound w (inRange q i) ↔ (q → Denotes w i) := by
  by_cases hq : q <;> simp [inRange, hq]

@[simp] theorem sound_checked {w : W32} {i : Instr} {p q : Prop} [Decidable p] [Decidable q] :
    Sound w (checked p q i) ↔ (p → q → Denotes w i) := by
  by_cases hp : p <;> simp [checked, hp]

@[simp] theorem refuse_eq_none_iff {p q : Prop} [Decidable p] [Decidable q] : refuse p q = none ↔ p ∧ q := by
  by_cases hp : p <;> simp [refuse, hp]

/-! ## Each opcode map (03 R60 to R67): an operation that accepts a word checks the fields that its template does not name, and takes the
others as its operands. -/

section
variable {w : W32}

theorem sound_decode01 (hm : (fMajor w).toNat = 0x01) : Sound w (decode01 w) := by
  unfold decode01
  split <;> simp_all [Denotes, encode, Instr.wf]

theorem sound_decode02 (hm : (fMajor w).toNat = 0x02) : Sound w (decode02 w) := by
  unfold decode02
  split <;> simp_all [Denotes, encode, Instr.wf]

theorem sound_decode03 (hm : (fMajor w).toNat = 0x03) : Sound w (decode03 w) := by
  unfold decode03
  split <;> simp_all [Denotes, encode, Instr.wf]

theorem sound_decode08 (hm : (fMajor w).toNat = 0x08) : Sound w (decode08 w) := by
  unfold decode08
  split <;> simp_all [Denotes, encode, Instr.wf]

theorem sound_decode30 (hm : (fMajor w).toNat = 0x30) : Sound w (decode30 w) := by
  unfold decode30
  split <;> simp_all [Denotes, encode, Instr.wf]

theorem sound_decode31 (hm : (fMajor w).toNat = 0x31) : Sound w (decode31 w) := by
  unfold decode31
  split <;> simp_all [Denotes, encode, Instr.wf]

theorem sound_decode32 (hm : (fMajor w).toNat = 0x32) : Sound w (decode32 w) := by
  unfold decode32
  split <;> simp_all [Denotes, encode, Instr.wf]

theorem sound_decode33 (hm : (fMajor w).toNat = 0x33) : Sound w (decode33 w) := by
  unfold decode33
  split <;> simp_all [Denotes, encode, Instr.wf]

theorem sound_decode34 (hm : (fMajor w).toNat = 0x34) : Sound w (decode34 w) := by
  unfold decode34
  split <;> simp_all [Denotes, encode, Instr.wf]

theorem sound_decode35 (hm : (fMajor w).toNat = 0x35) : Sound w (decode35 w) := by
  unfold decode35
  split <;> simp_all [Denotes, encode, Instr.wf]

theorem sound_decode36 (hm : (fMajor w).toNat = 0x36) : Sound w (decode36 w) := by
  unfold decode36
  split <;> simp_all [Denotes, encode, Instr.wf]

theorem sound_decode37 (hm : (fMajor w).toNat = 0x37) : Sound w (decode37 w) := by
  unfold decode37
  split <;> simp_all [Denotes, encode, Instr.wf]

theorem sound_decode38 (hm : (fMajor w).toNat = 0x38) : Sound w (decode38 w) := by
  unfold decode38
  split <;> simp_all [Denotes, encode, Instr.wf]

theorem sound_decode39 (hm : (fMajor w).toNat = 0x39) : Sound w (decode39 w) := by
  unfold decode39
  split <;> simp_all [Denotes, encode, Instr.wf]

theorem sound_decode3C (hm : (fMajor w).toNat = 0x3c) : Sound w (decode3C w) := by
  unfold decode3C
  split <;> simp_all [Denotes, encode, Instr.wf]

theorem sound_decode3D (hm : (fMajor w).toNat = 0x3d) : Sound w (decode3D w) := by
  unfold decode3D
  split
  · exact sound_error
  next hc =>
    unfold cause3D at hc
    split <;> simp_all [Denotes, encode, Instr.wf]

theorem sound_decodeMost (w : W32) : Sound w (decodeMost w) := by
  unfold decodeMost
  refine sound_ite.2 ⟨fun hw => sound_ok.2 ⟨congrArg some hw.symm, rfl⟩, fun _ => ?_⟩
  split <;> simp_all [Denotes, encode, Instr.wf, sound_decode01, sound_decode02, sound_decode03, sound_decode08, sound_decode30,
    sound_decode31, sound_decode32, sound_decode33, sound_decode34, sound_decode35, sound_decode36, sound_decode37, sound_decode38,
    sound_decode39, sound_decode3C]

end

theorem sound_decode (w : W32) : Sound w (decode w) := by
  unfold decode
  exact sound_ite.2 ⟨fun hm => sound_decode3D (congrArg BitVec.toNat hm), fun _ => sound_decodeMost w⟩

/-- The words that decode are the words of the well-formed instructions. -/
theorem decode_eq_ok_iff {w : W32} {i : Instr} : decode w = .ok i ↔ Denotes w i :=
  ⟨sound_decode w i, fun ⟨he, hwf⟩ => Laws.RoundTrip.all i hwf w he⟩

/-- A word is stored with its lowest byte first (03 R49). -/
@[simp] theorem bytesWord_wordBytes (w : W32) : bytesWord (wordBytes w) = some w := by
  refine congrArg some (BitVec.eq_of_toNat_eq ?_)
  simp only [toNat_append, toNat_extract]
  omega

theorem decodeBytes_wordBytes (w : W32) : decodeBytes (wordBytes w) = some (decode w) := by
  simp [decodeBytes]

/-- Settles O39: the bytes give the word back, and the word its instruction. -/
theorem decodeAfterEncode : Obligations.DecodeAfterEncode := fun i w hwf he => by
  rw [decodeBytes_wordBytes, decode_eq_ok_iff.2 ⟨he, hwf⟩]

/-- Settles O40: the decoder is sound, and what has a word is no event. -/
theorem encodeAfterDecode : Obligations.EncodeAfterDecode := fun w i hd => by
  obtain ⟨he, hwf⟩ := decode_eq_ok_iff.1 hd
  exact ⟨he, hwf, by rw [isEvent_eq_isNone_encode, he]; rfl⟩

/-- Settles O38: each of the words is the word of its instruction. -/
theorem specWords : Obligations.SpecWords := by
  refine ⟨?_, ?_, ?_, ?_, ?_, ?_, ?_, ?_, ?_, ?_⟩ <;> exact decode_eq_ok_iff.2 ⟨rfl, rfl⟩

end Sys2Proof

/-! SUPPORT. The software traps and the words that the decoder refuses (03 R55, 06 R146, 12 R273, R275). -/

namespace Sys2Proof

/-- The checks of major 0x3d are complete: a word that passes them decodes. -/
theorem cause3D_of_decode3D_error {w : W32} {x : DecodeCause} (h : decode3D w = .error x) : cause3D w = some x := by
  unfold decode3D at h
  split at h
  next c hc => rw [hc]; exact congrArg some (Except.error.inj h)
  next hc => unfold cause3D at hc; split at h <;> simp_all

/-- The cause of a refused word is the one that the decoder gives. -/
theorem wordCause_of_error {w : W32} {x : DecodeCause} (h : decode w = .error x) : wordCause w = some x := by
  unfold decode at h
  unfold wordCause
  split at h
  next hm => rw [if_pos hm, cause3D_of_decode3D_error h]
  next hm => rw [if_neg hm, h]

end Sys2Proof

namespace Sys2Proof.Claims
open Sys2Proof.Machine

theorem Ready.opReady {s : State} {srcs : List Reg} {dst : Reg} {t : Task} {vs : List Word} {c : Core} (h : Ready s srcs dst t vs c) :
    OpReady s srcs dst t vs c := by
  obtain ⟨htask, hports, hread, hroom⟩ := h
  exact ⟨htask, hports, hread, hroom⟩

section
variable {s : State} {t : Task}

theorem exec_trap {c : Core} (h : Ready s [] 0 t [] c) (n : BitVec 16) :
    exec (.trap n) s = .next (s.takeTrap s.cur ⟨0x54, n.setWidth 64, 0⟩ t.pc (t.pc + 4) false) := by
  change execTrap n s = _
  exact runOp_trap h.opReady rfl

theorem exec_park {c : Core} (h : Ready s [] 0 t [] c) (k : BitVec 1) :
    exec (.park k) s = .next (s.takeTrap s.cur ⟨0x56, 0, 0⟩ t.pc (t.pc + 4) false) := by
  change execPark k s = _
  exact runOp_trap h.opReady rfl

theorem exec_brk (ht : s.task s.cur = some t) : exec .brk s = .next (s.takeTrap s.cur ⟨0x50, 0, 0⟩ t.pc t.pc false) := by
  change execBrk s = _
  simp only [execBrk, ht]

theorem takeIllegal_of_error {w : W32} {x : DecodeCause} (ht : s.task s.cur = some t) (hd : decode w = .error x) :
    s.takeIllegal s.cur w = s.takeTrap s.cur ⟨x.code, w.setWidth 64, 0⟩ t.pc (t.pc + 4) false := by
  simp only [State.takeIllegal, ht, wordCause_of_error hd, wordInfo]

theorem exec_illegalInstruction {w : W32} {x : DecodeCause} (ht : s.task s.cur = some t) (hf : s.fetch s.cur t = .ok w)
    (hd : decode w = .error x) : exec (.illegalInstruction w) s = traps s t x.code w := by
  change execIllegalInstruction w s = _
  simp only [execIllegalInstruction, ht, hf, if_true, takeIllegal_of_error ht hd, traps]

end

/-- Settles O22: `trap` and `park` are a trap in the frame of `runOp`, `brk` needs a task only, and the cause of a refused word is that of
its refusal. -/
theorem softwareTraps : Obligations.SoftwareTraps := fun n k _ _ _ _ _ =>
  ⟨fun h => ⟨exec_trap h n, exec_park h k⟩, fun ht => ⟨exec_brk ht, exec_illegalInstruction ht⟩⟩

end Sys2Proof.Claims
